-- ==== Sys2Proof/Word.lean ====
section
/-! DEFINITION. The words of the HLG-7208 block: register words, bytes, 64-byte lines and the fixed operand ranges. -/

namespace Sys2Proof

/-- A 32-bit register word (R8: all registers are 32 bits wide). -/
abbrev Word := BitVec 32

/-- A byte. -/
abbrev Byte := BitVec 8

/-- The 64 data bytes of one line; byte `k` is bits `8k+7 … 8k` (R17: the line is the unit of atomicity). -/
abbrev Line := BitVec 512

/-- A byte mask of a line; bit `k` set means that byte `k` is new (R119). -/
abbrev Mask := BitVec 64

/-- A context index: 0–127 are tenants T0–T127, 128 is the provider context (R134). -/
abbrev Ctx := Fin 129

/-- The provider context (R134). -/
def provider : Ctx := ⟨128, by decide⟩

end Sys2Proof
end

