-- ==== Sys2Proof/Syntax.lean ====
section
/-! DEFINITION. The commands of the block: one constructor per row of the opcode table, with the operands its rule names. -/

namespace Sys2Proof

/-- The two cartridge slots (R66). -/
inductive Slot where
  | a | b
  deriving DecidableEq, Repr

/-- The channel a register access came over, as form REG numbers them (Table 13.4). -/
inductive Chan where
  | bar0 | g5 | sp0 | sp1
  deriving DecidableEq, Repr

/-- A serial port (R244). -/
inductive Port where
  | p0 | p1
  deriving DecidableEq, Repr

/-- A host function (Table 8.1): the PF, or VF number `v + 1`, which serves tenant `v` (R139). -/
inductive Fn where
  | pf
  | vf (v : Fin 128)
  deriving DecidableEq, Repr

/-- The BARs a host memory request names (Table 8.2, R224). -/
inductive Bar where
  | bar0 | bar2 | bar4
  deriving DecidableEq, Repr

/-- The two staging kinds of R61 and, for egress, completions (HL_CREDIT_STALL detail). -/
inductive Credit where
  | posted | nonPosted | completion
  deriving DecidableEq, Repr

/-- What the cells of one media line answer when they are sensed: the codeword bits (Table 4.5) that the first sense, and the
40 ns sense, find the other way round than they are stored; bits 639:608 are the virtual prefix (R113, R115, R117). -/
structure Sense where
  first : BitVec 640 := 0
  again : BitVec 640 := 0
  deriving DecidableEq, Repr

/-- What came of the line-writes that an operation makes, in their order (R109–R112): a write passed on try `k + 1`, or all its 8
tries failed. Where the list ends, a write passes on its first try. -/
abbrev Tries := List (Option (Fin 8))

/-- Where a flush read was made (Table 1.14, R232): BAR0 or the G5 window, a tenant's window, or SP0. -/
inductive FlushScope where
  | all
  | tenant (t : Fin 128)
  | serial
  deriving DecidableEq, Repr

/-- The cartridge a seating brings: one that lies outside with its contents, or one as made by the factory. -/
inductive Card where
  | shelf (i : Nat)
  | made (serial : BitVec 64) (big : Bool)
  deriving DecidableEq, Repr

/-- The requests that complete as Unsupported Requests (R226). -/
inductive OddRequest where
  | io | atomicOp | prefixed
  deriving DecidableEq, Repr

/-- Values of configuration space that the manual gives (R219, Table 8.3, R228, R242): the pointer to the first capability, the
header at an offset of the capability list, and the fields of the capabilities. -/
inductive CfgCap where
  | first | header (off : BitVec 12)
  | pmStates | noSoftReset | pmeSupport | aspmSupport
  | maxPayload | extendedTag | tenBitTag | flr | timeoutRanges | timeoutDisable
  | msixEntries | totalVfs | initialVfs | vfOffset | vfStride | vfDevice | pageSizes
  | scaledFlowControl | l1Substates | acsControls | dvsecVendor
  | gpfDurationUs | gpfPowerMw | componentBlock | deviceBlock
  deriving DecidableEq, Repr

/-- What an HDM decoder is given (R225): the host addresses it claims, the DPA it skips, and its interleaving as powers of two, ways
and granularity in bytes. -/
structure HdmRange where
  base  : Nat
  size  : Nat
  skip  : Nat
  ways  : Nat
  gran  : Nat
  deriving DecidableEq, Repr

/-- What a configuration request reads (Tables 8.1, 8.3), or sets: MSI-X Enable and the function mask (R229),
the requester settings of R239, System Page Size (R228), the BARs' memory space by the D-state (R240), an HDM decoder's range with its commit, or its
release (R225, Table 8.16), the BARs (Table 8.2, R224): PF BAR0, BAR2 and BAR4, then the VFs' BAR0 and BAR2, and the
error status of AER, which the host reads or clears (R234, R238). -/
inductive CfgReg where
  | ident | classCode | subsystem | serialLo | serialHi
  | msix (enable mask : Bool)
  | device (mps mrrs : Nat) (relaxed : Bool) (timeout : BitVec 4)
  | power (d3hot : Bool)
  | hdm (decoder : Fin 2) (commit : Option HdmRange)
  | bar (which : Fin 5) (write : Option (BitVec 64))
  | cap (which : CfgCap)
  | sysPage (bytes : Nat)
  | aer (clear : Bool)
  deriving DecidableEq, Repr

/-- A mailbox log (Table 8.9: four logs). -/
abbrev MboxLog := Fin 4

/-- What the supervisor's answer to a request did on the wire (R75, R76). -/
inductive SvLink where
  | answered
  | lost
  | badCrc
  | badLength
  deriving DecidableEq, Repr

/-- The HLG-7208's commands: the rows of the table, in its order. -/
inductive Instr where
  -- power, reset and start-up (12)
  | perstNRelease (hlselCxl : Bool) (cardA cardB : Option Card)
  | perstNAssertion
  | pfailNFall
  | drainEnd (fails : List (Slot × Fin 128)) (damaged : List Nat := [])
  | pfailNRise
  | lossOfLock
  | referenceReturn
  | railOutOfRange (rail : Fin 5)
  | thermalTrip (tj : BitVec 8)
  | vbatLow (v10mv : BitVec 16)
  | ksBootScan
  | bootEnd
  | replayEntry (first second : Option (Fin 8)) (rest : Tries)
  | ledgerReconcile (writes : Tries := [])
  | replayEnd
  | replayLate
  | replayInhibitTimeout
  | bootTestTimeout
  | quietEn (ch : Chan) (v : Word)
  | standby (ch : Chan) (v : Word)
  | disarm (ch : Chan) (v : Word)
  | standbyEntry
  | standbyArmTimeout
  | hibernate (ch : Chan) (v : Word)
  | wake (sources : BitVec 9)
  | wakeAlarm
  -- host traffic (01, 02, 08)
  | hostRead (fn : Fn) (bar : Bar) (off len : Nat) (sense : List Sense)
  | hostWrite (fn : Fn) (bar : Bar) (off : Nat) (data : List Byte) (poison ro : Bool)
  | ingressMove
  | lineAdmission (req : Nat)
  | zeroLengthRead (fn : Fn)
  | pcFlushRead (scope : FlushScope)
  | flushCompletion (id : Nat)
  | flushTimeout (id : Nat)
  | gpfPhase1
  | gpfPhase2
  | fence (scope : FlushScope)
  | configRequest (fn : Fn) (reg : CfgReg)
  | hotReset
  | pfFlr
  | vfFlr (v : Fin 128)
  | vfEnable (on : Bool) (numVfs : BitVec 16) (ari : Bool)
  | unsupportedRequest (fn : Fn) (kind : OddRequest)
  | vendorDefinedMessage
  | identifyMemoryDevice
  | getPartitionInfo
  | getHealthInfo
  | setShutdownState (v : Byte)
  | getEventRecords (log : MboxLog)
  | clearEventRecords (log : MboxLog) (count : Nat)
  | getSupportedLogs
  | getLog
  | mailboxUnsupported (opcode : BitVec 16)
  | completionTimeout (ch : Fin 32)
  | hlCreditStall (kind : Credit) (credits : Nat := 0)
  | hostServiceStall (fn : Fn) (entry : Fin 192)
  | holStall (kind : Credit)
  -- hold buffer and media (01, 04)
  | energyRecompute (vhold10mv : BitVec 16)
  | writeBack (sense : Sense)
  | lineWrite (slot : Slot) (bank : Fin 128)
  | trySenseResult (slot : Slot) (bank : Fin 128) (differ : Nat) (next : Option (Fin 8)) (rest : Tries)
  | correctionRewrite (sense : Sense) (writes : Tries := [])
  | poisonRewrite (sense : Sense) (writes : Tries := [])
  | gapMove (slot : Slot) (bank : Fin 128) (sense : Sense) (first second : Option (Fin 8)) (rest : Tries)
  | scrub (slot : Slot) (sense : Sense)
  | scrubNow (ch : Chan) (v : Word)
  | scrubPause (ch : Chan) (v : Word)
  | injectionArm (ch : Chan) (v : Word)
  | writeInhibit (slot : Slot)
  | inhibitClear (slot : Slot) (peak : BitVec 16)
  | fieldHoldEntry
  | fieldRepeat
  -- cartridges and supervisors (03)
  | prsntNFall (slot : Slot) (card : Card)
  | debounceEnd (slot : Slot)
  | supervisorReady (slot : Slot)
  | authTimeout (slot : Slot)
  | linkTraining (slot : Slot) (pwrgd : Bool) (width : Fin 9)
  | headerClassify (slot : Slot)
  | prsntNOpen (slot : Slot)
  | release (ch : Chan) (slot : Slot) (v : Word)
  | releaseComplete (slot : Slot)
  | reauth (ch : Chan) (slot : Slot) (v : Word)
  | svSoft (ch : Chan) (slot : Slot) (v : Word)
  | svSoftTimeout (slot : Slot)
  | supervisorPassthrough (ch : Chan) (slot : Slot) (v : Word)
  | idRead (slot : Slot) (link : SvLink)
  | auth (slot : Slot) (link : SvLink) (tag : BitVec 128)
  | wearRead (slot : Slot) (link : SvLink)
  | wearCharge (slot : Slot) (link : SvLink)
  | expoRead (slot : Slot) (link : SvLink) (page : Byte)
  | clockSync (slot : Slot) (link : SvLink)
  | sensorRead (slot : Slot) (link : SvLink)
  | indicator (slot : Slot) (link : SvLink) (mode : Fin 3)
  | alertRead (slot : Slot) (link : SvLink)
  | fieldTest (slot : Slot) (link : SvLink) (pattern : Byte) (results : BitVec 64)
  | powerNotice (slot : Slot) (link : SvLink) (on : Bool)
  | supervisorPoll (slot : Slot) (busy : Bool)
  | svTimeout (slot : Slot)
  | supervisorRetry (slot : Slot) (answered : Bool)
  | svalert (slot : Slot)
  | exposureSecond (slot : Slot) (hottest : BitVec 8) (field : BitVec 16)
  | flitLcrcError (slot : Slot)
  | linkIdleTimeout (slot : Slot)
  | retrainEnd (slot : Slot) (up : Bool)
  | migratePacer
  | duetAbort (ch : Chan) (v : Word)
  | cut (ch : Chan) (v : Word)
  | formatDone (failed : List (Nat × Tries) := [])
  -- tenants and countersign (05)
  | tnModeWrite (ch : Chan) (v : Word) (pos : Fin 33 := 32)
  | tnModePersist (ctx : Ctx)
  | tokenRefill
  | csStage (ch : Chan) (off : BitVec 16) (be : BitVec 4) (v : Word)
  | digestRecompute
  | countersign (ch : Chan) (v : Word)
  | withdraw (ch : Chan) (v : Word)
  | windowLapse
  | secretCommit (ch : Chan) (v : Word)
  -- ledger (06)
  | metronomeTick
  | disciplineInterval (cycles : Nat)
  | secondBoundary
  | minuteTick
  | ledgerWrite (writes : Tries := [])
  | frameSealed
  | timeSync (ch : Chan) (v : Word)
  | lgConsumedSeqWrite (ch : Chan) (v : Word)
  | latch (ch : Chan) (v : Word)
  -- DMA (07)
  | start (ch : Chan) (n : Fin 32) (v : Word)
  | fermata (ch : Chan) (n : Fin 32) (v : Word)
  | pauseReached (n : Fin 32)
  | resume (ch : Chan) (n : Fin 32) (v : Word)
  | abort (ch : Chan) (n : Fin 32) (v : Word)
  | kick (ch : Chan) (n : Fin 32) (v : Word)
  | doorbell (ch : Chan) (n : Fin 32) (v : Word)
  | swRequest (ch : Chan) (v : Word)
  | gpioRequest (pin : Fin 16) (level : Bool)
  | descriptorFetch (n : Fin 32) (host : BitVec 512)
  | burstOpen (n : Fin 32)
  | beatRead (sense : Sense)
  | beatWrite (n : Fin 32) (host : Line) (poison : Bool)
  | barrierReached (n : Fin 32)
  | coda (n : Fin 32)
  | busError (n : Fin 32)
  -- keep store (10)
  | ksWdata (ch : Chan) (be : BitVec 4) (v : Word)
  | ksRdata (ch : Chan)
  | commit (ch : Chan) (v : Word)
  | discard (ch : Chan) (v : Word)
  | ksBufExpired
  | pageWriteStart
  | pageWriteDone
  -- serial ports (09)
  | spPoll (port : Port) (sdi : List Bool) (sckFall sckRise : Bool)
  | spWriteFrame (port : Port) (sdi : List Bool) (sckFall sckRise : Bool)
  | spReadFrame (port : Port) (sdi : List Bool) (sckFall sckRise : Bool)
  | spModeChange (port : Port)
  | masterTransaction (ch : Chan) (port : Port) (v : Word)
  | masterTransactionEnd (port : Port) (sdo : List Bool)
  | stretchTimeout (port : Port)
  | flushTx (ch : Chan) (port : Port) (v : Word)
  | flushRx (ch : Chan) (port : Port) (v : Word)
  | spDataAccess (ch : Chan) (port : Port) (wr : Bool) (be : BitVec 4) (v : Word)
  -- events and trace (13)
  | evPop (ch : Chan) (v : Word)
  | evRdSeqWrite (ch : Chan) (v : Word)
  | evEntryLatch (ch : Chan)
  | evRouteWrite (ch : Chan) (v : Word)
  | evTraceMark (ch : Chan) (v : Word)
  | evTraceSelWrite (port : Port) (v : Word)
  | traceDataFetch (ch : Chan)
  | twEvPop (t : Fin 128) (v : Word)
  | twEvEntryLatch (t : Fin 128)
  | eventLogWrite
  | msixMessage (fn : Fn) (entry : Fin 192)
  | traceSpill (writes : Tries := [])
  -- self-test (11)
  | run (ch : Chan) (v : Word)
  | testEntry
  | stop (ch : Chan) (v : Word)
  | exit (ch : Chan) (v : Word)
  | testStart (i : Fin 16)
  | sramBist (failing : List (Nat × Nat))
  | clkMetro (cycles : Nat)
  | holdup (capUf esrMohm : List Nat) (vchg10mv : BitVec 16)
  | vholdCmp (risingMv fallingMv : Nat)
  | temp (slot : Option Slot) (readings : List Int)
  | phyLb (errors : Nat)
  | mlLb (slot : Slot) (errors eyeMilliUi : Nat)
  | mramRef (slot : Slot) (offsetMv tmrPercent bank : Nat)
  | wdrv (slot : Slot) (deviationPermille die : Nat)
  | mag (slot : Slot) (offMax onMin onMax sensor : Nat) (inhibitSeen : Bool)
  | array (slot : Slot) (repaired unrepaired : Nat) (last : Bool)
  | remeasure (ch : Chan) (v : Word)
  | writebackAll (ch : Chan) (v : Word)
  | apertureWrite (ch : Chan) (v : Word)
  | readClear (ch : Chan) (off : BitVec 16) (be : BitVec 4)
  | registerWrite (ch : Chan) (off : BitVec 16) (be : BitVec 4) (v : Word)
  | hostLinkUp (speed width : Fin 9) (flexBus : Bool)
  | shortDrain (steps : Nat) (pages : Fin 2 := 0) (fails : List (Slot × Fin 128) := []) (damaged : List Nat := [])
  | lossOfVbat
  | startFromOff
  | unexpectedCompletion
  deriving DecidableEq, Repr

end Sys2Proof
end

