-- ==== Sys2Proof/Decode.lean ====
section
/-! DEFINITION. The decoder asked of a block: the command that a word of the table's bits spells. -/

namespace Sys2Proof

/-- No row of the table gives bits, so no word spells a command. -/
def decodeTableWord (_nbits _w : Nat) : Option Instr := none

end Sys2Proof
end

