-- ==== Sys2Proof/Machine/Bits.lean ====
section
/-! DEFINITION. Bit fields, byte order, keyed lists and vector updates: the plain data operations every unit uses. -/

namespace Sys2Proof.Machine

/-- Bits `lo + w - 1 … lo` of a word, as a number. -/
def fld (v : BitVec n) (lo w : Nat) : Nat := (v.toNat >>> lo) % 2 ^ w

/-- Bit `i` of a word. -/
def bit (v : BitVec n) (i : Nat) : Bool := v.getLsbD i

/-- A number placed at bit `lo` of a register word. -/
def put (x lo : Nat) : Word := BitVec.ofNat 32 (x <<< lo)

/-- A flag placed at bit `lo` of a register word. -/
def putB (b : Bool) (lo : Nat) : Word := if b then put 1 lo else 0

/-- The low 32 bits of a number (the LO half of a 64-bit register). -/
def lo32 (x : Nat) : Word := BitVec.ofNat 32 x

/-- Bits 63:32 of a number (the HI half). -/
def hi32 (x : Nat) : Word := BitVec.ofNat 32 (x / 2 ^ 32)

/-- A saturating counter of `w` bits as a register shows it. -/
def sat (w x : Nat) : Nat := min x (2 ^ w - 1)

/-- A signed number as the low `w` bits of two's complement. -/
def signed (w : Nat) (x : Int) : Nat := (BitVec.ofInt w x).toNat

/-- The 32-bit mask of a register access's byte enables (R8). -/
def byteMask (be : BitVec 4) : Word :=
  (if be.getLsbD 0 then 0x000000FF else 0) ||| (if be.getLsbD 1 then 0x0000FF00 else 0) |||
  (if be.getLsbD 2 then 0x00FF0000 else 0) ||| (if be.getLsbD 3 then 0xFF000000 else 0)

/-- The word a write leaves: the enabled bytes of `v`, the others of `old` (R8). -/
def blend (old v : Word) (be : BitVec 4) : Word :=
  (old &&& ~~~ byteMask be) ||| (v &&& byteMask be)

/-- All four bytes of a register. -/
def allBytes : BitVec 4 := 0xF

/-! ### Bytes -/

/-- The `k` little-endian bytes of a number (R8). -/
def leBytes : Nat → Nat → List Byte
  | 0, _ => []
  | k + 1, x => BitVec.ofNat 8 x :: leBytes k (x / 256)

/-- The number that little-endian bytes spell. -/
def ofLe : List Byte → Nat
  | [] => 0
  | b :: bs => b.toNat + 256 * ofLe bs

/-- The `k` big-endian bytes of a number. -/
def beBytes (k x : Nat) : List Byte := (leBytes k x).reverse

/-- The bytes of a register word, lowest first. -/
def wordBytes (w : Word) : List Byte := leBytes 4 w.toNat

/-- The 64 bytes of a line, byte 0 first. -/
def lineBytes (l : Line) : List Byte := leBytes 64 l.toNat

/-- The line that bytes spell, byte 0 first; missing bytes are 0. -/
def lineOf (bs : List Byte) : Line := BitVec.ofNat 512 (ofLe (bs.take 64))

/-- The register word that four bytes spell. -/
def wordOf (bs : List Byte) : Word := BitVec.ofNat 32 (ofLe (bs.take 4))

/-- The 512-bit mask of a byte mask: the bytes `k … 63` starting from the top. -/
def spreadMask (m : Mask) : Nat → Nat
  | 0 => 0
  | k + 1 => (if m.getLsbD k then 255 * 2 ^ (8 * k) else 0) + spreadMask m k

/-- Bytes of `new` where the mask is set, of `old` elsewhere (R119). -/
def mergeLine (old new : Line) (m : Mask) : Line :=
  let w : Line := BitVec.ofNat 512 (spreadMask m 64)
  (old &&& ~~~ w) ||| (new &&& w)

/-- The mask of bytes `a … a + n - 1` of a line. -/
def maskRange (a n : Nat) : Mask := BitVec.ofNat 64 ((2 ^ n - 1) <<< a)

/-- The mask of a whole line. -/
def fullMask : Mask := BitVec.ofNat 64 (2 ^ 64 - 1)

/-! ### Keyed lists -/

/-- The value of a key. -/
def look [DecidableEq α] (k : α) : List (α × β) → Option β
  | [] => none
  | (a, b) :: rest => if a = k then some b else look k rest

/-- A keyed list with one key's value replaced or added. -/
def insertKey [DecidableEq α] (k : α) (v : β) : List (α × β) → List (α × β)
  | [] => [(k, v)]
  | (a, b) :: rest => if a = k then (k, v) :: rest else (a, b) :: insertKey k v rest

/-- A keyed list without a key. -/
def dropKey [DecidableEq α] (k : α) : List (α × β) → List (α × β)
  | [] => []
  | (a, b) :: rest => if a = k then dropKey k rest else (a, b) :: dropKey k rest

/-- Adds to the count under a key. -/
def bump [DecidableEq α] (k : α) (n : Nat) (l : List (α × Nat)) : List (α × Nat) :=
  insertKey k ((look k l).getD 0 + n) l

/-- The sum of a measure over a list. -/
def total (f : α → Nat) : List α → Nat
  | [] => 0
  | a :: rest => f a + total f rest

/-- The largest value of a measure over a list. -/
def greatest (f : α → Nat) : List α → Nat
  | [] => 0
  | a :: rest => max (f a) (greatest f rest)

/-- Replaces the entries that satisfy `p`. -/
def update (p : α → Bool) (f : α → α) : List α → List α
  | [] => []
  | a :: rest => (if p a then f a else a) :: update p f rest

/-- The last `n` entries. -/
def lastN (n : Nat) (l : List α) : List α := l.drop (l.length - n)

/-- The numbers `0 … n - 1`. -/
def upTo (n : Nat) : List Nat := List.range n

/-! ### Vectors -/

/-- A vector with one entry changed. -/
def modAt (v : Vector α n) (i : Fin n) (f : α → α) : Vector α n := v.set i (f v[i])

/-- A vector with every entry changed. -/
def mapV (v : Vector α n) (f : α → β) : Vector β n := Vector.ofFn fun i => f v[i]

/-- Every index of a vector, in order. -/
def indices (n : Nat) : List (Fin n) := List.finRange n

/-! ### Byte memories in canonical form -/

/-- What a byte memory reads as at an address: the listed byte, else `dflt` (one definition per memory). -/
def memRead (dflt : Nat → Byte) (a : Nat) : List Host.Cell → Byte
  | [] => dflt a
  | (k, b) :: rest => if k = a then b else memRead dflt a rest

/-- A byte memory with one byte written: strictly rising addresses, no byte equal to the unlisted value. -/
def memWrite (dflt : Nat → Byte) (a : Nat) (v : Byte) : List Host.Cell → List Host.Cell
  | [] => if v = dflt a then [] else [(a, v)]
  | (k, b) :: rest =>
    if a < k then (if v = dflt a then (k, b) :: rest else (a, v) :: (k, b) :: rest)
    else if a = k then (if v = dflt a then rest else (a, v) :: rest)
    else (k, b) :: memWrite dflt a v rest

/-- The addresses of a byte memory rise strictly, and no entry equals what an unlisted address reads as. -/
def memOk (dflt : Nat → Byte) : List Host.Cell → Bool
  | [] => true
  | (k, b) :: rest => decide (b ≠ dflt k) && rest.all (fun c => decide (k < c.1)) && memOk dflt rest

/-- Several bytes written from an address on. -/
def memWriteMany (dflt : Nat → Byte) (a : Nat) : List Byte → List Host.Cell → List Host.Cell
  | [], m => m
  | b :: bs, m => memWriteMany dflt (a + 1) bs (memWrite dflt a b m)

/-- `n` bytes read from an address on. -/
def memReadMany (dflt : Nat → Byte) (m : List Host.Cell) (a : Nat) : Nat → List Byte
  | 0 => []
  | n + 1 => memRead dflt a m :: memReadMany dflt m (a + 1) n

end Sys2Proof.Machine
end

