-- ==== Sys2Proof/Machine/Code.lean ====
section
/-! DEFINITION. The stored line as 640 codeword bits, and the check code over GF(2^10) (R113–R116). -/

namespace Sys2Proof.Machine

/-! ### GF(2^10) with x^10 + x^3 + 1 (R114) -/

/-- Multiplication by α. -/
def gfTwice (a : Nat) : Nat := if 512 ≤ a then (2 * a) ^^^ 0x409 else 2 * a

/-- The product of two elements, by the bits of the second. -/
def gfMulBits : Nat → Nat → Nat → Nat
  | 0, _, _ => 0
  | n + 1, a, b => (if b % 2 = 1 then a else 0) ^^^ gfMulBits n (gfTwice a) (b / 2)

def gfMul (a b : Nat) : Nat := gfMulBits 10 a b

/-- A power of an element, by the bits of the exponent. -/
def gfPowBits : Nat → Nat → Nat → Nat
  | 0, _, _ => 1
  | n + 1, a, e => gfMul (if e % 2 = 1 then a else 1) (gfPowBits n (gfMul a a) (e / 2))

/-- α to a power; α has order 1023. -/
def alpha (e : Nat) : Nat := gfPowBits 10 2 (e % 1023)

/-- The inverse of an element that is not 0. -/
def gfInv (a : Nat) : Nat := gfPowBits 10 a 1022

/-! ### The generator polynomial (R114) -/

/-- A polynomial over GF(2^10), lowest coefficient first, times x + r. -/
def timesRoot (p : List Nat) (r : Nat) : List Nat :=
  List.zipWith (· ^^^ ·) (0 :: p) (p.map (gfMul r) ++ [0])

/-- The minimal polynomial of α^i, as a bit string: the product over its ten conjugates. -/
def minimal (i : Nat) : Nat :=
  (((List.range 10).map fun j => alpha (i * 2 ^ j)).foldl timesRoot [1]).foldr (fun c n => c + 2 * n) 0

/-- The product of two binary polynomials, by the bits of the second. -/
def polyMul : Nat → Nat → Nat → Nat
  | 0, _, _ => 0
  | n + 1, a, b => (if b % 2 = 1 then a else 0) ^^^ polyMul n (2 * a) (b / 2)

/-- g(x): the eight minimal polynomials differ, so that their least common multiple is their product, of degree 80. -/
def generator : Nat := [1, 3, 5, 7, 9, 11, 13, 15].foldl (fun g i => polyMul 11 g (minimal i)) 1

/-- The remainder of the low `n` bits of a binary polynomial modulo `g` of degree `d`. -/
def polyMod (g d m : Nat) : Nat → Nat → Nat
  | 0, r => r
  | n + 1, r =>
    let r := 2 * r + m / 2 ^ n % 2
    polyMod g d m n (if 2 ^ d ≤ r then r ^^^ g else r)

/-- The check bits p79 … p0 of a 560-bit message. -/
def checkBits (m : Nat) : Nat := polyMod generator 80 (m * 2 ^ 80) 640 0

/-! ### Where the bits lie (Table 4.5) -/

/-- The lowest `k` bytes of a number in the opposite order. -/
def flipBytes : Nat → Nat → Nat
  | 0, _ => 0
  | k + 1, x => x % 256 * 256 ^ k + flipBytes k (x / 256)

/-- Bytes 0–63 as the codeword numbers their bits: byte 0 highest; and the bytes of such bits. -/
def dataBits (l : Line) : Nat := flipBytes 64 l.toNat
def bitsData (b : Nat) : Line := BitVec.ofNat 512 (flipBytes 64 b)

/-- META in bytes 64 and 65, and back. -/
def metaBits (m : BitVec 16) : Nat := flipBytes 2 m.toNat
def bitsMeta (b : Nat) : BitVec 16 := BitVec.ofNat 16 (flipBytes 2 b)

/-- The codeword of a line at a cartridge line address: prefix, data, META and check bits. -/
def encodeLine (c : Nat) (data : Line) (meta' : BitVec 16) : BitVec 640 :=
  let m := (c % 2 ^ 30 * 2 ^ 512 + dataBits data) * 2 ^ 16 + metaBits meta'
  BitVec.ofNat 640 (m * 2 ^ 80 + checkBits m)

/-- What a pattern of wrong bits does to the data, to META, and to the virtual prefix. -/
def errData (e : BitVec 640) : Line := bitsData (e.toNat / 2 ^ 96 % 2 ^ 512)
def errMeta (e : BitVec 640) : BitVec 16 := bitsMeta (e.toNat / 2 ^ 80 % 2 ^ 16)
def errPrefix (e : BitVec 640) : Nat := e.toNat / 2 ^ 608

/-- The pattern that flips the lowest `n` check bits. -/
def lowErrors (n : Nat) : BitVec 640 := BitVec.ofNat 640 (2 ^ n - 1)

/-! ### The decoder (R115) -/

/-- Ones among the low `n` bits of a number. -/
def ones : Nat → Nat → Nat
  | 0, _ => 0
  | n + 1, x => x % 2 + ones n (x / 2)

def weightOf (e : BitVec 640) : Nat := ones 640 e.toNat

/-- A binary polynomial of `n` bits at an element. -/
def evalBits (a x : Nat) : Nat → Nat → Nat
  | 0, r => r
  | n + 1, r => evalBits a x n (gfMul r a ^^^ (x / 2 ^ n % 2))

/-- The syndromes S1 … S16 of a pattern. -/
def syndromes (e : BitVec 640) : List Nat := (List.range 16).map fun j => evalBits (alpha (j + 1)) e.toNat 640 0

/-- The error locator of a list of syndromes, by Berlekamp and Massey: the locator `c`, its length, the last other one
`b` with its discrepancy, and how far behind it lies. -/
structure Locator where
  c : List Nat := [1]
  b : List Nat := [1]
  len : Nat := 0
  gap : Nat := 1
  disc : Nat := 1
  deriving DecidableEq, Repr

/-- Two polynomials over GF(2^10) added. -/
def addPoly : List Nat → List Nat → List Nat
  | [], q => q
  | p, [] => p
  | x :: p, y :: q => (x ^^^ y) :: addPoly p q

/-- One more syndrome; `seen` are the earlier ones, newest first. -/
def locateStep (k : Locator) (seen : List Nat) (s : Nat) : Locator :=
  let d := s ^^^ (List.zipWith gfMul (k.c.drop 1) seen).foldl (· ^^^ ·) 0
  let n := seen.length
  if d = 0 then { k with gap := k.gap + 1 }
  else
    let c := addPoly k.c (List.replicate k.gap 0 ++ k.b.map (gfMul (gfMul d (gfInv k.disc))))
    if 2 * k.len ≤ n then { c := c, b := k.c, len := n + 1 - k.len, gap := 1, disc := d }
    else { k with c := c, gap := k.gap + 1 }

def locate : List Nat → List Nat → Locator → Locator
  | [], _, k => k
  | s :: rest, seen, k => locate rest (s :: seen) (locateStep k seen s)

/-- A polynomial over GF(2^10) at an element. -/
def evalPoly (p : List Nat) (a : Nat) : Nat := p.foldr (fun c r => c ^^^ gfMul r a) 0

/-- The pattern of at most 4 bits that the decoder takes for the error, where there is one: its positions are the locator's
roots, and its syndromes are those sensed. -/
def correction (e : BitVec 640) : Option (BitVec 640) :=
  let syn := syndromes e
  let k := locate (syn.take 8) [] {}
  let at' := (List.range 640).filter fun p => decide (evalPoly k.c (alpha (1023 - p)) = 0)
  let f : BitVec 640 := BitVec.ofNat 640 (at'.foldl (fun n p => n + 2 ^ p) 0)
  if k.len ≤ 4 ∧ at'.length = k.len ∧ syndromes f = syn then some f else none

/-- What one sense of a line gives. -/
inductive Sensed where
  /-- So many bits corrected, and the bits that stay wrong: none of up to 4 wrong bits. -/
  | decoded (bits : Nat) (wrong : BitVec 640)
  | misdirect
  | uncorrectable
  deriving DecidableEq, Repr

/-- The decoder on a pattern of wrong bits (R115): up to 4 are corrected, 5 to 12 detected; beyond, the code of R114 decides. -/
def senseOnce (e : BitVec 640) : Sensed :=
  if e = 0 then .decoded 0 0
  else
    let n := weightOf e
    if n ≤ 4 then (if errPrefix e = 0 then .decoded n 0 else .misdirect)
    else if n ≤ 12 then .uncorrectable
    else match correction e with
      | none => .uncorrectable
      | some f => if errPrefix f = 0 then .decoded (weightOf f) (e ^^^ f) else .misdirect

end Sys2Proof.Machine
end

