-- ==== Sys2Proof/Machine/Crypto.lean ====
section
/-! DEFINITION. AES-256, the XTS mode over one line, and AES Key Wrap (R145, R146; PRESUMED FIPS 197, IEEE 1619 and RFC 3394, log 7). -/

namespace Sys2Proof.Machine

/-! ### The field of AES -/

/-- Multiplication by x in GF(2^8) with x^8 + x^4 + x^3 + x + 1. -/
def byteTwice (a : Nat) : Nat := if 128 ≤ a then (2 * a % 256) ^^^ 0x1B else 2 * a

/-- The product of two bytes in that field, by the bits of the second. -/
def byteMul : Nat → Nat → Nat → Nat
  | 0, _, _ => 0
  | n + 1, a, b => (if b % 2 = 1 then a else 0) ^^^ byteMul n (byteTwice a) (b / 2)

def byteTimes (a b : Nat) : Nat := byteMul 8 a b

/-- The inverse of a byte, its 254th power; 0 for 0. -/
def byteInv (a : Nat) : Nat :=
  let p2 := byteTimes a a
  let p3 := byteTimes p2 a
  let p12 := byteTimes (byteTimes p3 p3) (byteTimes p3 p3)
  let p15 := byteTimes p12 p3
  let p30 := byteTimes p15 p15
  let p60 := byteTimes p30 p30
  let p120 := byteTimes p60 p60
  byteTimes (byteTimes p120 p120) (byteTimes p12 p2)

/-- A byte rotated left. -/
def byteRotl (a k : Nat) : Nat := (a * 2 ^ k) % 256 + a / 2 ^ (8 - k)

/-- The substitution of a byte: its inverse through the affine map, and back. -/
def subByte (a : Nat) : Nat :=
  let i := byteInv a
  i ^^^ byteRotl i 1 ^^^ byteRotl i 2 ^^^ byteRotl i 3 ^^^ byteRotl i 4 ^^^ 0x63

def unsubByte (a : Nat) : Nat := byteInv (byteRotl a 1 ^^^ byteRotl a 3 ^^^ byteRotl a 6 ^^^ 0x05)

/-! ### The block cipher: blocks and keys are bytes in order -/

/-- Two byte strings added. -/
def xorBytes (a b : List Nat) : List Nat := List.zipWith (· ^^^ ·) a b

/-- The next word of the key schedule from the previous word and the one eight before it. -/
def nextKeyWord (i : Nat) (prev back : List Nat) : List Nat :=
  if i % 8 = 0 then
    xorBytes back (xorBytes ((prev.drop 1 ++ prev.take 1).map subByte) [2 ^ (i / 8 - 1), 0, 0, 0])
  else if i % 8 = 4 then xorBytes back (prev.map subByte)
  else xorBytes back prev

/-- `n` more words behind the words `i - 8 … i - 1`, newest first in `w`. -/
def moreKeyWords : Nat → Nat → List (List Nat) → List (List Nat)
  | 0, _, w => w
  | n + 1, i, w => moreKeyWords n (i + 1) (nextKeyWord i (w.headD []) (w.getD 7 []) :: w)

/-- A string cut into pieces of `k` bytes. -/
def cut (k : Nat) : Nat → List α → List (List α)
  | 0, _ => []
  | n + 1, l => l.take k :: cut k n (l.drop k)

/-- The fifteen round keys of a 256-bit key. -/
def roundKeys (key : List Nat) : List (List Nat) :=
  cut 16 15 (moreKeyWords 52 8 (cut 4 8 key).reverse).reverse.flatten

/-- Row `r` of the block moves `r` columns left, or right. -/
def shiftRows (right : Bool) (b : List Nat) : List Nat :=
  (List.range 16).map fun k => b.getD ((k % 4) + 4 * ((k / 4 + (if right then 4 - k % 4 else k % 4)) % 4)) 0

/-- A column times a fixed polynomial, whose coefficients are given from the diagonal on. -/
def mixColumn (c col : List Nat) : List Nat :=
  (List.range 4).map fun r => (List.range 4).foldl (fun x j => x ^^^ byteTimes (c.getD ((j + 4 - r) % 4) 0) (col.getD j 0)) 0

def mixColumns (c b : List Nat) : List Nat := (cut 4 4 b).flatMap (mixColumn c)

/-- AES-256 over one block, and its inverse. -/
def aesRounds : List (List Nat) → List Nat → List Nat
  | [], b => b
  | [k], b => xorBytes (shiftRows false (b.map subByte)) k
  | k :: rest, b => aesRounds rest (xorBytes (mixColumns [2, 3, 1, 1] (shiftRows false (b.map subByte))) k)

def aesEncrypt (key b : List Nat) : List Nat :=
  match roundKeys key with
  | [] => b
  | k :: rest => aesRounds rest (xorBytes b k)

def aesUnrounds : List (List Nat) → List Nat → List Nat
  | [], b => b
  | [k], b => xorBytes ((shiftRows true b).map unsubByte) k
  | k :: rest, b => aesUnrounds rest (mixColumns [14, 11, 13, 9] (xorBytes ((shiftRows true b).map unsubByte) k))

def aesDecrypt (key b : List Nat) : List Nat :=
  match (roundKeys key).reverse with
  | [] => b
  | k :: rest => aesUnrounds rest (xorBytes b k)

/-! ### XTS over a line (R145) -/

/-- A tweak multiplied by x in GF(2^128), as a little-endian number. -/
def twice128 (t : Nat) : Nat := if 2 ^ 127 ≤ t then (2 * t % 2 ^ 128) ^^^ 0x87 else 2 * t

/-- The bytes of a number, lowest first, as numbers. -/
def natBytes (k x : Nat) : List Nat := (List.range k).map fun i => x / 256 ^ i % 256

/-- The number that bytes spell, lowest first. -/
def bytesNat : List Nat → Nat
  | [] => 0
  | b :: bs => b + 256 * bytesNat bs

/-- The blocks of a data unit, each whitened by its power of the tweak. -/
def xtsBlocks (f : List Nat → List Nat) : Nat → Nat → Nat → Nat
  | 0, _, _ => 0
  | n + 1, t, x =>
    let w := natBytes 16 t
    bytesNat (xorBytes (f (xorBytes (natBytes 16 x) w)) w) + 2 ^ 128 * xtsBlocks f n (twice128 t) (x / 2 ^ 128)

/-- The two AES-256 keys of a context's key: the lower half for the data, the upper for the tweak. -/
def dataKey (k : BitVec 512) : List Nat := natBytes 32 k.toNat
def tweakKey (k : BitVec 512) : List Nat := natBytes 32 (k.toNat / 2 ^ 256)

/-- The first tweak of a line: the partition line as a 128-bit little-endian value, encrypted (R145). -/
def firstTweak (k : BitVec 512) (off : Nat) : Nat := bytesNat (aesEncrypt (tweakKey k) (natBytes 16 off))

/-- XTS-AES-256 of one line of 64 bytes at a partition line, and back (R145). -/
def xtsEncrypt (k : BitVec 512) (off : Nat) (l : Line) : Line :=
  BitVec.ofNat 512 (xtsBlocks (aesEncrypt (dataKey k)) 4 (firstTweak k off) l.toNat)

def xtsDecrypt (k : BitVec 512) (off : Nat) (l : Line) : Line :=
  BitVec.ofNat 512 (xtsBlocks (aesDecrypt (dataKey k)) 4 (firstTweak k off) l.toNat)

/-! ### AES Key Wrap (R146) -/

/-- One step of the wrap: the register A and one 64-bit block, at step `t`. -/
def wrapStep (kek : List Nat) (t : Nat) (a r : List Nat) : List Nat × List Nat :=
  let b := aesEncrypt kek (a ++ r)
  (xorBytes (b.take 8) (natBytes 8 t).reverse, b.drop 8)

/-- One pass over the blocks, the first at step `t`. -/
def wrapPass (kek : List Nat) : Nat → List Nat → List (List Nat) → List Nat × List (List Nat)
  | _, a, [] => (a, [])
  | t, a, r :: rest =>
    let (a, r) := wrapStep kek t a r
    let (a, rest) := wrapPass kek (t + 1) a rest
    (a, r :: rest)

/-- `n` passes. -/
def wrapPasses (kek : List Nat) : Nat → Nat → List Nat × List (List Nat) → List Nat × List (List Nat)
  | 0, _, x => x
  | n + 1, t, (a, r) => wrapPasses kek n (t + r.length) (wrapPass kek t a r)

/-- The key wrapped under the wrapping key: 8 bytes longer than the key (R146). -/
def keyWrap (kek key : List Nat) : List Nat :=
  let (a, r) := wrapPasses kek 6 1 (List.replicate 8 0xA6, cut 8 (key.length / 8) key)
  a ++ r.flatten

/-- WKEY of a context page: the 512-bit key in 72 bytes (Table 10.5). -/
def wrappedKey (kek : BitVec 256) (key : BitVec 512) : List Byte :=
  (keyWrap (natBytes 32 kek.toNat) (natBytes 64 key.toNat)).map (BitVec.ofNat 8)

end Sys2Proof.Machine
end

