-- ==== Sys2Proof/Config.lean ====
section
/-! DEFINITION. What one engine fixes and the manual leaves open: constants without a body, so that no proof can see a value of them. -/

namespace Sys2Proof.Config

/-- A free value of `w` bits: what the manual leaves open, applied to the counter of the state
(DESIGN CHOICE, log 4). Uses: nonces (R79), a torn word (R289), positions chosen by the engine (R133), cells after a failed poison write (R112). -/
opaque freeBits (w : Nat) : Nat → BitVec w

/-- The 512-bit key of a context that a change of the given number drew (R145, R146, log 7). -/
opaque keyBits : Nat → Nat → BitVec 512

/-- The fused 256-bit wrapping key (R146). -/
opaque wrapKey : BitVec 256

/-- The factory bytes 0x00–0x3B of the sealed page that the manual does not fix: serial number, day, factory data (Table 10.4). -/
opaque factoryByte : Nat → Byte

/-- The vendor root key K_root in the fuses (R79). -/
opaque kRoot : BitVec 256

/-- The entries of the Command Effects Log (Table 8.9, R242); the manual gives the log no content. -/
opaque commandEffects : Nat → BitVec 32

/-- The fuse words an engine leaves the factory with (R305, R308). -/
opaque fuseWord : Nat → Word

end Sys2Proof.Config
end

