-- ==== Sys2Proof/Machine/State.lean ====
section
/-! DEFINITION. Everything the manual gives the block: registers, FIFOs, buffers, counters, modes, pins, the two
cartridges with their supervisors, and the queue of waiting commands. Plain data throughout; the defaults are the reset values. -/

namespace Sys2Proof.Machine

/-! ### Small enumerations -/

/-- The power states of Table 12.1, in the order of their codes (R312). -/
inductive Power where
  | off | hibernate | standby | boot | replay | active | quiet | fieldHold | test | rest
  deriving DecidableEq, Repr

/-- The write tempos of Table 4.2 (R106). -/
inductive Tempo where
  | presto | moderato | lento
  deriving DecidableEq, Repr

/-- A tenant's lock states (R137). -/
inductive Lock where
  | opened | writeLock | sealed
  deriving DecidableEq, Repr

/-- The duet states of Table 3.7, in the order of their codes. -/
inductive Duet where
  | none | soloA | soloB | span | spanDegraded | mirror | mirrorDegraded | mirrorResync | migrateCopy | migrateCut
  deriving DecidableEq, Repr

/-- The slot states of CT_STATUS.STATE (Table 3.10). -/
inductive SlotState where
  | empty | debounce | powering | auth | training | spare | inService | releasing | safeToRemove | authFailed | failed
  deriving DecidableEq, Repr

/-- The media-link states of Table 3.2. -/
inductive LinkState where
  | down | train | active | idle | retrain
  deriving DecidableEq, Repr

/-- The DMA channel states of Table 7.7. -/
inductive ChState where
  | idle | fetch | wait | active | barrier | coda | holding | paused | aborting | starved | halted
  deriving DecidableEq, Repr

/-- The countersign states (R150). -/
inductive CsState where
  | idle | opened | committing
  deriving DecidableEq, Repr

/-- The request classes of Table 2.3 (R54). -/
inductive TagClass where
  | hrd | hwr | wbk | dma | duet | ledg | int
  deriving DecidableEq, Repr

/-! ### GL: tags, ingress and the request pipeline (02) -/

/-- What a pool released in its latest cycle of releases: it can be taken again from the next cycle (R51). -/
structure Freed where
  cycle : Nat := 0
  count : Nat := 0
  deriving DecidableEq, Repr

/-- A requester that an arbiter passed over (R60): the grants made to others, and the cycle it became aged in. -/
structure Waiter where
  who  : Nat
  age  : Nat
  aged : Option Nat
  deriving DecidableEq, Repr

/-- One arbiter of Table 2.5: the cycle of its last grant, whom it went to and for how many grants in a row, the ages, and the
requesters it granted whose command is still to come (log 121). -/
structure Arb where
  granted : Option Nat := none
  last    : Nat := 0
  run     : Nat := 0
  waits   : List Waiter := []
  due     : List Nat := []
  deriving DecidableEq, Repr

/-- One tag in use (R53): its number, class, whether it came from the shared part, and the context it counts against (R55). -/
structure Tag where
  id     : Nat
  cls    : TagClass
  shared : Bool
  ctx    : Ctx
  deriving DecidableEq, Repr

/-- One line of a write request: the partition line, the bytes written and their data (R119). -/
structure LinePart where
  off  : Nat
  data : Line
  mask : Mask
  deriving DecidableEq, Repr

/-- Where a request stands: in staging, in its tenant's share, or holding a tag (R61, R53). -/
inductive Stage where
  | staging | share | tagged
  deriving DecidableEq, Repr

/-- What a host request asks for: media, a read of registers or the descriptor SRAM in a BAR, or a read that is answered
as an Unsupported Request. The last two wait only for the function's earlier writes (R21). -/
inductive ReqKind where
  | media
  | reg (bar : Bar)
  | unsup
  deriving DecidableEq, Repr

/-- What the header of a host memory request tells (R234): the function and BAR it meets, the offset there, its length in bytes, and
whether it writes, is poisoned and has the Relaxed Ordering attribute. -/
structure Tlp where
  fn     : Fn
  bar    : Bar
  off    : Nat
  len    : Nat
  write  : Bool
  poison : Bool
  ro     : Bool
  deriving DecidableEq, Repr

/-- A host request that is registered and not retired. -/
structure Req where
  id     : Nat
  kind   : ReqKind
  tlp    : Tlp
  fn     : Fn
  ctx    : Ctx
  write  : Bool
  /-- Aperture byte offset and length (R135), or those in the BAR. -/
  off    : Nat
  len    : Nat
  /-- BASE at the registration, as a media line (R138). -/
  base   : Nat
  /-- The lines of a write not yet admitted, in address order. -/
  parts  : List LinePart
  poison : Bool
  /-- The Relaxed Ordering attribute (Table 2.4). -/
  ro     : Bool
  /-- Fences of its context registered before it (R58). -/
  fence  : Nat
  cycle  : Nat
  /-- The mode in effect at the registration (R18). -/
  verified : Bool
  /-- TN_RATE.UNLIMITED and TN_WEAR_QUOTA at the registration (R138). -/
  unlimited : Bool
  quota  : Word
  stage  : Stage
  tag    : Option Nat
  /-- Lines admitted in verified mode and not verified yet (R19, R53). -/
  unverified : Nat
  sense  : List Sense
  deriving DecidableEq, Repr

/-- GL_STALL (Table 2.18). -/
structure Stall where
  wrongState  : Bool := false
  hol         : Bool := false
  fieldPersist : Bool := false
  selfTarget  : Bool := false
  hostService : Bool := false
  hostCredit  : Bool := false
  deriving DecidableEq, Repr

/-- The GL block (02, 00). -/
structure Gl where
  refOk    : Bool := true
  lock     : Bool := true
  holdover : Bool := false
  /-- HLSEL as sampled in cycle 0 (R217). -/
  strapCxl : Bool := false
  /-- The cycle BOOT ended in: GL_CYCLE counts from it (Table 2.12). -/
  bootEnd  : Option Nat := none
  cycleHi  : Word := 0
  tags     : List Tag := []
  /-- Tags returned, with the cycle of the return (R51). -/
  relTags  : List (Nat × Tag) := []
  tagPeak  : Nat := 0
  ageLimit : BitVec 8 := 0x20
  stall    : Stall := {}
  maxArb   : BitVec 8 := 0
  maxGrants : Nat := 0
  /-- The arbiters of Table 2.5 but for the DMA channel arbiter: tags, the 256 banks, egress, crypto lanes (R59, R60). -/
  arbTag   : Arb := {}
  arbBank  : Vector Arb 256 := Vector.replicate 256 {}
  arbEgress : Arb := {}
  arbCrypto : Arb := {}
  ingress  : List Req := []
  /-- Staging entries released: posted and non-posted (R51, R61). -/
  relPosted : Freed := {}
  relNonPosted : Freed := {}
  nextReq  : Nat := 0
  /-- Fences registered per context (R58). -/
  fences   : Vector Nat 129 := Vector.replicate 129 0
  /-- Cycle of the last request on each of the 256 banks, for QUIET's gating (R318). -/
  bankLast : Vector Nat 256 := Vector.replicate 256 0
  /-- The cycle in which a staging kind filled with blocked requests, and whether HOL_STALL is logged for it (R62). -/
  holPosted : Option (Nat × Bool) := none
  holNonPosted : Option (Nat × Bool) := none
  deriving DecidableEq, Repr

/-! ### PC: the hold buffer (01) -/

/-- A dirty hold slot (R24, R25, R107, R119). -/
structure HoldSlot where
  id     : Nat
  ctx    : Ctx
  /-- Partition line: the offset divided by 64. -/
  off    : Nat
  /-- Media (duet) line. -/
  media  : Nat
  data   : Line
  mask   : Mask
  tempo  : Tempo
  /-- Admitted at the verified durability point. -/
  verified : Bool
  poison : Bool
  /-- ASN of the latest write merged, and of the first one that waits for the verified point (R23). -/
  asn    : Nat
  verAsn : Nat
  /-- The latest write merged: the cycle of its registration, its rank of Table 2.2 (R52), and its bytes. -/
  stampAt   : Nat
  stampRank : Nat
  stampMask : Mask
  /-- The media write has been issued (R25). -/
  issued : Bool
  /-- Cartridges whose write has not passed verify yet, with the cartridge line (R98, cell n8 of Table 2.8). -/
  left   : List (Slot × Nat)
  /-- The cartridge the line was charged on at admission; a write to another one is a second write (R86, R98). -/
  first  : Slot
  /-- The host requests that wait for the verify. -/
  reqs   : List Nat
  /-- The DMA channels that wrote it. -/
  chans  : List (Fin 32)
  /-- Admitted while the energy pays for no step: it goes straight to media and takes no slot of the book (log 9). -/
  direct : Bool
  deriving DecidableEq, Repr

/-- A flush read that waits (R22, R23): the writes it covers. -/
structure Flush where
  id     : Nat
  scope  : FlushScope
  /-- A zero-length read of this function, which reports only FLUSH_LATE (R22). -/
  zero   : Option Fn
  /-- The access that reads PC_FLUSH: function, BAR, offset and length. -/
  read   : Option (Fn × Bar × Nat × Nat)
  /-- Where the read stands (R61), and the context whose share it takes. -/
  stage  : Stage
  ctx    : Ctx
  tag    : Option Nat
  /-- The number of the next request at the registration: earlier writes of the function are admitted first (R21). -/
  before : Nat
  cycle  : Nat
  /-- Covered host requests not retired at the registration. -/
  reqs   : List Nat
  /-- Covered hold slots whose durability point was not reached at the registration. -/
  slots  : List Nat
  /-- ASN of the latest admission at the registration. -/
  asn    : Nat
  /-- Tenants whose failure messages hold the completion (R349). -/
  waits  : List Nat
  /-- The least ASN of a covered line that was discarded before it was durable (log 131). -/
  lost   : Option Nat
  deriving DecidableEq, Repr

/-- The drain in progress (R31): the commit record still to come. -/
structure Drain where
  /-- Cycle 0 of Table 1.3. -/
  cycle   : Nat
  /-- The hold target (R32); none when no cartridge can receive it (R97). -/
  target  : Option Slot
  /-- 0 PFAIL_N, 1 PERST_N, 2 loss of lock, 3 thermal trip, 4 HIBERNATE entry, 5 scan. -/
  cause   : Nat
  /-- The drain met the engine in BOOT or REPLAY: it writes zero entries to the second header (Table 12.7). -/
  early   : Bool
  /-- The drain met BOOT before a hold target was in service: phases D0, D1 and K only. -/
  noTarget : Bool
  deriving DecidableEq, Repr

/-- The PC block (01). -/
structure Pc where
  wrongState    : Bool := false
  lastDrainOk   : Bool := true
  replayPending : Bool := false
  degraded      : Bool := false
  sized  : Nat := 0
  live   : Nat := 0
  limit  : Nat := 32
  slots  : List HoldSlot := []
  /-- Hold slots freed (R51). -/
  relSlots : Freed := {}
  nextSlot : Nat := 0
  /-- The measured values (R27); the energy arithmetic uses R316's until HOLDUP has reported. -/
  capUf   : Nat := 0
  esrMohm : Nat := 0
  charge10mv : BitVec 16 := 0
  live10mv   : BitVec 16 := 0
  measured : Bool := false
  /-- A measurement gave no step: posted mode is refused until the next start (R28). -/
  refused  : Bool := false
  availNj : Nat := 0
  /-- Energy reserved by a REMEASURE step (R293). -/
  stepNj  : Nat := 0
  asn    : Nat := 0
  flushes : List Flush := []
  nextFlush : Nat := 0
  dirtyCount : BitVec 16 := 0
  replayCount : Nat := 0
  replayLost  : Nat := 0
  lowwater : BitVec 18 := 0x4000
  writebackAll : Bool := false
  remeasure : Bool := false
  drain  : Option Drain := none
  /-- Next hold-area position REPLAY examines, and lines replayed per context (R37). -/
  replayIdx : Nat := 0
  replayed  : List (Nat × Nat) := []
  reconciled : Bool := false
  deriving DecidableEq, Repr

/-! ### Cartridges and supervisors (03, 04) -/

/-- A stored line (R113, R116). The data are held as plaintext with the key they were encrypted under, and the cells as the
bits that differ from the codeword of it (logs 7, 8). -/
structure StoredLine where
  data   : Line := 0
  /-- Context and key generation of the encryption, and its tweak (R145). -/
  keyCtx : Nat := 0
  keyGen : Nat := 0
  tweak  : Nat := 0
  poison : Bool := false
  /-- META.TEMPO: 00b none since format. -/
  tempo  : BitVec 2 := 0
  fresh  : Bool := true
  version : BitVec 4 := 1
  /-- The codeword bits that are wrong at rest (Table 4.5). -/
  err    : BitVec 640 := 0
  deriving DecidableEq, Repr

/-- A relocation entry (R110). -/
structure Reloc where
  bank    : Nat
  spare   : Nat
  pline   : Nat
  retired : Bool
  deriving DecidableEq, Repr

/-- The supervisor's last executed request and its saved response (R75). -/
structure SvDone where
  toggle  : Bool
  opc     : BitVec 7
  payload : List Byte
  response : List Byte
  deriving DecidableEq, Repr

/-- A cartridge's supervisor (03, "The supervisor"). -/
structure Sv where
  spent     : Nat := 0
  tempBins  : Vector Nat 16 := Vector.replicate 16 0
  fieldBins : Vector Nat 8 := Vector.replicate 8 0
  peakTemp  : Int := 0
  peakField : Nat := 0
  unpowered : Nat := 0
  /-- The last eight step records: time before and after (R87, R89). -/
  steps     : List (Nat × Nat) := []
  /-- The exposure clock in ms, and the slew left (R89). -/
  clockMs   : Nat := 0
  slewMs    : Int := 0
  /-- The time the open exposure interval began at, and the closed intervals: start, end, DRIFT flag (R89). -/
  openMs    : Nat := 0
  closed    : List (Nat × Nat × Bool) := []
  exposed   : Bool := false
  /-- Seconds in a row above 8 mT (R88). -/
  above8    : Nat := 0
  alerts    : BitVec 16 := 0
  lamp      : BitVec 2 := 0
  temps     : Vector (BitVec 8) 4 := Vector.replicate 4 0
  field     : BitVec 16 := 0
  vcart     : Bool := false
  done      : Option SvDone := none
  /-- The last frame was rejected with this code, which the next poll returns (R75). -/
  rejected  : Option (BitVec 8) := none
  deriving DecidableEq, Repr

/-- A hold-area header (Table 1.3, D3). -/
structure HoldHdr where
  boot   : Nat
  total  : Nat
  counts : List (Nat × Nat)
  commit : Bool
  deriving DecidableEq, Repr

/-- A hold-area entry (Table 1.3, D4); `damaged` says that its CRC-32 does not pass (R37). -/
structure HoldEntry where
  index  : Nat
  boot   : Nat
  ctx    : Ctx
  off    : Nat
  media  : Nat
  tempo  : Tempo
  mask   : Mask
  data   : Line
  keyGen : Nat
  poison : Bool
  asn    : Nat
  damaged : Bool
  deriving DecidableEq, Repr

/-- The ten counters of Table 6.1, each of its width (R162). -/
structure Counters where
  read    : BitVec 40 := 0
  wPresto : BitVec 40 := 0
  wMod    : BitVec 40 := 0
  wLento  : BitVec 40 := 0
  wear    : BitVec 40 := 0
  occ     : BitVec 32 := 0
  ops     : BitVec 40 := 0
  errCorr : BitVec 40 := 0
  errHard : BitVec 32 := 0
  errRefused : BitVec 40 := 0
  deriving DecidableEq, Repr

/-- Ten cumulative totals in the order of Table 6.6, 8 bytes each (R176). -/
abbrev Sums := Vector (BitVec 64) 10

/-- The counter sets and LGT of a retention copy or of the hold area's ledger section (R177), with the open minute's flags and the
merge it belongs to (log 123). -/
structure Held where
  counters : List Counters
  totals   : Counters
  minute   : Nat
  epoch    : Nat
  flags    : BitVec 8
  /-- The first minute of a running merge (R170). -/
  mergeFirst : Option Nat
  /-- Ledger time at D0 (Table 6.5, A). -/
  lgt      : Nat
  /-- Records of a frame that waited in the seal buffer, and its minute. -/
  frame    : List Line
  frameMinute : Nat
  /-- 1 = D1 copy, 2 = D5 copy (Table 6.8). -/
  stage    : Nat
  /-- Trace entries lost and the drain's LGT for LP_EXIT (R334). -/
  traceLost : Nat
  deriving DecidableEq, Repr

/-- The hold area of a cartridge (Table 3.3). -/
structure HoldArea where
  header0 : Option HoldHdr := none
  header1 : Option HoldHdr := none
  entries : List HoldEntry := []
  ledger  : Option Held := none
  deriving DecidableEq, Repr

/-- A quarantine entry (R112): ciphertext under the context's key. -/
structure Quarantine where
  ctx    : Ctx
  cline  : Nat
  line   : StoredLine
  deriving DecidableEq, Repr

/-- A cartridge with its header, media and supervisor (03, 04). -/
structure Cart where
  serial  : BitVec 64
  /-- true = OM-64, false = OM-32. -/
  big     : Bool
  proto   : BitVec 8 := 1
  made    : Word := 0
  /-- The identity record's CRC-32 is good (R78). -/
  identOk : Bool := true
  sv      : Sv := {}
  /-- A valid header, the engine its tag names and the tag's generation (R81). -/
  header  : Bool := false
  tagEngine : BitVec 64 := 0
  tagGen  : Nat := 0
  relocs  : List Reloc := []
  /-- START and GAP of the banks that differ from format (R121). -/
  levels  : List (Nat × Nat × Nat) := []
  /-- Repair rows used per bank (R307). -/
  repairRows : List (Nat × Nat) := []
  arrayPos : BitVec 11 := 0
  /-- Banks with an ARRAY save record (R301). -/
  saved   : List Nat := []
  /-- Media lines that differ from a line as made, by cartridge line address. -/
  lines   : List (Nat × StoredLine) := []
  hold    : HoldArea := {}
  quarantine : List Quarantine := []
  /-- Places of the quarantine area that failed writes have poisoned (R112). -/
  lostQuar : Nat := 0
  ring    : List (Nat × Line) := []
  trace   : List (Nat × Line) := []
  /-- Marked 64 KiB regions of the resync map. -/
  resync  : List Nat := []
  deriving DecidableEq, Repr

/-- A supervisor request the engine has sent and that is not answered (R76). -/
structure SvOut where
  opc     : BitVec 7
  payload : List Byte
  toggle  : Bool
  repeats : Nat
  cycle   : Nat
  /-- What the cartridge's key or sensors make of the request (AUTH, FIELD_TEST). -/
  extra   : List Byte
  /-- A pass-through of software's (R77). -/
  soft    : Bool
  deriving DecidableEq, Repr

/-- One slot of the CT block (03). -/
structure CtSlot where
  state   : SlotState := .empty
  cart    : Option Cart := none
  present : Bool := false
  typeCode : BitVec 4 := 0
  lbFail  : Bool := false
  alertPending : Bool := false
  wrongState : Bool := false
  foreign : Bool := false
  bound   : Bool := false
  linkDegraded : Bool := false
  exposed : Bool := false
  svFault : Bool := false
  wearOut : Bool := false
  eolWarn : Bool := false
  selLevel : Bool := true
  indicator : BitVec 2 := 0
  svSoft  : Bool := false
  softSince : Nat := 0
  serial  : BitVec 64 := 0
  userGib : BitVec 16 := 0
  proto   : BitVec 8 := 0
  idType  : BitVec 8 := 0
  replays : Nat := 0
  retrains : Nat := 0
  flitFails : Nat := 0
  failedRetrains : List Nat := []
  link    : LinkState := .down
  width   : BitVec 4 := 0
  linkUse : Nat := 0
  svSpent : Nat := 0
  spentHi : Word := 0
  budget  : Nat := 0
  uncharged : Nat := 0
  intransit : Nat := 0
  envField : BitVec 16 := 0
  envHot  : BitVec 8 := 0
  /-- CT_SV_DATA's FIFO: the request payload, then the response payload (Table 3.16). -/
  svFifo  : List Byte := []
  svBusy  : Bool := false
  svLen   : BitVec 8 := 0
  svRes   : BitVec 8 := 0
  passthrough : Option (BitVec 7 × List Byte) := none
  toggle  : Bool := false
  outstanding : Option SvOut := none
  /-- Supervisor commands the sequencer owes the cartridge, by OPC, and the cycle of the last CLOCK_SYNC (R83, R89, R91). -/
  svDue   : List (BitVec 7) := []
  lastSync : Nat := 0
  nonce   : BitVec 128 := 0
  authTries : Nat := 0
  authStart : Nat := 0
  fallAt  : Nat := 0
  svReady : Bool := false
  identified : Bool := false
  pwren   : Bool := false
  /-- The insertion or BOOT tests of the slot have passed (R295, R296). -/
  tested  : Bool := false
  /-- FLDINH_N is low. -/
  fldLow  : Bool := false
  /-- The slot was FAILED while empty as the present cartridge came in (R93). -/
  wasFailed : Bool := false
  /-- The next user line of an exposed cartridge's background read, while it runs (R88). -/
  expoLine : Option Nat := none
  /-- FAILED by a self-test, and still in service as the holder of current data (R302). -/
  kept    : Bool := false
  /-- Insertion or BOOT tests of the slot not passed yet, by test index (R295, R296, R93). -/
  insTests : List Nat := []
  /-- The cycle in which PWREN of a re-inserted FAILED slot is asserted again (R93). -/
  powerAt : Option Nat := none
  deriving DecidableEq, Repr

/-- The two slots. -/
structure Ct where
  a : CtSlot := {}
  b : CtSlot := {}
  deriving DecidableEq, Repr

/-- What a format leads to when its last write passes verify (R388). -/
inductive AfterFormat where
  | solo (slot : Slot)
  | span
  | copy (dst : Slot) (mirror : Bool)
  deriving DecidableEq, Repr

/-- One extent of a copy (R99): source and destination byte addresses on the cartridges and the length. -/
structure Extent where
  number : Nat
  base   : Nat
  length : Nat
  deriving DecidableEq, Repr

/-- The duet (03). -/
structure DuetUnit where
  state   : Duet := .none
  missing : Bool := false
  noAbort : Bool := false
  cutPending : Bool := false
  source  : Slot := .a
  wrongState : Bool := false
  manualCut : Bool := false
  migCh   : BitVec 4 := 0xF
  period  : BitVec 16 := 0x200
  /-- The cycle of the pacer's last request (R100). -/
  pacerAt : Nat := 0
  ptr     : Nat := 0
  total   : Nat := 0
  cutGiven : Bool := false
  /-- Extents whose coda is not issued yet, and extents handed to the copy ring (R99, R213). -/
  plan    : List Extent := []
  handed  : Nat := 0
  format  : Option AfterFormat := none
  /-- A bound cartridge was found in the other slot at BOOT: the record is still to be rewritten (chapter 03, Corners). -/
  moved   : Bool := false
  /-- The binding record (R80): generation, the serial and service flag of each slot, hold target. -/
  gen     : Nat := 0
  serialA : BitVec 64 := 0
  serialB : BitVec 64 := 0
  inA     : Bool := false
  inB     : Bool := false
  holdB   : Bool := false
  /-- User capacity in MiB of the member of each slot as identified in this start (R136). -/
  mibA    : Nat := 0
  mibB    : Nat := 0
  /-- The ring copy of R179 to the member in a slot runs. -/
  ringCopy : Option Slot := none
  /-- A change of the binding record that waits for a cartridge it names, with the duet state it records (log 132). -/
  bindDue : Option Duet := none
  /-- CT_DUET_CTRL's SLOT and TARGET as last accepted (Table 3.18). -/
  target  : BitVec 5 := 0
  deriving DecidableEq, Repr

/-! ### MD: media (04) -/

/-- What a line-write is for (R112: the outcome of a failure depends on it). -/
inductive WriteKind where
  | hold (id : Nat)
  /-- A copy beat of a channel, with the source's line. -/
  | copy (n : Fin 32) (src : Nat)
  deriving DecidableEq, Repr

/-- A line-write in progress on a bank (R105, R109). -/
structure LineWrite where
  slot   : Slot
  cline  : Nat
  kind   : WriteKind
  tempo  : Tempo
  line   : StoredLine
  /-- Pulses issued. -/
  used   : Nat
  /-- A pulse is issued and its sense has not returned. -/
  fired  : Bool
  /-- On the re-verify list (R128). -/
  held   : Bool
  /-- Poison was merged in (R120). -/
  poisonMerge : Bool
  /-- A mirror second write: its price is in transit until the verify (R86). -/
  second : Bool
  tag    : Option Nat
  deriving DecidableEq, Repr

/-- A queued rewrite (R117). -/
structure Rewrite where
  slot   : Slot
  cline  : Nat
  poison : Bool
  ctx    : Nat
  deriving DecidableEq, Repr

/-- The MD block (04). -/
structure Md where
  wrongState : Bool := false
  scrubPause : Bool := false
  scrubActive : Bool := false
  wlPeriod : Nat := 256
  rewrite  : Nat := 2
  passes   : BitVec 16 := 0
  /-- Scrub position: the next line of the running pass, per slot. -/
  scrubA   : Nat := 0
  scrubB   : Nat := 0
  progress : BitVec 16 := 0
  errCorr  : Nat := 0
  errUncorr : Nat := 0
  t2 : Nat := 0
  t34 : Nat := 0
  t58 : Nat := 0
  tFailed : Nat := 0
  relocFailsA : Nat := 0
  relocFailsB : Nat := 0
  errAddr  : Word := 0
  errValid : Bool := false
  errCode  : BitVec 8 := 0
  errCtx   : BitVec 8 := 0
  errWeight : BitVec 4 := 0
  longestA : Nat := 0
  longestB : Nat := 0
  inhibitsA : Nat := 0
  inhibitsB : Nat := 0
  /-- Cycle in which the slot's inhibit was registered (R127). -/
  inhA : Option Nat := none
  inhB : Option Nat := none
  /-- The inhibit comes from MAG's coils (R294). -/
  coil : Option Slot := none
  lastField : Nat := 0
  injAddr  : Word := 0
  injStored : Bool := false
  injCount : BitVec 4 := 0
  injArmed : Bool := false
  writes   : List LineWrite := []
  rewrites : List Rewrite := []
  /-- Line-writes since the bank's last gap move (R122), slot A's banks then slot B's. -/
  gapCount : Vector Nat 256 := Vector.replicate 256 0
  deriving DecidableEq, Repr

/-! ### TN and CS (05) -/

/-- A log entry (Table 13.1); `alert` records whether its route had ALERT set when it was written (R351). -/
structure EvEntry where
  seq   : Nat
  code  : BitVec 8
  ctx   : BitVec 8
  unit  : BitVec 5
  bootq : Bool
  flags : BitVec 4
  cycle : Nat
  epoch : BitVec 16
  minute : Word
  d0    : Word
  d1    : Word
  d2    : Word
  alert : Bool
  deriving DecidableEq, Repr

/-- The countersigned values of a context that judge its requests (R138). -/
structure Terms where
  enable  : Bool
  lock    : Lock
  base    : BitVec 20
  size    : BitVec 20
  unlimited : Bool
  rate    : BitVec 16
  quota   : Word
  deriving DecidableEq, Repr

/-- One context (Table 5.1, R134). -/
structure Tenant where
  enable  : Bool := false
  lock    : Lock := .opened
  base    : BitVec 20 := 0
  size    : BitVec 20 := 0
  persist : Bool := true
  tempo   : Tempo := .moderato
  /-- The cycle of the latest TN_MODE write, and the mode and tempo in effect up to it (R18, R107). -/
  modeSet : Option Nat := none
  wasPersist : Bool := true
  wasTempo : Tempo := .moderato
  unlimited : Bool := true
  /-- The cycle of the last acceptance that changed the context, and its values up to that cycle (R138). -/
  was     : Option (Nat × Terms) := none
  rate    : BitVec 16 := 0
  cap     : BitVec 16 := 4096
  /-- The bucket in sixteenths of a line, and the token book of Table 1.5. -/
  tokens  : Nat := 0
  refilled : Nat := 0
  spent   : Nat := 0
  discarded : Nat := 0
  /-- Tokens added in their cycle, and those of them cut off at the cap (R51, R140); share entries freed (R51). -/
  fresh   : Freed := {}
  cut     : Freed := {}
  relShare : Freed := {}
  share   : BitVec 9 := 8
  shareEff : Nat := 8
  quota   : Word := 0xFFFFFFFF
  used    : Nat := 0
  quotaHit : Bool := false
  keyValid : Bool := false
  gen     : BitVec 16 := 0
  /-- KEY_NO of the key in use, the change that drew it (Table 10.7): with the context it names the key (log 7). -/
  keyNo   : Nat := 0
  /-- APPLIED_NO of the context's image (Table 10.7). -/
  applied : Nat := 0
  wrongState : Bool := false
  lastAsn : Nat := 0
  /-- ASN of the latest admission as the lock in effect left OPEN (R137). -/
  lockAsn : Nat := 0
  /-- Cycle of the first TN_MODE write not yet persisted (R283). -/
  modeAt  : Option Nat := none
  /-- Enabled in some cycle of the open minute (R163). -/
  metered : Bool := false
  queue   : List EvEntry := []
  qLost   : Nat := 0
  qLatch  : Option EvEntry := none
  /-- A PWF or POISON_MERGE of the context is logged or waits, and its message is not issued yet (R349). -/
  failMsg : Bool := false
  deriving DecidableEq, Repr

/-- The TN block (05). -/
structure Tn where
  ctx : Vector Tenant 129 :=
    (Vector.replicate 129 {}).set 128 { enable := true, share := 64, shareEff := 64 }
  indexHost : BitVec 8 := 0
  indexMgmt : BitVec 8 := 0
  /-- The cycle of the last refill (R140). -/
  refillAt : Option Nat := none
  deriving DecidableEq, Repr

/-- An entry of a change (R151). -/
structure CsEntry where
  addr  : Word
  mask  : Word
  value : Word
  deriving DecidableEq, Repr

/-- The CS block (05). -/
structure Cs where
  state    : CsState := .idle
  /-- true = the management controller proposed. -/
  mgmt     : Bool := false
  badTries : Nat := 0
  /-- The cycle by which the digest is recomputed, while DIGEST_BUSY (R152). -/
  busyTill : Option Nat := none
  wrongState : Bool := false
  lastResult : BitVec 8 := 0
  hostSet  : Bool := false
  mgmtSet  : Bool := false
  /-- A commit of the party is not finished (R149). -/
  hostPend : Bool := false
  mgmtPend : Bool := false
  chgNo    : Word := 4096
  digest   : Word := 0
  entries  : List CsEntry := []
  count    : Nat := 0
  openAt   : Nat := 0
  opened   : Bool := false
  window   : BitVec 9 := 30
  chgWindow : BitVec 9 := 30
  tagLo    : Word := 0
  lastNo   : Word := 0
  secretHost : Vector Word 8 := Vector.replicate 8 0
  secretMgmt : Vector Word 8 := Vector.replicate 8 0
  kHost    : BitVec 256 := 0
  kMgmt    : BitVec 256 := 0
  /-- Contexts that the change in COMMITTING gives a first key (R146). -/
  newKeys  : List Nat := []
  deriving DecidableEq, Repr

/-! ### LG: the ledger (06) -/

/-- A frame or a marker on its way to the ledger ring (R163, R167, R171). Its records are held without SEQ and CHECK,
which they take as they are written. -/
structure LgUnit where
  marker : Bool
  minute : Nat
  /-- The records of the unit, and those not written yet. -/
  whole  : List Line
  left   : List Line
  /-- The engine totals a frame carries. -/
  sum    : Counters
  deriving DecidableEq, Repr

/-- A ring record issued to a write-inhibited cartridge: it is written after the clear (R128, R168). -/
structure LateRing where
  slot : Slot
  seq  : Nat
  line : Line
  tag  : Nat
  deriving DecidableEq, Repr

/-- A minute that the cycle `tick` closes: its bank is frozen at the end of that cycle (Table 6.4). -/
structure Closing where
  tick  : Nat
  /-- A frame waits, or the ring has no room: no frame is formed, and the counters go on (R170). -/
  merge : Bool
  /-- MINUTE of the frame, and flags it carries beside those of the minute. -/
  label : Nat
  extra : BitVec 8
  /-- The minute that opens, and the flags it opens with. -/
  next  : Nat
  flags : BitVec 8
  /-- Markers that follow the frame (R174, R175). -/
  trail : List LgUnit
  /-- LGT from the next cycle on, after a step (R174). -/
  step  : Option Nat
  deriving DecidableEq, Repr

/-- A frozen counter bank, of which the running seal forms a frame (R166). -/
structure Frozen where
  minute : Nat
  flags  : Nat
  epoch  : Nat
  /-- The metered contexts (R163). -/
  ctx    : List Ctx
  bank   : Vector Counters 129
  totals : Counters
  trail  : List LgUnit
  deriving DecidableEq, Repr

/-- The LG block (06). -/
structure Lg where
  /-- Ledger time in units of 2^-32 metronome ticks (R160). -/
  lgt      : Nat := 0
  /-- DISC in ppb, signed (R161). -/
  disc     : Int := 0
  /-- Offset left to slew, in units of 2^-32 ticks (R173). -/
  slew     : Int := 0
  discHold : Bool := true
  /-- METRONOME_RANGE has been logged for the present run of discarded intervals (R161). -/
  rangeRun : Bool := false
  unsynced : Bool := true
  wrongState : Bool := false
  rangeErr : Bool := false
  syncLo   : Word := 0
  offset   : Int := 0
  syncAge  : BitVec 24 := 0xFFFFFF
  action   : BitVec 2 := 0
  live     : Vector Counters 129 := Vector.replicate 129 {}
  totals   : Counters := {}
  minute   : Nat := 0
  epoch    : Nat := 0
  flags    : BitVec 8 := 0
  /-- The minute that the present cycle closes. -/
  closing  : Option Closing := none
  /-- The cycle in which SEALING clears (R166). -/
  sealEnd  : Option Nat := none
  /-- The frozen bank of the running seal; its frame enters the seal buffer when SEALING clears. -/
  frozen   : Option Frozen := none
  /-- The seal buffer's frame and the markers around it, in ring order (R170, R171). -/
  outq     : List LgUnit := []
  /-- Records issued to a write-inhibited cartridge, oldest first. -/
  late     : List LateRing := []
  /-- The last ledger second whose boundary has been registered. -/
  secSeen  : Nat := 0
  merging  : Bool := false
  mergeFirst : Word := 0
  writeSeq : Word := 0
  sealedSeq : Word := 0
  sealedMinute : Word := 0
  consumed : Word := 0
  ringHigh : Bool := false
  /-- Records sealed since the last MINUTE requests (R167: a marker's requests are made with the next frame's). -/
  owed     : Nat := 0
  cumul    : Sums := Vector.replicate 10 0
  /-- The cumulative totals as of the last sealed frame, which the totals payload carries (R176, B4). -/
  sealedCumul : Sums := Vector.replicate 10 0
  latched  : Sums := Vector.replicate 10 0
  latchBusy : Bool := false
  timeHi   : Word := 0
  ctxHi    : Word := 0
  sameMinute : Bool := false
  source   : BitVec 3 := 0
  /-- The retention latches of the island (R177). -/
  retention : Option Held := none
  /-- The island lost power since the latches were written (R178). -/
  islandLost : Bool := true
  lostNoTarget : Nat := 0
  deriving DecidableEq, Repr

/-! ### DM: DMA (07) -/

/-- A fetched descriptor (Tables 7.3, 7.4). -/
structure Desc where
  g5      : Bool
  barrier : Bool
  irq     : Bool
  last    : Bool
  srcSpace : Nat
  dstSpace : Nat
  ctx     : Nat
  length  : Nat
  src     : Nat
  dst     : Nat
  next    : BitVec 64
  ctrl    : Word
  cookie  : Word
  deriving DecidableEq, Repr

/-- A beat in a channel's buffer (R192). -/
structure Beat where
  tag  : Option Nat
  src  : Nat
  dst  : Nat
  len  : Nat
  /-- The beat's bytes from byte 0 on; none until a host read completes. -/
  data : Option Line
  poison : Bool
  /-- The stored line of a cartridge copy, and whether its source was uncorrectable (R101). -/
  cell : Option StoredLine
  bad  : Bool
  /-- The cycle it took its tag in, and what its write is judged by from then on: the fences of its context, the media line, the
  mode, the wear quota (R20, R52, R58, R138). -/
  cycle : Nat
  fence : Nat
  line  : Nat
  verified : Bool
  quota : Word
  /-- Its outstanding read is discarded when it completes (R205, R207). -/
  dropped : Bool
  /-- The last beat of its burst (R210). -/
  burstEnd : Bool
  deriving DecidableEq, Repr

/-- One DMA channel (Tables 7.12–7.14). -/
structure DmaCh where
  format  : Bool := true
  persist : Bool := true
  codaEn  : Bool := true
  g5Barrier : Bool := false
  irq     : BitVec 2 := 0
  prio    : BitVec 2 := 0
  paced   : Bool := false
  group   : BitVec 3 := 0
  reqSel  : BitVec 4 := 0
  burst   : BitVec 5 := 0x10
  head    : BitVec 64 := 0
  cur     : BitVec 64 := 0
  src     : BitVec 64 := 0
  dst     : BitVec 64 := 0
  remain  : Nat := 0
  pending : Nat := 0
  doneCount : Word := 0
  g5Hi    : Word := 0
  bytes   : Nat := 0
  /-- The high halves that reads of DM_CH_CUR_LO and DM_CH_BYTES_LO latched. -/
  curHi   : Word := 0
  bytesHi : Word := 0
  state   : ChState := .idle
  code    : BitVec 8 := 0
  wrongState : Bool := false
  desc    : Option Desc := none
  beats   : List Beat := []
  /-- Beat buffers released (R51). -/
  relBeats : Freed := {}
  /-- Bytes of the descriptor whose reads have been issued, and written. -/
  issued  : Nat := 0
  written : Nat := 0
  burstOpen : Bool := false
  burstLeft : Nat := 0
  /-- Grants made to others while eligible, of a higher level and of its own level (R60, R200). -/
  liftCount : Nat := 0
  age     : Nat := 0
  /-- Cycles in which the channel became lifted, and aged. -/
  liftedAt : Option Nat := none
  agedAt  : Option Nat := none
  /-- Codes seen for the coda (R188, R202). -/
  poison  : Bool := false
  sawPwf  : Bool := false
  sawMerge : Bool := false
  endCode : Option (BitVec 8) := none
  groupStop : Bool := false
  fermataLate : Bool := false
  abortLate : Bool := false
  /-- The cycles of the latest fermata and abort (R208, R50). -/
  fermataAt : Option Nat := none
  abortAt : Option Nat := none
  durable : Bool := false
  /-- Pause, or halt, after the coda of the present descriptor (R205, R206). -/
  pauseNext : Bool := false
  haltNext : Bool := false
  idleNext : Bool := false
  /-- Running an engine-built copy chain (R213). -/
  copy    : Bool := false
  deriving DecidableEq, Repr

/-- The DM block (07). -/
structure Dm where
  groupStop : BitVec 4 := 0
  wrongState : Bool := false
  lift     : BitVec 16 := 0x400
  reqGpio  : Word := 0
  migCount : Nat := 0
  migNext  : Nat := 0
  ch       : Vector DmaCh 32 := Vector.replicate 32 {}
  /-- The channel arbiter: the channel it granted last in each level, and the cycle of its latest grant (R59, R198). -/
  rr       : Vector Nat 4 := Vector.replicate 4 0
  granted  : Option Nat := none
  sram     : List Host.Cell := []
  deriving DecidableEq, Repr

/-! ### HL: the host link (08) -/

/-- One MSI-X vector (R229, R348): its table entry, masked at reset as PCI Express gives (PRESUMED, log 10), and its state. -/
structure Vec where
  addr    : BitVec 64 := 0
  data    : Word := 0
  masked  : Bool := true
  pending : Bool := false
  /-- A cause has arisen and no message has been issued for it. -/
  cause   : Bool := false
  last    : Option Nat := none
  pendSince : Nat := 0
  reported : Bool := false
  deriving DecidableEq, Repr

/-- AER errors signalled by a function (Table 8.6). -/
structure Aer where
  unsupported : Bool := false
  poisoned    : Bool := false
  timeout     : Bool := false
  unexpected  : Bool := false
  corrInternal : Bool := false
  uncorrInternal : Bool := false
  /-- The request whose header the function has logged, and that another found the log full (R234, Table 8.6). -/
  log : Option Tlp := none
  logOver : Bool := false
  deriving DecidableEq, Repr

/-- A General Media Event record (R234, Table 8.9). -/
structure MediaEvent where
  dpa  : Nat
  code : BitVec 8
  deriving DecidableEq, Repr

/-- The HL block (08). -/
structure Hl where
  wrongState : Bool := false
  memActive : Bool := false
  cxlMode  : Bool := false
  dlUp     : Bool := false
  width    : BitVec 4 := 0
  speed    : BitVec 4 := 0
  persNext : BitVec 2 := 0
  effCxl   : Bool := false
  slotLog2 : BitVec 6 := 35
  slotLog2Eff : BitVec 6 := 35
  refValid : Bool := false
  refWrite : Bool := false
  refCode  : BitVec 8 := 0
  refCtx   : BitVec 8 := 0
  refFn    : BitVec 8 := 0
  refOff   : BitVec 64 := 0
  refCount : Nat := 0
  hotCount : Nat := 0
  pfFlrCount : Nat := 0
  vfFlrCount : Nat := 0
  gpf      : Nat := 0
  /-- The committed HDM decoders (R225). -/
  hdm      : Vector (Option HdmRange) 2 := Vector.replicate 2 none
  vfEnable : Bool := false
  numVfs   : Nat := 0
  ari      : Bool := false
  /-- The PF is in D3hot: its memory space is disabled (R240). -/
  d3hot    : Bool := false
  /-- The BARs' bases: PF BAR0, BAR2, BAR4, VF BAR0, VF BAR2; 0 before the host assigns them (R222, R224). -/
  bars     : Vector (BitVec 64) 5 := Vector.replicate 5 0
  /-- The PF's Device Control settings (R239). -/
  mps      : Nat := 128
  mrrs     : Nat := 512
  relaxed  : Bool := true
  timeoutCode : BitVec 4 := 0
  /-- The SR-IOV System Page Size in bytes (R224, R228). -/
  sysPage  : Nat := 4096
  msixPf   : Bool := false
  /-- The PF's function mask, and the VFs'. -/
  maskPf   : Bool := false
  maskVf   : Vector Bool 128 := Vector.replicate 128 false
  msixVf   : Vector Bool 128 := Vector.replicate 128 false
  pfVec    : Vector Vec 192 := Vector.replicate 192 {}
  vfVec    : Vector Vec 128 := Vector.replicate 128 {}
  pfAer    : Aer := {}
  vfAer    : Vector Aer 128 := Vector.replicate 128 {}
  mbox     : Vector (List MediaEvent) 4 := Vector.replicate 4 []
  mboxOver : Vector Bool 4 := Vector.replicate 4 false
  shutdown : Byte := 0
  /-- The cycle since which the host returns no credits of a kind: posted, non-posted, completion; and whether it is logged
  (Table 2.9, row 1). -/
  noCredit : Vector (Option (Nat × Bool)) 3 := Vector.replicate 3 none
  deriving DecidableEq, Repr

/-! ### SP: the serial ports (09) -/

/-- The replay copy of R257. -/
structure SpCopy where
  toggle : Bool
  sdi    : List Bool
  sdo    : List Bool
  deriving DecidableEq, Repr

/-- A master transaction in progress (R261). -/
structure SpTx where
  len     : Nat
  autoSel : Bool
  pin     : BitVec 5
  holdSel : Bool
  noRx    : Bool
  /-- The cycle of its start, or of the last byte it moved. -/
  start   : Nat
  deriving DecidableEq, Repr

/-- One serial port (09). -/
structure Sp where
  lastResult : BitVec 8 := 0
  wrongState : Bool := false
  overrun  : Bool := false
  underrun : Bool := false
  crcSeen  : Bool := false
  rejectSeen : Bool := false
  inFrame  : Bool := false
  toggle   : Bool := false
  /-- Table 9.6. -/
  status   : BitVec 3 := 0
  selPin   : BitVec 5 := 0
  mcpol    : Bool := false
  bulk     : Bool := false
  crcEn    : Bool := false
  master   : Bool := false
  /-- A MODE change waits for the port to be free (R245). -/
  modeNext : Option Bool := none
  length   : BitVec 13 := 0x20
  page     : BitVec 10 := 0
  rx       : List Byte := []
  tx       : List Byte := []
  txThresh : BitVec 8 := 0x40
  rxThresh : BitVec 8 := 0x40
  doneIrq  : Bool := false
  div      : BitVec 16 := 0x10
  txn      : Option SpTx := none
  /-- The select a HOLD_SEL transaction left low. -/
  heldSel  : Option (BitVec 5) := none
  accepted : Nat := 0
  rejected : Nat := 0
  crcFail  : Nat := 0
  lastCmd  : Word := 0
  copy     : Option SpCopy := none
  deriving DecidableEq, Repr

/-! ### KS: the keep store (10) -/

/-- A change of the commit ring: its number, proposer, window and entries (Table 10.6). -/
structure Commit where
  no      : Nat
  mgmt    : Bool
  window  : Nat
  entries : List CsEntry
  deriving DecidableEq, Repr

/-- Who owns the page buffer (R268). -/
inductive BufOwner where
  | free | engine | host | sp0 | dma (n : Fin 32)
  deriving DecidableEq, Repr

/-- What a formed engine record is (Table 10.2); it decides its rank and what follows its BUSY. -/
inductive KsKind where
  | pendingKey (ctx : Nat)
  | acceptCommit
  | acceptErase (ctx : Nat)
  | binding
  | applyContext (ctx : Nat)
  | applySettings
  | applySealed (lock : Bool)
  | applyUser
  | totals
  | bootRing
  | settings
  | tnMode (ctx : Nat)
  | repair
  | secretHost
  | secretMgmt
  | fill
  deriving DecidableEq, Repr

/-- A formed page write: the page, and the masked bytes with their offsets (R268, R269). -/
structure PageWrite where
  kind  : KsKind
  page  : Nat
  bytes : List (Nat × Byte)
  /-- The change an acceptance or apply write belongs to; 0 for none. -/
  chg   : Word
  /-- The other half of the context page is zeroised after the new one (R282). -/
  wipe  : Bool
  deriving DecidableEq, Repr

/-- The KS block (10). -/
structure Ks where
  mem      : List Host.Cell := []
  owner    : BufOwner := .free
  page     : Nat := 0
  bytes    : List (Nat × Byte) := []
  /-- The fill in the buffer is formed (R268). -/
  formed   : Bool := false
  fillAt   : Nat := 0
  /-- A channel's fill: the codas it had issued, and the bytes of its descriptor written before (R201, R212). -/
  fillDone : Word := 0
  fillBase : Nat := 0
  queue    : List PageWrite := []
  busy     : Option PageWrite := none
  /-- The page's bytes before the write in progress, for a torn write (R289). -/
  before   : List Byte := []
  energyWait : Bool := false
  curPage  : BitVec 8 := 0
  lastResult : BitVec 8 := 0
  /-- The restore change whose apply is unfinished (R288). -/
  restoreApply : Option Word := none
  fused    : Bool := false
  wrongState : Bool := false
  expired  : Bool := false
  uncorrSeen : Bool := false
  corrSeen : Bool := false
  addrHost : BitVec 16 := 0xD000
  addrMgmt : BitVec 16 := 0xD000
  errCorr  : Nat := 0
  errUncorr : Nat := 0
  errValid : Bool := false
  errKind  : Bool := false
  errWord  : BitVec 14 := 0
  bootCount : Word := 0
  writes   : Nat := 0
  waits    : Nat := 0
  /-- Word addresses that decode as correctable, or as uncorrectable (R267). -/
  weak     : List Nat := []
  damaged  : List Nat := []
  /-- Next sequence number of each ring: settings, boot, binding, commit, totals, repair (R279). -/
  seqSettings : Nat := 1
  seqBoot  : Nat := 1
  seqBinding : Nat := 1
  seqCommit : Nat := 1
  seqTotals : Nat := 1
  seqRepair : Nat := 0
  /-- Uncharged wear of released or removed cartridges, oldest first (Table 10.6). -/
  wear     : List (BitVec 64 × Nat) := []
  /-- Changes whose apply is unfinished, oldest first (R286). -/
  applying : List Word := []
  /-- CXL shutdown state and APPLIED_NO of the settings ring (Table 10.6). -/
  settingsApplied : Nat := 0
  /-- Changes whose acceptance write ended in drain phase K, with the entries that still await their effect (R157, log 136). -/
  late     : List Commit := []
  scanned  : Bool := false
  deriving DecidableEq, Repr

/-! ### BT: self-test (11) -/

/-- The BT block (11). Result bits are numbered as the result registers number them (R311). -/
structure Bt where
  restTest : BitVec 4 := 0xF
  restSlot : Bool := false
  /-- Causes of REST that stand: the result bit, and whether it calls for HELD (R303). Bits 16 and 17 stand for causes of other chapters. -/
  causes   : List (Nat × Bool) := []
  scan     : Bool := false
  fuseBusy : Bool := false
  wrongState : Bool := false
  repaired : Bool := false
  run      : BitVec 2 := 0
  stay     : Bool := false
  /-- The state TEST was entered from was REST. -/
  fromRest : Bool := false
  mask     : Word := 0x000307DA
  done     : BitVec 16 := 0
  fail     : BitVec 16 := 0
  skip     : BitVec 16 := 0
  bootDone : BitVec 16 := 0
  bootFail : BitVec 16 := 0
  /-- Tests of the run (or of BOOT) not started yet, and running. -/
  todo     : List (Fin 16) := [0, 1, 2, 3, 4, 5, 6, 7, 8, 9, 11, 12, 13, 14]
  running  : List (Fin 16) := []
  peakMw   : Nat := 0
  sel      : BitVec 4 := 0
  details  : Vector (Word × Word × Word × Word) 16 := Vector.replicate 16 (0, 0, 0, 0)
  /-- Burned fuse words (R308). -/
  fuses    : List Word := []
  /-- Soft entries (R306). -/
  soft     : List Word := []
  /-- Hold-buffer steps bad for this start (Table 11.2). -/
  badSteps : List Nat := []
  lastResult : BitVec 8 := 0
  sramDone : Bool := false
  /-- Banks ARRAY has ended for in this run, per slot, and STOP was written (R297, R301). -/
  arrayA   : Nat := 0
  arrayB   : Nat := 0
  stopped  : Bool := false
  /-- TEMP failed for a slot: scrub uses the shortest period (Table 11.2). -/
  tempBad  : Bool := false
  /-- K_root is zeroised (R79). -/
  rootGone : Bool := false
  deriving DecidableEq, Repr

/-! ### PW: power (12, 14) -/

/-- The PW block and the always-on island (12, 14). -/
structure Pw where
  state    : Power := .boot
  lastResult : BitVec 8 := 0
  wakeCause : BitVec 4 := 0
  fromVbat : Bool := false
  entering : Bool := false
  wrongState : Bool := false
  /-- The cycle in which STANDBY was armed (R320). -/
  armed    : Option Nat := none
  quietEn  : Bool := false
  wakeEn   : Word := 0x41
  wakeAfter : Word := 0
  /-- Wake settings copied to the island at entry (R323). -/
  islandEn : Word := 0
  islandAfter : Word := 0
  lpTicks  : Nat := 0
  lpHi     : Word := 0
  tBoot    : Word := 0
  tReplay  : Word := 0
  quietIdle : BitVec 16 := 0x1000
  standbyFrom : Power := .active
  /-- LGT at LP_ENTER (R334), and the state entered. -/
  lpEnter  : Option (Nat × Power) := none
  lpUnknown : Bool := false
  planned  : Bool := false
  /-- PW_RAILS, PW_TEMP, PW_VBAT and the pins. -/
  rails    : Vector Bool 5 := Vector.replicate 5 true
  chgEn    : Bool := true
  thermTrip : Bool := false
  tripWake : Bool := false
  tj       : BitVec 8 := 25
  tjPeak   : BitVec 8 := 0
  vbat     : Bool := true
  vbatLow  : Bool := false
  vbat10mv : BitVec 16 := 300
  /-- PFAIL_N high: main power is present. -/
  mainPower : Bool := true
  perstLow : Bool := false
  coreOn   : Bool := true
  wakeN    : Bool := true
  gpioDir  : BitVec 16 := 0
  gpioOut  : BitVec 16 := 0xFFFF
  gpioIn   : BitVec 16 := 0xFFFF
  gpioPull : BitVec 16 := 0xFFFF
  deriving DecidableEq, Repr

/-! ### EV: events, trace and interrupts (13) -/

/-- A trace entry (Table 13.6). -/
structure TrEntry where
  time  : Nat
  type  : BitVec 8
  arg   : BitVec 8
  d0    : Word
  d1    : Word
  deriving DecidableEq, Repr

/-- One view of the log (R342). -/
structure EvView where
  rdSeq : Nat := 0
  lost  : Nat := 0
  latch : Option EvEntry := none
  deriving DecidableEq, Repr

/-- The EV block (13). -/
structure Ev where
  wrongState : Bool := false
  logOpen  : Bool := false
  /-- The intake of events registered and not written to the log yet (R341). -/
  intake   : List EvEntry := []
  bootLost : Nat := 0
  log      : List EvEntry := []
  wrSeq    : Nat := 0
  host     : EvView := {}
  mgmt     : EvView := {}
  /-- Routes changed from Table 13.3, by code (R346). -/
  routes   : List (Nat × BitVec 8) := []
  routeIdx : BitVec 8 := 0
  mod      : Word := 0
  traceEn  : BitVec 13 := 0x1DFE
  trace    : List TrEntry := []
  trPos    : Nat := 0
  /-- Entries of the trace ring not spilled yet. -/
  unspilled : List TrEntry := []
  bootTrace : List TrEntry := []
  bootTraceLost : Nat := 0
  spillSeq : Nat := 0
  traceLost : Nat := 0
  spillLost : Nat := 0
  traceScan : Bool := false
  selCart  : Bool := false
  selIndex : BitVec 18 := 0
  fetching : Bool := false
  lineSeq  : Word := 0
  data     : Option TrEntry := none
  deriving DecidableEq, Repr

/-! ### What the block puts on its ports -/

/-- Completion status of a host request. -/
inductive Status where
  | sc | ur | crs | cmp
  deriving DecidableEq, Repr

/-- What the block put on its ports while it executed the last command (log 3). -/
inductive Out where
  /-- A completion: the function, its status, whether it carries poison (EP), and its bytes. -/
  | completion (fn : Fn) (status : Status) (ep : Bool) (data : List Byte)
  /-- A flush completion: DONE and SEQ (Table 1.14). -/
  | flushDone (id : Nat) (done : Bool) (seq : BitVec 31)
  /-- A register read's value. -/
  | regData (ch : Chan) (off : BitVec 16) (value : Word)
  /-- An MSI-X message (R348). -/
  | msix (fn : Fn) (entry : Nat)
  /-- A host memory write: DMA data or coda, with the Relaxed Ordering attribute (R209, R239). -/
  | hostWrite (addr : BitVec 64) (data : List Byte) (ro poison : Bool)
  /-- A supervisor response: result code and payload (R74). -/
  | supervisor (slot : Slot) (res : BitVec 8) (payload : List Byte)
  /-- The bits a port shifts out: SDO of a slave's frame (R248), SDI of a master's transaction (R261). -/
  | sdo (port : Port) (bits : List Bool)
  /-- A mailbox response (Table 8.9): return code 0 = success, 1 = Unsupported, and its words. -/
  | mailbox (code : Nat) (words : List Nat)
  /-- A GPF response (R242). -/
  | gpf (phase : Nat)
  deriving DecidableEq, Repr

/-- The whole block. -/
structure State where
  /-- Cycles since cycle 0 of the start (R327). -/
  now : Nat := 0
  gl : Gl := {}
  pc : Pc := {}
  ct : Ct := {}
  duet : DuetUnit := {}
  md : Md := {}
  tn : Tn := {}
  cs : Cs := {}
  lg : Lg := {}
  dm : Dm := {}
  hl : Hl := {}
  sp0 : Sp := {}
  sp1 : Sp := { master := true, selPin := 3, div := 0x28 }
  ks : Ks := {}
  bt : Bt := {}
  pw : Pw := {}
  ev : Ev := {}
  /-- Cartridges outside the slots, with their contents. -/
  shelf : List Cart := []
  out : List Out := []
  /-- What egress holds for want of the host's credits, in order, with the tag a host read keeps (Table 2.9, row 1). -/
  egress : List (Out × Option Nat) := []
  /-- The counter the free values are applied to (log 4). -/
  freeCtr : Nat := 0
  /-- The commands that wait, first in first out. -/
  pending : List Instr := []
  deriving DecidableEq, Repr

/-- No command faults: every row of the table has an effect in the manual, and a request the engine
turns away is a result (a code, a sticky bit, a completion). The constructor is raised by nobody (safe). -/
inductive Fault where
  | unused
  deriving DecidableEq, Repr

/-- A refusal. -/
inductive Refusal where
  /-- Raised by an arm of `exec` whose command has no meaning yet; safe, the machine stops. -/
  | notModelled (mnemonic : String)
  deriving DecidableEq, Repr

/-- The machine at cycle 0 of the first start of a factory-fresh engine (R327): state BOOT, registers at
the reset values of the unit tables, no cartridge seated, keep store as the factory leaves it (log 5). -/
def State.reset : State := {}

end Sys2Proof.Machine
end

