-- ==== Sys2Proof/Machine/Ops.lean ====
section
/-! DEFINITION. The named operations over the block's state that every unit shares: outcomes, free values, time,
the slots, the contexts and the engine states. -/

namespace Sys2Proof

/-- The slot's number (R66). -/
def Slot.num : Slot → Nat
  | .a => 0
  | .b => 1

/-- The other slot. -/
def Slot.other : Slot → Slot
  | .a => .b
  | .b => .a

/-- The context a function serves (R139): VF `v + 1` serves tenant `v`. -/
def Fn.ctx : Fn → Ctx
  | .pf => provider
  | .vf v => ⟨v.val, by omega⟩

/-- The PCI function number of a function. -/
def Fn.num : Fn → Nat
  | .pf => 0
  | .vf v => v.val + 1

/-- The number form REG gives a channel (Table 13.4). -/
def Chan.num : Chan → Nat
  | .bar0 => 0 | .g5 => 1 | .sp0 => 2 | .sp1 => 3

/-- The channel has the management instances of R379. -/
def Chan.mgmt : Chan → Bool
  | .sp0 => true
  | _ => false

end Sys2Proof

namespace Sys2Proof.Machine

/-- CORE_CLK runs (R312): not in OFF, HIBERNATE or STANDBY. -/
def Power.clocked : Power → Bool
  | .off | .hibernate | .standby => false
  | _ => true

/-- The code of an engine state (Table 12.1). -/
def Power.code : Power → Nat
  | .off => 0 | .hibernate => 1 | .standby => 2 | .boot => 3 | .replay => 4
  | .active => 5 | .quiet => 6 | .fieldHold => 7 | .test => 8 | .rest => 9

/-- The code of a duet state (Table 3.7). -/
def Duet.code : Duet → Nat
  | .none => 0 | .soloA => 1 | .soloB => 2 | .span => 3 | .spanDegraded => 4 | .mirror => 5
  | .mirrorDegraded => 6 | .mirrorResync => 7 | .migrateCopy => 8 | .migrateCut => 9

/-- The code of a slot state (Table 3.10). -/
def SlotState.code : SlotState → Nat
  | .empty => 0 | .debounce => 1 | .powering => 2 | .auth => 3 | .training => 4 | .spare => 5
  | .inService => 6 | .releasing => 7 | .safeToRemove => 8 | .authFailed => 9 | .failed => 10

/-- The code of a media-link state (Table 3.14). -/
def LinkState.code : LinkState → Nat
  | .down => 0 | .train => 1 | .active => 2 | .idle => 3 | .retrain => 4

/-- The code of a DMA channel state (Table 7.7). -/
def ChState.code : ChState → Nat
  | .idle => 0 | .fetch => 1 | .wait => 2 | .active => 3 | .barrier => 4 | .coda => 5
  | .holding => 6 | .paused => 7 | .aborting => 8 | .starved => 9 | .halted => 10

/-- The outcome of a command whose effect is `f`: the ports are empty before it. -/
def act (f : State → State) (s : State) : Host.Outcome State Fault Refusal := .next (f { s with out := [] })

/-- Something put on a port (log 3). -/
def emit (o : Out) (s : State) : State := { s with out := s.out ++ [o] }

/-- Applies `f` where the condition holds; elsewhere the command does not take place. -/
def guarded (p : Bool) (f : State → State) (s : State) : State := if p then f s else s

/-- A free value of `w` bits (log 4). -/
def freeOf (w : Nat) (s : State) : BitVec w := Config.freeBits w s.freeCtr

/-- The next free value. -/
def nextFree (s : State) : State := { s with freeCtr := s.freeCtr + 1 }

/-- A number below `n`, free (log 4). -/
def freeBelow (n : Nat) (s : State) : Nat := (freeOf 64 s).toNat % max n 1

/-! ### Time (R47, R160) -/

/-- Cycles of one microsecond, millisecond, second (R47: CORE_CLK 1.000 GHz). -/
def us : Nat := 1000
def ms : Nat := 1000000
def sec : Nat := 1000000000

/-! ### The end of a cycle -/

/-- The contexts metered in the open minute (R163). -/
def meteredCtx (s : State) : List Ctx :=
  (indices 129).filter fun c => c = provider || s.tn.ctx[c].metered || decide (s.lg.live[c] ≠ {})

/-- FLAGS of the open minute as a frame carries them: UNSYNCED stands while no sync has been accepted (Table 6.3). -/
def closeFlags (s : State) (extra : BitVec 8) : Nat :=
  (s.lg.flags ||| extra ||| (if s.lg.unsynced then 0x20 else 0)).toNat

/-- A context as a minute opens: its quota restarts, and it is metered while enabled (R144, R163); a merged minute keeps the
contexts metered so far. -/
def Tenant.restart (merge : Bool) (t : Tenant) : Tenant :=
  { t with used := 0, quotaHit := false, metered := t.enable || (merge && t.metered) }

/-- The live bank is frozen for the seal, which runs to M + 8(k + 1) + 8, and an empty bank becomes live (Table 6.4). -/
def freezeBank (k : Closing) (s : State) : State :=
  let ctx := meteredCtx s
  { s with lg := { s.lg with
      frozen := some ⟨k.label, closeFlags s k.extra, s.lg.epoch, ctx, s.lg.live, s.lg.totals, k.trail⟩
      sealEnd := some (k.tick + 8 * (ctx.length + 1) + 8)
      live := Vector.replicate 129 {}, totals := {}, flags := 0 } }

/-- A step takes effect: LGT is the host's time, in a new epoch (R174). -/
def takeStep (t : Nat) (g : Lg) : Lg :=
  { g with lgt := t, epoch := (g.epoch + 1) % 2 ^ 16, secSeen := t / (32768 * 2 ^ 32) }

/-- The cycle that closes a minute has ended: the next minute is open (Table 6.4, M + 1; R170, R174). A slew that goes on is
active in it (Table 6.3). -/
def swapMinute (s : State) : State :=
  match s.lg.closing with
  | none => s
  | some k =>
    let s := if k.merge then s else freezeBank k s
    let slew : BitVec 8 := if s.lg.slew = 0 then 0 else 0x04
    let g := { s.lg with closing := none, minute := k.next, flags := s.lg.flags ||| k.flags ||| slew }
    let g := match k.step with
      | some t => takeStep t g
      | none => g
    { s with lg := g, tn := { s.tn with ctx := mapV s.tn.ctx (Tenant.restart k.merge) } }

/-- One cycle of CORE_CLK ends. -/
def passCycle (s : State) : State := swapMinute { s with now := s.now + 1 }

/-! ### Slots -/

/-- One slot of the CT block. -/
def State.slot (s : State) : Slot → CtSlot
  | .a => s.ct.a
  | .b => s.ct.b

/-- One slot changed. -/
def modSlot (x : Slot) (f : CtSlot → CtSlot) (s : State) : State :=
  match x with
  | .a => { s with ct := { s.ct with a := f s.ct.a } }
  | .b => { s with ct := { s.ct with b := f s.ct.b } }

/-- The seated cartridge of a slot, or one as made where none is seated. -/
def State.cart? (s : State) (x : Slot) : Option Cart := (s.slot x).cart

/-- The seated cartridge changed. -/
def modCart (x : Slot) (f : Cart → Cart) : State → State :=
  modSlot x fun t => { t with cart := t.cart.map f }

/-- The seated cartridge's supervisor changed. -/
def modSv (x : Slot) (f : Sv → Sv) : State → State :=
  modCart x fun c => { c with sv := f c.sv }

/-- Both slots, A first. -/
def bothSlots : List Slot := [.a, .b]

/-! ### Contexts -/

/-- The context of an index; indices above 128 do not occur. -/
def toCtx (n : Nat) : Ctx := if h : n < 129 then ⟨n, h⟩ else provider

/-- The context a descriptor acts for. -/
def Desc.who (d : Desc) : Ctx := toCtx d.ctx

/-- One context. -/
def State.tenant (s : State) (c : Ctx) : Tenant := s.tn.ctx[c]

/-- A context as its requests of this cycle meet it: a change accepted in the cycle acts from the next one (R138). -/
def State.judged (s : State) (c : Ctx) : Tenant :=
  let t := s.tenant c
  match t.was with
  | some (n, w) =>
    if n = s.now then
      { t with enable := w.enable, lock := w.lock, base := w.base, size := w.size, unlimited := w.unlimited, rate := w.rate
               quota := w.quota }
    else t
  | none => t

/-- One context changed. -/
def modTenant (c : Ctx) (f : Tenant → Tenant) (s : State) : State :=
  { s with tn := { s.tn with ctx := modAt s.tn.ctx c f } }

/-- Every context changed. -/
def mapTenants (f : Tenant → Tenant) (s : State) : State :=
  { s with tn := { s.tn with ctx := mapV s.tn.ctx f } }

/-- The live counters of a context changed (R162). -/
def modLive (c : Ctx) (f : Counters → Counters) (s : State) : State :=
  { s with lg := { s.lg with live := modAt s.lg.live c f } }

/-- One DMA channel changed. -/
def modCh (n : Fin 32) (f : DmaCh → DmaCh) (s : State) : State :=
  { s with dm := { s.dm with ch := modAt s.dm.ch n f } }

/-- One serial port. -/
def State.sp (s : State) : Port → Sp
  | .p0 => s.sp0
  | .p1 => s.sp1

/-- One serial port changed. -/
def modSp (p : Port) (f : Sp → Sp) (s : State) : State :=
  match p with
  | .p0 => { s with sp0 := f s.sp0 }
  | .p1 => { s with sp1 := f s.sp1 }

end Sys2Proof.Machine
end

