-- ==== Sys2Proof/Machine/Arbiter.lean ====
section
/-! DEFINITION. The arbiters of Table 2.5: one grant a cycle, round robin or weighted round robin, ageing, and GL_ARB_MAXWAIT
(R51, R52, R59, R60, R385). -/

namespace Sys2Proof.Machine

/-! ### Releases (R51) -/

/-- What a pool released in the cycle `now`. -/
def Freed.at (f : Freed) (now : Nat) : Nat := if f.cycle = now then f.count else 0

/-- `n` more released in the cycle `now`. -/
def Freed.add (f : Freed) (now n : Nat) : Freed := ⟨now, f.at now + n⟩

/-! ### Same-cycle precedence (R52, Table 2.2) -/

/-- The rank of a host request, of a DMA channel's beat, and of a duet copy: channels and copies by their channel number. -/
def hostRank : Nat := 300
def dmaRank (n : Fin 32) : Nat := 400 + n.val
def copyRank (n : Fin 32) : Nat := 500 + n.val

/-- A request registered in cycle `c` with rank `r` is earlier than one registered in cycle `d` with rank `q`. -/
def earlierThan (c r d q : Nat) : Bool := decide (c < d) || (decide (c = d) && decide (r < q))

/-! ### The arbiters (R59, Table 2.5) -/

/-- An arbiter: tags, a media bank, egress, or the crypto lanes. -/
inductive ArbId where
  | tag
  | bank (i : Fin 256)
  | egress
  | crypto
  deriving DecidableEq, Repr

/-- The class that GL_ARB_MAXWAIT.ARBITER names (Table 2.19). -/
def ArbId.cls : ArbId → BitVec 8
  | .tag => 0 | .bank _ => 1 | .egress => 2 | .crypto => 4

def State.arb (s : State) : ArbId → Arb
  | .tag => s.gl.arbTag
  | .bank i => s.gl.arbBank[i]
  | .egress => s.gl.arbEgress
  | .crypto => s.gl.arbCrypto

def setArb (i : ArbId) (a : Arb) (s : State) : State :=
  match i with
  | .tag => { s with gl := { s.gl with arbTag := a } }
  | .bank k => { s with gl := { s.gl with arbBank := s.gl.arbBank.set k a } }
  | .egress => { s with gl := { s.gl with arbEgress := a } }
  | .crypto => { s with gl := { s.gl with arbCrypto := a } }

/-- The classes at a bank arbiter: host reads, write-back, DMA, duet, ledger, replay (Table 2.5). -/
def bkRead : Nat := 0
def bkBack : Nat := 1
def bkDma : Nat := 2
def bkDuet : Nat := 3
def bkLedger : Nat := 4
def bkReplay : Nat := 5

/-- Grants in a row that a requester's weight gives it (Table 2.5). A duet copy is paced (R100) and replay meets no other
traffic: one at a time (DESIGN CHOICE, log 121). -/
def weight : ArbId → Nat → Nat
  | .bank _, 0 => 8
  | .bank _, 1 | .bank _, 2 => 4
  | _, _ => 1

/-- Round robin by weight; the crypto lanes take the oldest request, which has the least number (Table 2.5). -/
def inTurn (i : ArbId) (a : Arb) (l : List Nat) : Option Nat :=
  if i = .crypto then l.head?
  else if a.run < weight i a.last ∧ a.last ∈ l then some a.last
  else (l.find? fun k => a.last < k) <|> l.head?

/-- The requester aged first among those that wait, in a tie the lower index (R60). -/
def firstAged : List Waiter → Option Waiter
  | [] => none
  | w :: rest =>
    match w.aged, firstAged rest with
    | none, r => r
    | some _, none => some w
    | some t, some v => if (v.aged.getD 0) < t ∨ ((v.aged.getD 0) = t ∧ v.who < w.who) then some v else some w

/-- The requester an arbiter grants: the first aged one, else by its policy (R60). -/
def pick (i : ArbId) (a : Arb) (l : List Nat) : Option Nat :=
  ((firstAged (a.waits.filter fun w => decide (w.who ∈ l))).map fun w => w.who) <|> inTurn i a l

/-- A requester that waits while another is granted (R60). -/
def passOver (limit now who : Nat) (l : List Waiter) : List Waiter :=
  let w := (l.find? fun w => w.who = who).getD ⟨who, 0, none⟩
  let aged := if w.aged.isNone && decide (limit ≤ w.age + 1) then some now else w.aged
  ⟨who, w.age + 1, aged⟩ :: l.filter fun w => decide (w.who ≠ who)

/-- The most grants waited through, with the class of its arbiter (Table 2.19). -/
def noteWait (cls : BitVec 8) (age : Nat) (s : State) : State :=
  if s.gl.maxGrants < age then { s with gl := { s.gl with maxGrants := age, maxArb := cls } } else s

/-- A grant to `who` while `l` wait (R60). -/
def grantTo (i : ArbId) (who : Nat) (l : List Nat) (s : State) : State :=
  let a := s.arb i
  let others := l.filter fun k => decide (k ≠ who)
  let waits := (others.foldl (fun ws k => passOver s.gl.ageLimit.toNat s.now k ws) a.waits).filter fun w => decide (w.who ≠ who)
  let a : Arb := { a with
    granted := some s.now, last := who, run := if a.last = who then a.run + 1 else 1, waits := waits }
  noteWait i.cls (greatest (fun w => if w.who ∈ others then w.age else 0) waits) (setArb i a s)

/-- An arbiter has granted in this cycle: the next grant is a cycle later (R59). -/
def nextGrant (i : ArbId) (s : State) : State := if (s.arb i).granted = some s.now then passCycle s else s

/-- Grants in the arbiter's order until `who` is granted; each requester granted before it keeps its grant for its command. -/
def grantUntil (i : ArbId) (who : Nat) : Nat → List Nat → State → State
  | 0, _, s => s
  | n + 1, l, s =>
    let s := nextGrant i s
    match pick i (s.arb i) l with
    | none => s
    | some k =>
      let s := grantTo i k l s
      if k = who then s
      else grantUntil i who n (l.filter fun m => decide (m ≠ k)) (setArb i { s.arb i with due := (s.arb i).due ++ [k] } s)

/-- A list of requesters with one more, ascending. -/
def withWho (who : Nat) : List Nat → List Nat
  | [] => [who]
  | k :: rest => if who < k then who :: k :: rest else if who = k then k :: rest else k :: withWho who rest

/-- The command of `who` needs a grant of an arbiter at which `waiting` wait (in ascending order): the arbiter grants in its own
order, one requester a cycle, and the clock stands at the cycle of the grant to `who` (DESIGN CHOICE, log 121). -/
def arbitrate (i : ArbId) (who : Nat) (waiting : List Nat) (s : State) : State :=
  let a := s.arb i
  let due := a.due.filter fun k => decide (k ∈ waiting)
  if who ∈ due then setArb i { a with due := due.erase who } s
  else
    let l := withWho who (waiting.filter fun k => decide (k ∉ due))
    grantUntil i who l.length l (setArb i { a with due := due } s)

/-- The longest wait in progress at an arbiter. -/
def waitAt (s : State) (i : ArbId) : Nat := greatest (fun (w : Waiter) => w.age) (s.arb i).waits

/-! ### Tags (R53–R56, Table 2.3) -/

/-- Reserved tags of a class. -/
def TagClass.reserved : TagClass → Nat
  | .hrd | .hwr | .wbk | .dma => 128
  | .duet => 64
  | .ledg | .int => 16

/-- The requester at the tag arbiter that a class is, in the order of Table 2.3. -/
def TagClass.num : TagClass → Nat
  | .hrd => 0 | .hwr => 1 | .wbk => 2 | .dma => 3 | .duet => 4 | .ledg => 5 | .int => 6

/-- The lowest tag number not in use (log 13). -/
def lowestFree (tags : List Tag) : Nat → Nat → Nat
  | 0, k => k
  | n + 1, k => if tags.any (fun t => t.id = k) then lowestFree tags n (k + 1) else k

/-- Tags of a list in a class's reservation, its shared tags, and the shared tags of a context (R54, R55). -/
def reserveOf (l : List Tag) (c : TagClass) : Nat := (l.filter fun t => decide (t.cls = c) && !t.shared).length
def sharedIn (l : List Tag) : Nat := (l.filter fun t => t.shared).length
def sharedFor (l : List Tag) (c : Ctx) : Nat := (l.filter fun t => t.shared && decide (t.ctx = c)).length

/-- The tags in use (R56). -/
def inReserve (s : State) (c : TagClass) : Nat := reserveOf s.gl.tags c
def inShared (s : State) : Nat := sharedIn s.gl.tags
def sharedOf (s : State) (c : Ctx) : Nat := sharedFor s.gl.tags c

/-- The tags that cannot be taken in this cycle: those in use, and those returned in it (R51). -/
def takenTags (s : State) : List Tag :=
  s.gl.tags ++ (s.gl.relTags.filter fun r => decide (r.1 = s.now)).map fun r => r.2

/-- A tag can be taken now (R51, R54, R55). -/
def tagFree (s : State) (cls : TagClass) (c : Ctx) : Bool :=
  let l := takenTags s
  decide (reserveOf l cls < cls.reserved) || (decide (sharedIn l < 416) && decide (sharedFor l c < 64))

/-- The tag a request takes: from its class's reservation while one is free, else from the shared part (R54). -/
def newTag (s : State) (cls : TagClass) (c : Ctx) : Tag :=
  ⟨lowestFree (takenTags s) 1024 0, cls, !decide (reserveOf (takenTags s) cls < cls.reserved), c⟩

/-- A tag is taken, and GL_TAG_PEAK follows (Table 2.15). -/
def takeTag (cls : TagClass) (c : Ctx) (s : State) : State :=
  let tags := newTag s cls c :: s.gl.tags
  { s with gl := { s.gl with tags := tags, tagPeak := max s.gl.tagPeak tags.length } }

/-- A tag is returned; it can be taken again from the next cycle (R51). -/
def dropTag (id : Nat) (s : State) : State :=
  let back := (s.gl.tags.filter fun t => decide (t.id = id)).map fun t => (s.now, t)
  let rel := (s.gl.relTags.filter fun r => decide (r.1 = s.now)) ++ back
  { s with gl := { s.gl with tags := s.gl.tags.filter (fun t => decide (t.id ≠ id)), relTags := rel } }

def dropTag? (id : Option Nat) (s : State) : State :=
  match id with
  | some n => dropTag n s
  | none => s

/-! ### Egress (Table 2.5, Table 2.9 row 1) -/

/-- The place of a kind of credit in HL's record. -/
def creditNum : Credit → Fin 3
  | .posted => 0 | .nonPosted => 1 | .completion => 2

/-- The kind of host credit that an output takes. -/
def Out.credit : Out → Option Credit
  | .completion .. => some .completion
  | .msix .. | .hostWrite .. => some .posted
  | _ => none

/-- The requester at the egress arbiter that an output is: read completions, DMA writes, coda writes, MSI-X messages. A coda is
the DMA channels' too. -/
def Out.egress : Out → Nat
  | .completion .. => 0
  | .hostWrite .. => 1
  | _ => 3

/-- The host returns credits of the kind. -/
def hasCredit (s : State) (k : Credit) : Bool := s.hl.noCredit[creditNum k].isNone

/-- An output on the host link: it goes out by a grant of the egress arbiter, behind what egress holds, and waits where the host returns
no credits of its kind; a tag that it retires returns as it goes out (R53). -/
def send (o : Out) (tag : Option Nat) (s : State) : State :=
  match o.credit with
  | none => dropTag? tag (emit o s)
  | some k =>
    if hasCredit s k && !s.egress.any fun e => decide (e.1.credit = some k) then
      dropTag? tag (emit o (arbitrate .egress o.egress [] s))
    else { s with egress := s.egress ++ [(o, tag)] }

/-- The outputs of one request in order; its tag goes with the last (R53). -/
def sendAll (tag : Option Nat) : List Out → State → State
  | [], s => dropTag? tag s
  | [o], s => send o tag s
  | o :: rest, s => sendAll tag rest (send o none s)

/-- The host returns credits of a kind again: what egress holds of it goes out in order (Table 2.9, row 1). -/
def resumeEgress (k : Credit) (s : State) : State :=
  let s := { s with hl := { s.hl with noCredit := s.hl.noCredit.set (creditNum k) none } }
  let mine := fun (e : Out × Option Nat) => decide (e.1.credit = some k)
  let l := s.egress.filter mine
  l.foldl (fun s e => send e.1 e.2 s) { s with egress := s.egress.filter fun e => !mine e }

end Sys2Proof.Machine
end

