-- ==== Sys2Proof/Machine/Events.lean ====
section
/-! DEFINITION. Events, the log, its routes and queues, interrupt causes and the trace (chapter 13). -/

namespace Sys2Proof.Machine

/-! ### The shared codes (R339, Table 13.3) -/

def cOK : BitVec 8 := 0x00
def cWRONG_STATE : BitVec 8 := 0x01
def cPERMISSION : BitVec 8 := 0x02
def cNOT_COUNTERSIGNED : BitVec 8 := 0x03
def cRANGE : BitVec 8 := 0x04
def cFRAME_REJECT : BitVec 8 := 0x05
def cCRC : BitVec 8 := 0x06
def cTIMEOUT : BitVec 8 := 0x07
def cBUS_ERROR : BitVec 8 := 0x08
def cBAD_DESCRIPTOR : BitVec 8 := 0x09
def cABORTED : BitVec 8 := 0x0A
def cUNCORR_TARGET : BitVec 8 := 0x0B
def cWEAR_OUT : BitVec 8 := 0x0C
def cFIELD : BitVec 8 := 0x0D
def cPOISON_MERGE : BitVec 8 := 0x0E
def cPWF : BitVec 8 := 0x0F
def cFLUSH_LATE : BitVec 8 := 0x20
def cHOLD_DEGRADED : BitVec 8 := 0x21
def cHOLD_SIZED : BitVec 8 := 0x22
def cDRAIN_SHORT : BitVec 8 := 0x23
def cHOLD_ABSENT : BitVec 8 := 0x24
def cHOL_STALL : BitVec 8 := 0x25
def cHL_CREDIT_STALL : BitVec 8 := 0x26
def cHOST_SERVICE_STALL : BitVec 8 := 0x27
def cSELF_TARGET : BitVec 8 := 0x28
def cCLK_LOST : BitVec 8 := 0x29
def cCART_SEATED : BitVec 8 := 0x40
def cCART_GONE : BitVec 8 := 0x41
def cCART_SAFE : BitVec 8 := 0x42
def cCART_AUTH_FAIL : BitVec 8 := 0x43
def cCART_LINK_DEGRADED : BitVec 8 := 0x44
def cCART_EOL_WARN : BitVec 8 := 0x45
def cCART_EXPOSED : BitVec 8 := 0x46
def cCART_SLOT_MOVED : BitVec 8 := 0x47
def cCART_COPY_POISON : BitVec 8 := 0x48
def cSV_TIMEOUT : BitVec 8 := 0x49
def cSV_SOFT_TIMEOUT : BitVec 8 := 0x4A
def cMIG_DONE : BitVec 8 := 0x4B
def cMIG_ABORT : BitVec 8 := 0x4C
def cUNCORR : BitVec 8 := 0x60
def cMISDIRECT : BitVec 8 := 0x61
def cMD_FORMAT : BitVec 8 := 0x62
def cSPARE_LOW : BitVec 8 := 0x63
def cFIELD_INHIBIT : BitVec 8 := 0x64
def cQUOTA_HIT : BitVec 8 := 0x70
def cCS_OPEN : BitVec 8 := 0x71
def cCS_BADTAG : BitVec 8 := 0x72
def cCS_LAPSED : BitVec 8 := 0x73
def cCS_REFUSED : BitVec 8 := 0x74
def cCS_APPLIED : BitVec 8 := 0x75
def cMETRONOME_RANGE : BitVec 8 := 0x80
def cLEDGER_HIGH : BitVec 8 := 0x81
def cLEDGER_MERGE : BitVec 8 := 0x82
def cLEDGER_STEP : BitVec 8 := 0x83
def cLEDGER_RECONCILED : BitVec 8 := 0x84
def cLEDGER_LOST : BitVec 8 := 0x85
def cHL_CXL_DOWN : BitVec 8 := 0x90
def cHL_SRIOV_REFUSED : BitVec 8 := 0x91
def cHL_RESET : BitVec 8 := 0x92
def cKS_UNCORR : BitVec 8 := 0xA0
def cKS_BUF_EXPIRED : BitVec 8 := 0xA1
def cKS_IDENT_MISMATCH : BitVec 8 := 0xA2
def cKS_WEAR_DROPPED : BitVec 8 := 0xA3
def cKS_RING_LOST : BitVec 8 := 0xA4
def cKS_CONTEXT_LOST : BitVec 8 := 0xA5
def cBT_FAIL : BitVec 8 := 0xB0
def cBT_SKIPPED : BitVec 8 := 0xB1
def cBT_REPAIR : BitVec 8 := 0xB2
def cBT_FUSE_FAIL : BitVec 8 := 0xB3
def cBT_SCAN : BitVec 8 := 0xB4
def cBT_DONE : BitVec 8 := 0xB5
def cREST_ENTERED : BitVec 8 := 0xB6
def cVBAT_LOW : BitVec 8 := 0xC0
def cREPLAY_LATE : BitVec 8 := 0xC1
def cBOOT_QUEUE_LOST : BitVec 8 := 0xC2
def cSP_DONE : BitVec 8 := 0xC3
def cTRACE_LOST : BitVec 8 := 0xC4

/-! ### The units of Table 13.2 -/

def uGL : BitVec 5 := 0
def uPC : BitVec 5 := 1
def uMD : BitVec 5 := 2
def uTN : BitVec 5 := 5
def uLG : BitVec 5 := 6
def uDM : BitVec 5 := 7
def uHL : BitVec 5 := 8
def uSP0 : BitVec 5 := 9
def uSP1 : BitVec 5 := 10
def uKS : BitVec 5 := 11
def uBT : BitVec 5 := 12
def uPW : BitVec 5 := 13
def uEV : BitVec 5 := 14
def uCS : BitVec 5 := 15

/-- The CT unit of a slot. -/
def uCT : Slot → BitVec 5
  | .a => 3
  | .b => 4

/-- CONTEXT "none". -/
def noCtx : BitVec 8 := 0xFF

/-- CONTEXT of a context. -/
def ctxByte (c : Ctx) : BitVec 8 := BitVec.ofNat 8 c.val

/-! ### Routes (Table 13.3, R346) -/

/-- Route bits: ALERT, TENANT, VEC_EN with the vector. -/
def rA : BitVec 8 := 0x80
def rT : BitVec 8 := 0x40
def rV (n : Nat) : BitVec 8 := BitVec.ofNat 8 (0x20 + n)

/-- The route a code has at reset (Table 13.3). -/
def resetRoute (code : BitVec 8) : BitVec 8 :=
  match code.toNat with
  | 0x0C => rV 3 ||| rT
  | 0x0D => rV 4 ||| rA
  | 0x0E | 0x0F | 0x20 => rV 0 ||| rT
  | 0x21 | 0x22 => rV 2
  | 0x23 => rV 0 ||| rT ||| rA
  | 0x24 => rV 2 ||| rA
  | 0x25 => rV 0
  | 0x26 => rV 10 ||| rA
  | 0x27 => rA
  | 0x28 => rV 11
  | 0x29 => rV 8 ||| rA
  | 0x40 | 0x41 | 0x42 | 0x43 | 0x44 | 0x46 | 0x49 | 0x4B | 0x4C => rV 3 ||| rA
  | 0x45 => rV 0 ||| rA
  | 0x47 | 0x48 | 0x4A => rV 3
  | 0x60 | 0x61 => rV 4 ||| rT
  | 0x62 => rV 4
  | 0x63 | 0x64 => rV 4 ||| rA
  | 0x70 => rT
  | 0x71 | 0x72 | 0x73 | 0x74 | 0x75 => rV 1 ||| rA
  | 0x80 | 0x83 | 0x84 => rV 5
  | 0x81 => rV 0
  | 0x82 => rV 5 ||| rA
  | 0x85 => rV 0 ||| rA
  | 0x90 => rV 10 ||| rA
  | 0x91 | 0x92 => rV 10
  | 0xA0 | 0xA1 => rV 6
  | 0xA2 | 0xA3 | 0xA4 | 0xA5 => rV 6 ||| rA
  | 0xB0 | 0xB3 | 0xB4 => rV 7 ||| rA
  | 0xB1 | 0xB2 | 0xB5 => rV 7
  | 0xB6 | 0xC0 | 0xC1 => rV 8 ||| rA
  | 0xC2 | 0xC4 => rV 0
  | 0xC3 => rV 9
  | _ => 0

/-- The route in effect of a code. -/
def routeOf (s : State) (code : BitVec 8) : BitVec 8 :=
  (look code.toNat s.ev.routes).getD (resetRoute code)

/-! ### Registering an event (R338, R341) -/

/-- LG_EPOCH and LG_MINUTE as an entry shows them: all ones before reconciliation has run (R338, R178). -/
def entryEpoch (s : State) : BitVec 16 := if s.pc.reconciled then BitVec.ofNat 16 s.lg.epoch else 0xFFFF
def entryMinute (s : State) : Word := if s.pc.reconciled then BitVec.ofNat 32 s.lg.minute else 0xFFFFFFFF

/-- The order of events registered in one cycle (R341): UNIT, then CODE, then CONTEXT. -/
def entryKey (e : EvEntry) : Nat := (e.unit.toNat * 256 + e.code.toNat) * 256 + e.ctx.toNat

/-- An entry put into the intake behind the entries of earlier cycles, in the order of R341 within its own. -/
def intoIntake (e : EvEntry) : List EvEntry → List EvEntry
  | [] => [e]
  | x :: rest =>
    if x.cycle = e.cycle ∧ entryKey e < entryKey x then e :: x :: rest else x :: intoIntake e rest

/-- An event is registered. Before the log opens it goes to the boot queue of 32 entries, and later ones are counted (R332). -/
def raiseF (unit : BitVec 5) (code ctx : BitVec 8) (flags : BitVec 4) (d0 d1 d2 : Word) (s : State) : State :=
  let e : EvEntry :=
    { seq := 0, code := code, ctx := ctx, unit := unit, bootq := !s.ev.logOpen, flags := flags, cycle := s.now,
      epoch := entryEpoch s, minute := entryMinute s, d0 := d0, d1 := d1, d2 := d2, alert := false }
  if !s.ev.logOpen ∧ 32 ≤ s.ev.intake.length then { s with ev := { s.ev with bootLost := s.ev.bootLost + 1 } }
  else { s with ev := { s.ev with intake := intoIntake e s.ev.intake } }

/-- An event without flags. -/
def raise (unit : BitVec 5) (code ctx : BitVec 8) (d0 d1 d2 : Word) : State → State :=
  raiseF unit code ctx 0 d0 d1 d2

/-- Form SER (Table 13.4). -/
def raiseSer (x : Slot) (code : BitVec 8) (serial : BitVec 64) : State → State :=
  raise (uCT x) code noCtx (BitVec.ofNat 32 x.num) (serial.setWidth 32) ((serial >>> 32).setWidth 32)

/-- DETAIL0 of form ADDR. -/
def addrD0 (x : Slot) (cline : Nat) : Word := BitVec.ofNat 32 (x.num * 2 ^ 31 + cline % 2 ^ 30)

/-! ### The trace (R352) -/

/-- A trace entry is written while the ring is open (R352, R354): when 4096 entries are unspilled, the oldest
unspilled one is overwritten and counted. -/
def traceRaw (e : TrEntry) (s : State) : State :=
  let full := decide (4096 ≤ s.ev.unspilled.length)
  { s with ev := { s.ev with
      trace := lastN 4096 (s.ev.trace ++ [e])
      trPos := (s.ev.trPos + 1) % 4096
      unspilled := (if full then s.ev.unspilled.drop 1 else s.ev.unspilled) ++ [e]
      traceLost := if full then s.ev.traceLost + 1 else s.ev.traceLost
      spillLost := if full then s.ev.spillLost + 1 else s.ev.spillLost } }

/-- A trace entry of a type is registered: recorded while its EV_TRACE_EN bit is 1, and types 0x07, 0x08 and 0x0B
always (R352). Before the trace opens it goes to the boot trace queue (R387). -/
def traceAt (time : Nat) (type arg : BitVec 8) (d0 d1 : Word) (s : State) : State :=
  let e : TrEntry := ⟨time, type, arg, d0, d1⟩
  let on := bit s.ev.traceEn type.toNat || type = 0x07 || type = 0x08 || type = 0x0B
  if !on then s
  else if s.ev.logOpen then traceRaw e s
  else if s.ev.bootTrace.length < 32 then { s with ev := { s.ev with bootTrace := s.ev.bootTrace ++ [e] } }
  else { s with ev := { s.ev with bootTraceLost := s.ev.bootTraceLost + 1 } }

/-- A trace entry of the present cycle. -/
def trace (type arg : BitVec 8) (d0 d1 : Word) (s : State) : State := traceAt s.now type arg d0 d1 s

/-- The EVENT trace entry of a log entry (Table 13.7). -/
def eventTrace (e : EvEntry) : TrEntry :=
  ⟨e.cycle, 0x01, e.code, lo32 e.seq,
    BitVec.ofNat 32 (e.ctx.toNat * 2 ^ 24 + e.unit.toNat * 2 ^ 16 + e.d0.toNat % 2 ^ 16)⟩

/-! ### Interrupt causes (R345) -/

/-- A cause of a vector arises. -/
def cause (v : Vec) : Vec := { v with cause := true }

/-- The vector of a tenant: its VF's entry 0 while the VF is exposed, else the PF's entry `t` (R229). -/
def tenantExposed (s : State) (t : Nat) : Bool := s.hl.vfEnable && decide (t < s.hl.numVfs)

/-- An engine vector is raised (PF entries 160 to 191). -/
def raiseEngine (n : Nat) (s : State) : State :=
  let i : Fin 192 := ⟨160 + n % 32, by omega⟩
  { s with hl := { s.hl with pfVec := modAt s.hl.pfVec i cause } }

/-- The vector of a context is raised (R345): 0x80 raises engine vector 0, 0xFF raises nothing. -/
def raiseCtxVec (c : BitVec 8) (s : State) : State :=
  if h : c.toNat < 128 then
    if tenantExposed s c.toNat then
      { s with hl := { s.hl with vfVec := modAt s.hl.vfVec ⟨c.toNat, h⟩ cause } }
    else { s with hl := { s.hl with pfVec := modAt s.hl.pfVec ⟨c.toNat, by omega⟩ cause } }
  else if c = 0x80 then raiseEngine 0 s
  else s

/-- The vector of a DMA channel is raised (PF entries 128 to 159, R210). -/
def raiseDma (n : Fin 32) (s : State) : State :=
  { s with hl := { s.hl with pfVec := modAt s.hl.pfVec ⟨128 + n.val, by omega⟩ cause } }

/-! ### The log (R341, R343, R344) -/

/-- The host proposed the change that a CS_OPEN entry announces (form CHG, DETAIL2 bits 23:16 = 1). -/
def hostProposed (e : EvEntry) : Bool := fld e.d2 16 8 = 1

/-- The route that applies to an entry: CS_OPEN is signalled only to the countersigner (R347). -/
def entryRoute (s : State) (e : EvEntry) : BitVec 8 :=
  let r := routeOf s e.code
  if e.code = cCS_OPEN then (if hostProposed e then r &&& rA else r &&& 0x3F) else r

/-- A view loses its oldest unread entry when an entry is written while it has 1024 unread ones (R343). -/
def overwrite (wr : Nat) (v : EvView) : EvView :=
  if 1024 ≤ wr - v.rdSeq then { v with rdSeq := v.rdSeq + 1, lost := v.lost + 1 } else v

/-- An entry is copied into its tenant's queue of 8 (R344). -/
def queueTenant (e : EvEntry) (s : State) : State :=
  if e.ctx.toNat < 128 then
    modTenant (toCtx e.ctx.toNat) (fun t =>
      if 8 ≤ t.queue.length then { t with queue := t.queue.drop 1 ++ [e], qLost := t.qLost + 1 }
      else { t with queue := t.queue ++ [e] }) s
  else s

/-- An entry is routed (R345, R347). -/
def routeEntry (r : BitVec 8) (e : EvEntry) (s : State) : State :=
  let s := if bit r 6 then raiseCtxVec e.ctx (queueTenant e s) else s
  if bit r 5 then raiseEngine (fld r 0 5) s else s

/-- The oldest entry of the intake is written to the log, routed and copied to its queue and the trace (R341). -/
def writeEntry (s : State) : State :=
  match s.ev.logOpen, s.ev.intake with
  | true, e :: rest =>
    let r := entryRoute s e
    let e := { e with seq := s.ev.wrSeq, alert := bit r 7 }
    let s := { s with ev := { s.ev with
      intake := rest, log := lastN 1024 (s.ev.log ++ [e]), wrSeq := s.ev.wrSeq + 1
      host := overwrite s.ev.wrSeq s.ev.host, mgmt := overwrite s.ev.wrSeq s.ev.mgmt } }
    let s := routeEntry r e s
    if e.bootq then s else
      let t := eventTrace e
      traceAt t.time t.type t.arg t.d0 t.d1 s
  | _, _ => s

/-- ALERT_N is asserted (R351): an unread alerting entry in the management view, outside BOOT and REPLAY;
released in HIBERNATE and OFF. -/
def alertN (s : State) : Bool :=
  match s.pw.state with
  | .boot | .replay | .hibernate | .off => false
  | _ => s.ev.log.any fun e => e.alert && decide (s.ev.mgmt.rdSeq ≤ e.seq)

/-- The entry of a view's EV_RD_SEQ (R342). -/
def viewEntry (s : State) (v : EvView) : Option EvEntry := s.ev.log.find? fun e => e.seq = v.rdSeq

/-- The eight words of an entry (Table 13.1). -/
def entryWord (e : EvEntry) : Nat → Word
  | 0 => lo32 e.seq
  | 1 => put e.code.toNat 24 ||| put e.ctx.toNat 16 ||| put e.unit.toNat 11 ||| putB e.bootq 7 ||| put e.flags.toNat 0
  | 2 => lo32 e.cycle
  | 3 => put e.epoch.toNat 16 ||| put (e.cycle / 2 ^ 32 % 2 ^ 16) 0
  | 4 => e.minute
  | 5 => e.d0
  | 6 => e.d1
  | 7 => e.d2
  | _ => 0

/-- The four words of a trace entry (Table 13.6). -/
def trWord (e : TrEntry) : Nat → Word
  | 0 => lo32 e.time
  | 1 => put (e.time / 2 ^ 32 % 2 ^ 16) 0 ||| put e.type.toNat 16 ||| put e.arg.toNat 24
  | 2 => e.d0
  | 3 => e.d1
  | _ => 0

/-- The boot trace queue as the trace opens (R387): the held entries and the EVENT entries of the boot queue's events,
in registration order, ascending TYPE within a cycle. -/
def insertTrace (e : TrEntry) : List TrEntry → List TrEntry
  | [] => [e]
  | x :: rest => if e.time < x.time ∨ (e.time = x.time ∧ e.type < x.type) then e :: x :: rest else x :: insertTrace e rest

/-- The EVENT entries of the boot queue's events, with the SEQ values they take when the log opens. -/
def bootEventTraces : Nat → List EvEntry → List TrEntry
  | _, [] => []
  | k, e :: rest => eventTrace { e with seq := k } :: bootEventTraces (k + 1) rest

/-- The log and the trace open (R341, R332, R387). -/
def openLog (lpExit : State → State) (s : State) : State :=
  let held := (bootEventTraces s.ev.wrSeq s.ev.intake).foldl (fun l e => insertTrace e l) s.ev.bootTrace
  let lost := s.ev.bootTraceLost + (held.length - 32)
  let s := { s with ev := { s.ev with logOpen := true, bootTrace := [], bootTraceLost := 0 } }
  let s := lpExit s
  let s := (held.take 32).foldl (fun s e => traceRaw e s) s
  let s := if lost = 0 then s else traceRaw ⟨s.now, 0x0B, 0, lo32 lost, 0⟩ s
  if s.ev.bootLost = 0 then s
  else raise uEV cBOOT_QUEUE_LOST noCtx (lo32 s.ev.bootLost) 0 0 s

/-! ### Changes of the engine state -/

/-- The engine's state changes, and the STATE trace entry is written with the causing event's code (Table 13.7). -/
def goState (p : Power) (why : BitVec 8) (s : State) : State :=
  if s.pw.state = p then s else
    let s := trace 0x02 (BitVec.ofNat 8 p.code) (lo32 s.pw.state.code) (why.setWidth 32) s
    { s with pw := { s.pw with state := p } }

/-- The duet's state changes, and the DUET trace entry is written. -/
def goDuet (d : Duet) (s : State) : State :=
  if s.duet.state = d then s else
    let s := trace 0x03 (BitVec.ofNat 8 d.code) (lo32 s.duet.state.code) (lo32 s.duet.ptr) s
    { s with duet := { s.duet with state := d } }

/-- ACTIVE or QUIET by QUIET_EN (R317). -/
def activeOrQuiet (s : State) : Power := if s.pw.quietEn then .quiet else .active

end Sys2Proof.Machine
end

