-- ==== Sys2Proof/Machine/Media.lean ====
section
/-! DEFINITION. Cartridges in service, the duet's mapping, wear, and how a stored line is sensed, decoded and read
(chapters 03, 04). -/

namespace Sys2Proof.Machine

/-! ### Geometry (R104, Table 3.3, Table 4.1) -/

/-- Lines of one mebibyte. -/
def mibLines : Nat := 16384

/-- User capacity in MiB (Table 3.5). -/
def userMib (big : Bool) : Nat := if big then 57344 else 28672

/-- User lines of a cartridge. -/
def userLines (big : Bool) : Nat := userMib big * mibLines

/-- Life budget in wear units (Table 3.5). -/
def lifeBudget (big : Bool) : Nat := if big then 80000000000000000 else 40000000000000000

/-- First line of each reserved area, in the order of Table 3.3 above the user capacity (DEDUCED, log 11). -/
def headerBase (big : Bool) : Nat := userLines big
def holdBase (big : Bool) : Nat := headerBase big + 1 * mibLines
def quarBase (big : Bool) : Nat := holdBase big + 17 * mibLines
def ringBase (big : Bool) : Nat := quarBase big + 8 * mibLines
def traceBase (big : Bool) : Nat := ringBase big + 64 * mibLines
def resyncBase (big : Bool) : Nat := traceBase big + 4 * mibLines
def cartLines (big : Bool) : Nat := resyncBase big + 1 * mibLines

/-- The bank of a cartridge line, and its bank-logical index (R104). -/
def bankOf (cline : Nat) : Fin 128 := ⟨cline % 128, by omega⟩
def bankIdx (cline : Nat) : Nat := cline / 128

/-- Logical lines of a bank, N of R121. -/
def bankLines (big : Bool) : Nat := cartLines big / 128

/-- START and GAP of a bank (R121): 0 and N at format. -/
def bankLevel (c : Cart) (bank : Nat) : Nat × Nat :=
  match c.levels.find? fun e => e.1 = bank with
  | some e => e.2
  | none => (0, bankLines c.big)

/-- The physical line of a bank-logical index (R121). -/
def physLine (c : Cart) (bank idx : Nat) : Nat :=
  let (start, gap) := bankLevel c bank
  let p := (idx + start) % bankLines c.big
  if gap ≤ p then p + 1 else p

/-- Spares used or retired in a bank, and in a cartridge (R111). -/
def sparesUsed (c : Cart) (bank : Nat) : Nat := (c.relocs.filter fun r => r.bank = bank).length

/-! ### Slots in service -/

/-- The slot serves requests: IN_SERVICE with its tests passed (R295, R296), or FAILED by a self-test while needed (R302). -/
def CtSlot.serves (t : CtSlot) : Bool :=
  t.cart.isSome && ((decide (t.state = .inService) && t.tested) || (decide (t.state = .failed) && t.kept))

/-- Writes already admitted may still go to the slot: it serves, or is being released (R91). -/
def CtSlot.writable (t : CtSlot) : Bool := t.serves || (t.cart.isSome && decide (t.state = .releasing))

/-- The slot's inhibit is registered (R127). -/
def inhibitedAt (s : State) : Slot → Option Nat
  | .a => s.md.inhA
  | .b => s.md.inhB

def inhibited (s : State) (x : Slot) : Bool := (inhibitedAt s x).elim false fun c => decide (c ≤ s.now)

/-- The slots that serve. -/
def serving (s : State) : List Slot := bothSlots.filter fun x => (s.slot x).serves

/-- REST is HELD (R303): a cause calls for it, or a replay is pending. -/
def restHeld (s : State) : Bool := s.bt.causes.any (fun c => c.2) || s.pc.replayPending

/-- Media writes of admitted lines may be issued in the engine's state (Tables 11.3, 12.1). -/
def writesRun (s : State) : Bool :=
  match s.pw.state with
  | .rest => !restHeld s
  | .off | .hibernate | .standby => false
  | _ => s.pc.drain.isNone

/-! ### The duet's mapping (R94, R95, R98) -/

/-- A span line's slot and cartridge line (R95): bit 12 of the address chooses the slot. -/
def spanHome (line : Nat) : Slot × Nat :=
  (if line / 64 % 2 = 1 then .b else .a, line / 128 * 64 + line % 64)

/-- The duet line of a cartridge line (R95). -/
def mediaLine (s : State) (x : Slot) (cline : Nat) : Nat :=
  match s.duet.state with
  | .span | .spanDegraded => (cline / 64 * 2 + x.num) * 64 + cline % 64
  | _ => cline

/-- A source line of a running copy descriptor has been verified at the destination (R98). -/
def passedCopy (s : State) (line : Nat) : Bool :=
  s.dm.ch.toList.any (fun c => match c.copy, c.desc with
    | true, some d => decide (d.src % 2 ^ 36 ≤ line * 64) && decide (line * 64 < d.src % 2 ^ 36 + c.written)
    | _, _ => false) &&
  !s.md.writes.any (fun w => match w.kind with
    | .copy _ src => decide (src = line)
    | _ => false)

/-- The line lies in an extent whose coda is not issued yet. -/
def planned (s : State) (line : Nat) : Bool :=
  s.duet.plan.any fun e => decide (e.base ≤ line * 64) && decide (line * 64 < e.base + e.length)

/-- The line's copy has been read (Table 2.4). -/
def reachedCopy (s : State) (line : Nat) : Bool :=
  s.dm.ch.toList.any fun c => match c.copy, c.desc with
    | true, some d => decide (d.src % 2 ^ 36 ≤ line * 64) && decide (line * 64 < d.src % 2 ^ 36 + c.issued)
    | _, _ => false

/-- The line is not copied yet: a write of it goes to the source only, and its copy will read it (R98, Table 2.4). -/
def uncopied (s : State) (line : Nat) : Bool := planned s line && !reachedCopy s line

/-- The line's copy is not verified yet, so that only the source holds its current data. -/
def unverifiedCopy (s : State) (line : Nat) : Bool := planned s line && !passedCopy s line

/-- Where a write of a duet line goes (R94, R98, cell n8). In MIRROR_DEGRADED it is the survivor, which SOURCE names, whatever
else is seated (R97). In MIGRATE_COPY with a worn-out source, copied lines go to the destination only (chapter 03, Corners). -/
def writeHomes (s : State) (line : Nat) : List (Slot × Nat) :=
  let src := s.duet.source
  match s.duet.state with
  | .none => []
  | .soloA => [(.a, line)]
  | .soloB => [(.b, line)]
  | .span | .spanDegraded => [spanHome line]
  | .mirror => [(.a, line), (.b, line)]
  | .mirrorDegraded => [(src, line)]
  | .mirrorResync | .migrateCopy =>
    if uncopied s line then [(src, line)]
    else if s.duet.noAbort then [(src.other, line)] else [(src, line), (src.other, line)]
  | .migrateCut => [(src, line), (src.other, line)]

/-- The duet state has a member missing that the line's home may be on, and the cartridges that hold it. -/
def homesServed (s : State) (line : Nat) : List (Slot × Nat) :=
  (writeHomes s line).filter fun h => (s.slot h.1).serves

/-- A line-write holds the bank, from its issue to its last sense; a write inhibit ends the hold (R105, R128). -/
def bankHeld (s : State) (x : Slot) (bank : Fin 128) : Bool :=
  s.md.writes.any fun w => decide (w.slot = x) && decide (bankOf w.cline = bank) && !w.held

/-- The media link carries requests: not while it trains or is down (Table 3.2). -/
def linkReady (s : State) (x : Slot) : Bool := decide ((s.slot x).link = .active) || decide ((s.slot x).link = .idle)

/-- Where a read of a duet line is served (R94): in MIRROR by the less busy bank, slot A in a tie; during a copy by the
source, or by the destination where the source is gone and the line is copied. -/
def readHome (s : State) (line : Nat) : Option (Slot × Nat) :=
  let busy := fun (h : Slot × Nat) => bankHeld s h.1 (bankOf h.2) || !linkReady s h.1
  let hs := match s.duet.state with
    | .mirrorResync | .migrateCopy | .migrateCut =>
      (if unverifiedCopy s line then [(s.duet.source, line)] else [(s.duet.source, line), (s.duet.source.other, line)])
    | .mirror => [(.a, line), (.b, line)]
    | _ => writeHomes s line
  let served := hs.filter fun h => (s.slot h.1).serves
  match s.duet.state with
  | .mirror => (served.find? fun h => !busy h) <|> served.head?
  | _ => served.head?

/-! ### Wear and its counters (R83, R106, R162) -/

/-- Wear units of a line-write (Table 4.2). -/
def Tempo.price : Tempo → Nat
  | .presto => 4
  | _ => 1

/-- META.TEMPO (Table 4.6). -/
def Tempo.bits : Tempo → BitVec 2
  | .presto => 1
  | .moderato => 2
  | .lento => 3

/-- The tempo of a META.TEMPO or TN_MODE.TEMPO value; 00b reads as moderato (Table 4.3). -/
def tempoOf (b : BitVec 2) : Tempo :=
  if b = 1 then .presto else if b = 3 then .lento else .moderato

/-- A counter of a context and the engine total with it (R162). -/
def count (c : Ctx) (f : Counters → Counters) (s : State) : State :=
  modLive c f { s with lg := { s.lg with totals := f s.lg.totals } }

/-- The line-write counter of a tempo (Table 6.1). -/
def addWrite (t : Tempo) (n : Nat) (k : Counters) : Counters :=
  match t with
  | .presto => { k with wPresto := k.wPresto + BitVec.ofNat 40 n }
  | .moderato => { k with wMod := k.wMod + BitVec.ofNat 40 n }
  | .lento => { k with wLento := k.wLento + BitVec.ofNat 40 n }

/-- Line-writes with their wear. -/
def addWear (t : Tempo) (n : Nat) (k : Counters) : Counters :=
  { addWrite t n k with wear := k.wear + BitVec.ofNat 40 (n * t.price) }

/-- Engine-view spent of a slot's cartridge (R83). -/
def spentOf (t : CtSlot) : Nat := t.svSpent + t.uncharged

/-- Engine-view spent grows; at 90 % of the budget EOL_WARN is set and CART_EOL_WARN logged once (R84). -/
def chargeSlot (x : Slot) (units : Nat) (s : State) : State :=
  let s := modSlot x (fun t => { t with uncharged := t.uncharged + units }) s
  let t := s.slot x
  if !t.eolWarn ∧ t.identified ∧ t.budget * 9 ≤ spentOf t * 10 then
    raiseSer x cCART_EOL_WARN t.serial (modSlot x (fun t => { t with eolWarn := true }) s)
  else s

/-- Engine-issued line-writes: wear on the cartridge and in the provider's column (Table 4.3, R38). -/
def engineWrites (x : Slot) (t : Tempo) (n : Nat) (s : State) : State :=
  count provider (addWear t n) (chargeSlot x (n * t.price) s)

/-! ### Sensing and decoding (R115, R117, R133) -/

/-- META of a stored line (Table 4.6). -/
def StoredLine.metaWord (l : StoredLine) : BitVec 16 :=
  BitVec.ofNat 16 ((if l.poison then 2 ^ 15 else 0) + l.tempo.toNat * 2 ^ 13 + (if l.fresh then 2 ^ 12 else 0) + l.version.toNat * 2 ^ 8)

/-- Bytes 0–63 as they leave the crypto lane (R113, R145); those of a line as made are not encrypted. -/
def StoredLine.cipher (l : StoredLine) : Line :=
  if l.fresh then l.data else xtsEncrypt (Config.keyBits l.keyCtx l.keyGen) l.tweak l.data

/-- What the cells of a line hold at a cartridge line address, with the virtual prefix they were written for (R113, R114). -/
def StoredLine.cells (l : StoredLine) (c : Nat) : BitVec 640 := encodeLine c l.cipher l.metaWord ^^^ l.err

/-- Bytes 0–63 with some of their bits the other way round, as a key decrypts them (R145). -/
def StoredLine.flipped (l : StoredLine) (d : Line) : Line :=
  if d = 0 then l.data
  else if l.fresh then l.data ^^^ d
  else xtsDecrypt (Config.keyBits l.keyCtx l.keyGen) l.tweak (l.cipher ^^^ d)

/-- The line that a decode gives where some bits stay wrong: none of a pattern of up to 4 (R115). -/
def StoredLine.seen (l : StoredLine) (wrong : BitVec 640) : StoredLine :=
  if wrong = 0 then { l with err := 0 }
  else
    let m := l.metaWord ^^^ errMeta wrong
    { l with
        data := l.flipped (errData wrong), poison := bit m 15, tempo := BitVec.ofNat 2 (fld m 13 2), fresh := bit m 12
        version := BitVec.ofNat 4 (fld m 8 4), err := 0 }

/-- The line's raw data as sensed with a pattern of wrong bits, re-encoded with POISON = 1 (R112, R117). -/
def StoredLine.poisoned (l : StoredLine) (wrong : BitVec 640) : StoredLine :=
  { l with data := l.flipped (errData wrong), poison := true, fresh := false, version := 1, err := 0 }

/-- What a decode, with its second sense, comes to (R117): the corrected bits with those that stay wrong, or its code. -/
inductive Reading where
  | good (bits : Nat) (wrong : BitVec 640)
  | bad (code : BitVec 8)
  deriving DecidableEq, Repr

/-- One sense of a stored line; after correction a line of another format version is uncorrectable (R115, R116). -/
def readOnce (l : StoredLine) (e : BitVec 640) : Reading :=
  match senseOnce (l.err ^^^ e) with
  | .decoded n w => if (l.seen w).version = 1 then .good n w else .bad cMD_FORMAT
  | .misdirect => .bad cMISDIRECT
  | .uncorrectable => .bad cUNCORR

/-- One read of a stored line: the first sense, and a 40 ns sense where it is uncorrectable (R117). -/
def readLineCells (l : StoredLine) (e : Sense) : Reading :=
  match readOnce l e.first with
  | .good n w => .good n w
  | .bad _ => readOnce l e.again

/-- The stored line of a cartridge address; one never written is as made (R116). -/
def lineAt (c : Cart) (cline : Nat) : StoredLine := (look cline c.lines).getD {}

/-- The seated cartridge's stored line. -/
def lineOn (s : State) (x : Slot) (cline : Nat) : StoredLine :=
  match (s.slot x).cart with
  | some c => lineAt c cline
  | none => {}

/-- A stored line replaced on the seated cartridge. -/
def storeLine (x : Slot) (cline : Nat) (l : StoredLine) : State → State :=
  modCart x fun c => { c with lines := insertKey cline l c.lines }

/-- MD_INJECT_ADDR names the line (Table 4.22). -/
def injNames (s : State) (x : Slot) (cline : Nat) : Bool :=
  s.md.injArmed && decide (s.md.injAddr = addrD0 x cline)

/-- `n` of the positions in a list, which the engine chooses (R133; free, log 4): the first where the count says, the next among
those that remain. -/
def chosenBits : Nat → Nat → List Nat → Nat
  | 0, _, _ => 0
  | n + 1, k, l =>
    let i := (Config.freeBits 10 k).toNat % max l.length 1
    2 ^ l.getD i 0 + chosenBits n (k + 1) (l.eraseIdx i)

/-- COUNT stored bits flipped at positions the engine chooses (R133). -/
def injectedBits (s : State) : BitVec 640 := BitVec.ofNat 640 (chosenBits s.md.injCount.toNat s.freeCtr (List.range 608))

/-- The sense of a line with an armed read injection: the same bits flipped at both senses (R133). -/
def injected (s : State) (x : Slot) (cline : Nat) (e : Sense) : Sense :=
  if injNames s x cline && !s.md.injStored then
    { first := e.first ^^^ injectedBits s, again := e.again ^^^ injectedBits s }
  else e

/-- COUNT = 0 injects poison (R133). -/
def injPoison (s : State) (x : Slot) (cline : Nat) : Bool :=
  injNames s x cline && !s.md.injStored && decide (s.md.injCount = 0)

/-- ARM clears when a read injection has acted. -/
def disarmRead (x : Slot) (cline : Nat) (s : State) : State :=
  if injNames s x cline && !s.md.injStored then nextFree { s with md := { s.md with injArmed := false } } else s

/-- A written line with an armed stored injection acting on it, after its verify has passed (R133). -/
def injectStored (x : Slot) (cline : Nat) (l : StoredLine) (s : State) : State × StoredLine :=
  if injNames s x cline && s.md.injStored then
    (nextFree { s with md := { s.md with injArmed := false } },
      if s.md.injCount = 0 then { l with poison := true } else { l with err := l.err ^^^ injectedBits s })
  else (s, l)

/-- A line-write that passed verify leaves its line on the cartridge (R109, R133). -/
def writeLine (x : Slot) (cline : Nat) (l : StoredLine) (s : State) : State :=
  let (s, l) := injectStored x cline l s
  storeLine x cline l s

/-- MD_ERR_ADDR and MD_ERR_INFO keep the last UNCORR, MISDIRECT, PWF or POISON_MERGE until read (Table 4.19). -/
def noteError (x : Slot) (cline : Nat) (code : BitVec 8) (ctx : BitVec 8) (weight : BitVec 4) (s : State) : State :=
  if s.md.errValid || decide (code = cMD_FORMAT) then s
  else { s with md := { s.md with
    errAddr := addrD0 x cline, errValid := true, errCode := code, errCtx := ctx, errWeight := weight } }

/-- A General Media Event record (R234, R242): into the failure log, the oldest records kept on overflow (log 12). -/
def mediaEvent (dpa : Nat) (code : BitVec 8) (s : State) : State :=
  if !s.hl.effCxl then s else
    let l := s.hl.mbox[(2 : Fin 4)]
    if l.length < 64 then { s with hl := { s.hl with mbox := s.hl.mbox.set 2 (l ++ [⟨dpa, code⟩]) } }
    else { s with hl := { s.hl with mboxOver := s.hl.mboxOver.set 2 true } }

/-- An event in form ADDR (Table 13.4). -/
def raiseAddr (unit : BitVec 5) (code ctx : BitVec 8) (flags : BitVec 4) (x : Slot) (cline off tries : Nat)
    (tempo : BitVec 2) (reloc : Bool) : State → State :=
  raiseF unit code ctx flags (addrD0 x cline) (lo32 off) (put tries 0 ||| put tempo.toNat 8 ||| putB reloc 16)

/-- The CONTEXT byte of a context counted for a read: the provider column stands for the engine's own reads (R117). -/
def addCorr (k : Counters) : Counters := { k with errCorr := k.errCorr + 1 }
def addHard (k : Counters) : Counters := { k with errHard := k.errHard + 1 }

/-- A data-path refusal is counted (R193, Table 6.1). -/
def addRefused (k : Counters) : Counters := { k with errRefused := k.errRefused + 1 }

/-- The offset of a media line inside a context's partition, in lines; 0 outside it. -/
def partLine (s : State) (c : Ctx) (line : Nat) : Nat := line - (s.tenant c).base.toNat * mibLines

/-- A request on a slot's media link: an IDLE link becomes ACTIVE, and its use is noted (R69, R70). -/
def useLink (x : Slot) (s : State) : State :=
  modSlot x (fun t => { t with linkUse := s.now, flitFails := 0, link := if t.link = .idle then .active else t.link }) s

/-- Index of a bank among the 256. -/
def bankNo (x : Slot) (bank : Fin 128) : Fin 256 := ⟨x.num * 128 + bank.val, by cases x <;> simp [Slot.num] <;> omega⟩

/-- A request on a bank: its domain is open, and its link in use (R48, R69, R318). -/
def touchBank (x : Slot) (cline : Nat) (s : State) : State :=
  useLink x { s with gl := { s.gl with bankLast := s.gl.bankLast.set (bankNo x (bankOf cline)) s.now } }

/-- A read of one cartridge line: counts, events, queued rewrites, and what came of it (R117, R133). -/
def senseLine (x : Slot) (cline : Nat) (who : Ctx) (off : Nat) (e : Sense) (s : State) : State × Reading :=
  let l := lineOn s x cline
  let r := readLineCells l (injected s x cline e)
  let s := touchBank x cline (disarmRead x cline s)
  match r with
  | .good 0 _ => (s, r)
  | .good n _ =>
    let s := count who addCorr { s with md := { s.md with errCorr := s.md.errCorr + 1 } }
    if s.md.rewrite ≤ n then
      ({ s with md := { s.md with rewrites := s.md.rewrites ++ [⟨x, cline, false, who.val⟩] } }, r)
    else (s, r)
  | .bad code =>
    let s := { s with md := { s.md with
      errUncorr := s.md.errUncorr + 1, rewrites := s.md.rewrites ++ [⟨x, cline, true, who.val⟩] } }
    let s := noteError x cline code (ctxByte who) 0xF s
    let s := raiseAddr uMD code (ctxByte who) 0 x cline off 0 l.tempo false s
    (mediaEvent (mediaLine s x cline * 64) code (count who addHard s), r)

/-- The data of a stored line as a context's key decrypts them (R145, R147): a FRESH line reads as zeros. -/
def plain (s : State) (l : StoredLine) (who : Ctx) (tweak : Nat) : Line :=
  let t := s.tenant who
  if l.fresh then 0
  else if l.keyCtx = who.val ∧ l.keyGen = t.keyNo ∧ l.tweak = tweak then l.data
  else xtsDecrypt (Config.keyBits who.val t.keyNo) tweak l.cipher

/-- What a context reads of a cartridge line: none is poison (R117, R118). -/
def readMedia (x : Slot) (cline : Nat) (who : Ctx) (tweak : Nat) (e : Sense) (s : State) : State × Option Line :=
  let l := lineOn s x cline
  let pz := injPoison s x cline
  let (s, r) := senseLine x cline who tweak e s
  match r with
  | .bad _ => (s, none)
  | .good _ w =>
    let l := l.seen w
    if l.poison || pz then (count who addHard s, none) else (s, some (plain s l who tweak))

/-- A read of a line of a reserved area by the engine itself: `record` stands there where its cells hold no error; none is
poison. -/
def reservedRead (x : Slot) (cline : Nat) (record : Line) (e : Sense) (s : State) : State × Option Line :=
  let held := (s.slot x).cart.elim none fun c => look cline c.lines
  let l : StoredLine := match held with
    | some l => { l with fresh := true }
    | none => { data := record }
  let pz := injPoison s x cline
  match senseLine x cline provider 0 e s with
  | (s, .bad _) => (s, none)
  | (s, .good _ w) =>
    let l := l.seen w
    if l.poison || pz then (count provider addHard s, none) else (s, some l.data)

/-- The newest dirty slot of a media line (Table 2.4: a read returns the written value). -/
def dirtyOf (s : State) (line : Nat) : Option HoldSlot := s.pc.slots.reverse.find? fun h => h.media = line

/-- What a context reads of a line of its partition: the dirty slot over the media (R119); none is poison. -/
def readLine (who : Ctx) (off line : Nat) (e : Sense) (s : State) : State × Option Line :=
  let media := fun (s : State) => match readHome s line with
    | some (x, c) => readMedia x c who off e s
    | none => (count who addHard s, none)
  match dirtyOf s line with
  | none => media s
  | some h =>
    if h.poison then (count who addHard s, none)
    else if h.mask = fullMask then (s, some h.data)
    else match media s with
      | (s, some d) => (s, some (mergeLine d h.data h.mask))
      | (s, none) => (s, none)

/-! ### MISSING and reading the duet (R97) -/

/-- A read of a media line can be made now: from its dirty slot alone, or from a bank that no line-write holds, over a link that
carries requests (R70, R105). -/
def lineReady (s : State) (line : Nat) : Bool :=
  match dirtyOf s line, readHome s line with
  | some h, some (x, c) => h.poison || decide (h.mask = fullMask) || (linkReady s x && !bankHeld s x (bankOf c))
  | none, some (x, c) => linkReady s x && !bankHeld s x (bankOf c)
  | _, none => true

/-- The line's cartridge is out of service and holds its only current copy. -/
def missingLine (s : State) (line : Nat) : Bool :=
  (homesServed s line).isEmpty && !(writeHomes s line).isEmpty

/-- The user capacity in MiB of a slot's cartridge, 0 where it is not identified. -/
def slotMib (t : CtSlot) : Nat := if t.identified then t.userGib.toNat * 1024 else 0

/-- The capacity of the cartridge that the duet counts for a slot: as identified there, or earlier in this start (R136). -/
def countedMib (s : State) : Slot → Nat
  | .a => if (s.slot .a).serves then slotMib s.ct.a else s.duet.mibA
  | .b => if (s.slot .b).serves then slotMib s.ct.b else s.duet.mibB

/-- User capacity of the duet in effect, in MiB: the sum of a span, else the smallest among the cartridges in service (R136); of a
missing cartridge, what was identified in this start. -/
def duetMib (s : State) : Nat :=
  let a := countedMib s .a
  let b := countedMib s .b
  match s.duet.state with
  | .none => 0
  | .soloA => a
  | .soloB => b
  | .span | .spanDegraded => a + b
  | .mirrorDegraded => if s.duet.source = .a then a else b
  | .mirror | .mirrorResync | .migrateCopy | .migrateCut =>
    if s.duet.inA && s.duet.inB then min a b else if s.duet.inA then a else b

/-- The hold target (R32): none where no cartridge can receive a drain (R97). -/
def holdTarget (s : State) : Option Slot :=
  let ok := fun x => if (s.slot x).serves then some x else none
  match s.duet.state with
  | .none => none
  | .soloA => ok .a
  | .soloB => ok .b
  | .span | .spanDegraded | .mirror => (ok .a) <|> (ok .b)
  | .mirrorDegraded | .mirrorResync | .migrateCopy | .migrateCut => ok s.duet.source

/-- Some bank of a cartridge in service has used or retired 224 spares (R111, Table 4.12). -/
def spareLow (s : State) : Bool :=
  (serving s).any fun x => match (s.slot x).cart with
    | some c => c.relocs.any fun r => decide (224 ≤ sparesUsed c r.bank)
    | none => false

end Sys2Proof.Machine
end

