-- ==== Sys2Proof/Machine/Hold.lean ====
section
/-! DEFINITION. The hold buffer: energy, sizing and caps, tags and tokens, admission, and the freeing of slots
(chapters 01, 02, 05). -/

namespace Sys2Proof.Machine

/-! ### Energy (R27, R29, R30, Table 1.2) -/

def eFix : Nat := 6000000
def eKs : Nat := 350000
def eLine : Nat := 256
def eStep : Nat := 4096 * eLine

/-- E_avail in nJ for a capacitance in µF, a resistance in mΩ and a voltage in 10 mV, rounded down (R27). -/
def energyNj (capUf esrMohm v10mv : Nat) : Nat :=
  let v := v10mv * 1000
  let floor := 550000 + 291 * esrMohm
  45 * capUf * (v * v - floor * floor) / 1000000000

/-- Steps of 256 KiB that an energy pays for (R27). -/
def stepsOf (nj : Nat) : Nat := min 32 ((nj - (eFix + eKs)) / eStep)

/-- Hold slots of the book: a slot admitted while the energy pays for no step takes none (log 9). -/
def dirty (s : State) : Nat := (s.pc.slots.filter fun h => !h.direct).length

/-- PC_ENERGY_RSVD in nJ (R29), with a REMEASURE step's energy (R293). -/
def rsvdNj (s : State) : Nat :=
  eFix + (if s.ks.busy.isSome then eKs else 0) + eLine * dirty s + s.pc.stepNj

/-- The effective cap in steps and in lines (R24). -/
def effSteps (s : State) : Nat := min s.pc.sized (min s.pc.live s.pc.limit)
def capLines (s : State) : Nat := effSteps s * 4096

/-- The slot book (R24): free and fenced slots. -/
def slotsFree (s : State) : Nat := capLines s - dirty s
def slotsFenced (s : State) : Nat := 131072 - max (capLines s) (dirty s)

/-- PC_STATUS.POSTED_OK: a size of 0 refuses posted mode until a start that sizes at least one step (R28). -/
def postedOk (s : State) : Bool := decide (1 ≤ s.pc.sized) && !s.pc.refused

/-- The engine serves every write at the verified point whatever its mode (R28, R30; R297, R298: a run and TEST). -/
def forcedVerified (s : State) : Bool := !postedOk s || s.pc.live = 0 || s.pw.state = .test || s.bt.run = 1

/-- The configured mode and tempo that requests of this cycle meet: a TN_MODE write acts from the cycle after it (R18, R107). -/
def modeNow (s : State) (c : Ctx) : Bool × Tempo :=
  let t := s.tenant c
  if t.modeSet = some s.now then (t.wasPersist, t.wasTempo) else (t.persist, t.tempo)

/-- The mode a context's writes registered now are served at (R18, R28). -/
def servedVerified (s : State) (c : Ctx) : Bool := c = provider || (modeNow s c).1 || forcedVerified s

/-- TN_MODE.EFF_VERIFIED (R28). -/
def effVerified (s : State) (c : Ctx) : Bool := c = provider || (s.tenant c).persist || !postedOk s

/-- The live recomputation (R30): C and ESR of the last measurement, or those of R316 until HOLDUP has reported. -/
def recompute (v10mv : BitVec 16) (s : State) : State :=
  let nj := if s.pc.measured then energyNj s.pc.capUf s.pc.esrMohm v10mv.toNat else energyNj 235 160 v10mv.toNat
  let live := min (stepsOf nj) s.pc.sized
  let fell := decide (live < s.pc.sized)
  let was := s.pc.degraded
  let s := { s with pc := { s.pc with availNj := nj, live10mv := v10mv, live := live, degraded := fell } }
  if fell && !was then
    let s := raise uPC cHOLD_DEGRADED (ctxByte provider) (lo32 live) (lo32 s.pc.sized) 0 s
    { s with hl := { s.hl with pfAer := { s.hl.pfAer with corrInternal := true } } }
  else s

/-! ### Tokens (R140, R141) -/

/-- The bucket holds at least `k` whole tokens that were in it before this cycle, or there is none (R51, R140). -/
def hasTokens (s : State) (c : Ctx) (k : Nat) : Bool :=
  let t := s.tenant c
  t.unlimited || decide (16 * k + (t.fresh.at s.now - t.cut.at s.now) ≤ t.tokens)

/-- A request has the tokens it needs: none where it was registered without a limit (R138, R141). -/
def reqTokens (s : State) (r : Req) (k : Nat) : Bool := r.unlimited || hasTokens s r.ctx k

/-- `k` tokens are spent: of a refill of the same cycle, what was cut off at the cap fits into the room they leave (R140). -/
def spendTokens (c : Ctx) (k : Nat) (s : State) : State :=
  modTenant c (fun t =>
    if t.unlimited then t
    else
      let back := min (16 * k) (min (t.cut.at s.now) t.discarded)
      { t with
          tokens := t.tokens + back - 16 * k, spent := t.spent + 16 * k, discarded := t.discarded - back
          cut := ⟨s.now, t.cut.at s.now - back⟩ }) s

/-! ### Retiring (R53) -/

/-- A request leaves the pipeline; a CXL write's Cmp is sent (Table 1.1). -/
def retire (id : Nat) (s : State) : State :=
  match s.gl.ingress.find? fun r => r.id = id with
  | none => s
  | some r =>
    let s := dropTag? r.tag s
    let s := { s with gl := { s.gl with ingress := s.gl.ingress.filter fun q => decide (q.id ≠ id) } }
    if s.hl.effCxl && r.write then send (.completion r.fn .cmp false []) none s else s

/-- The entry of a context's share is freed, to be taken again from the next cycle (R51): the effective share falls toward the
share (R143). -/
def freeShare (c : Ctx) (s : State) : State :=
  modTenant c (fun t => { t with
    shareEff := if t.share.toNat < t.shareEff then t.shareEff - 1 else t.shareEff, relShare := t.relShare.add s.now 1 }) s

/-- A staging entry is freed, to be taken again from the next cycle (R51, R61). -/
def freeStaging (write : Bool) (s : State) : State :=
  if write then { s with gl := { s.gl with relPosted := s.gl.relPosted.add s.now 1 } }
  else { s with gl := { s.gl with relNonPosted := s.gl.relNonPosted.add s.now 1 } }

/-- The entry that a request holds before its tag is freed. -/
def freeEntry (stage : Stage) (write : Bool) (c : Ctx) (s : State) : State :=
  match stage with
  | .staging => freeStaging write s
  | .share => freeShare c s
  | .tagged => s

/-- A request changed. -/
def modReq (id : Nat) (f : Req → Req) (s : State) : State :=
  { s with gl := { s.gl with ingress := update (fun r => r.id = id) f s.gl.ingress } }

/-- A verified line of a request has passed verify; the request retires with its last line (R19, R53). -/
def lineVerified (id : Nat) (s : State) : State :=
  let s := modReq id (fun r => { r with unverified := r.unverified - 1 }) s
  match s.gl.ingress.find? fun r => r.id = id with
  | some r => if r.parts.isEmpty && decide (r.unverified = 0) then retire id s else s
  | none => s

/-- A slot's line has passed verify: the slot is free from the next cycle (R51), and its requests go on; a barrier reads the
slots itself (R211). -/
def slotDone (id : Nat) (s : State) : State :=
  match s.pc.slots.find? fun h => h.id = id with
  | none => s
  | some h =>
    let rel := if h.direct then s.pc.relSlots else s.pc.relSlots.add s.now 1
    let s := { s with pc := { s.pc with slots := s.pc.slots.filter (fun g => decide (g.id ≠ id)), relSlots := rel } }
    h.reqs.foldl (fun s r => lineVerified r s) s

/-- One home of a slot has passed verify; the slot is freed when none is left (R24, cell n8). -/
def homeDone (id : Nat) (x : Slot) (cline : Nat) (s : State) : State :=
  let drop := fun (h : HoldSlot) => { h with left := h.left.filter fun l => decide (l ≠ (x, cline)) }
  let slots := update (fun h => h.id = id) drop s.pc.slots
  let s := { s with pc := { s.pc with slots := slots } }
  match s.pc.slots.find? fun h => h.id = id with
  | some h => if h.left.isEmpty then slotDone id s else s
  | none => s

/-! ### Admission (R24, R25, R29, R85, R107, R119, R144) -/

/-- What became of a line at the admission point. -/
inductive Admitted where
  | done (slot : Nat)
  | wait
  | refused (code : BitVec 8)
  deriving DecidableEq, Repr

/-- Who writes a line: a host request, or a DMA channel. -/
structure Writer where
  ctx      : Ctx
  verified : Bool
  /-- The cycle of the registration and the rank of Table 2.2 (R52). -/
  cycle    : Nat
  rank     : Nat
  /-- The wear quota it is judged by (R138, R144). -/
  quota    : Word
  req      : Option Nat
  chan     : Option (Fin 32)
  deriving DecidableEq, Repr

/-- The tempo of a context's writes (R107, R108). -/
def writeTempo (s : State) (c : Ctx) : Tempo := if c = provider then .moderato else (modeNow s c).2

/-- The dirty slot a write merges into: the line's newest, while its media write is not issued (R25). -/
def mergeSlot (s : State) (line : Nat) : Option HoldSlot :=
  match dirtyOf s line with
  | some h => if h.issued then none else some h
  | none => none

/-- The homes of a write, with the copied lines of a worn-out source going to the destination only (chapter 03, Corners). -/
def admitHomes (s : State) (line price : Nat) : List (Slot × Nat) :=
  let hs := writeHomes s line
  if s.duet.state = .migrateCopy ∧ ¬ uncopied s line ∧ (s.slot s.duet.source).serves
      ∧ (s.slot s.duet.source).budget < spentOf (s.slot s.duet.source) + price
  then [(s.duet.source.other, line)] else hs

/-- The price would exceed the budget of a cartridge in service that the write goes to (R85). -/
def wearOutAt (s : State) (homes : List (Slot × Nat)) (price : Nat) : Option (Slot × Nat) :=
  homes.find? fun h => (s.slot h.1).serves && decide ((s.slot h.1).budget < spentOf (s.slot h.1) + price)

/-- QUOTA_HIT is set and logged once for the minute (R144). -/
def quotaHit (c : Ctx) (s : State) : State :=
  let t := s.tenant c
  if t.quotaHit then s
  else raise uTN cQUOTA_HIT (ctxByte c) t.quota (lo32 t.used) 0 (modTenant c (fun t => { t with quotaHit := true }) s)

/-- The energy pays for no step: a line is served at the verified point with no slot of the book (R28, R30; DEDUCED, log 9).
A cap of 0 by PC_HOLD_LIMIT closes admission instead (R24). -/
def goesDirect (s : State) : Bool := decide (min s.pc.sized s.pc.live = 0) && decide (s.pc.limit ≠ 0)

/-- Whether a write would take a new slot that the cap or the energy refuses (R24, R29); a slot freed in this cycle is not
free yet (R51). -/
def noRoom (s : State) (line : Nat) : Bool :=
  (mergeSlot s line).isNone && !goesDirect s &&
    (decide (capLines s ≤ dirty s + s.pc.relSlots.at s.now) || decide (s.pc.availNj < rsvdNj s + eLine))

/-- Bytes that a later write of the same cycle has put into the line already: they stay (R52). -/
def bytesUnder (s : State) (w : Writer) (line : Nat) : Mask :=
  match dirtyOf s line with
  | some h => if earlierThan w.cycle w.rank h.stampAt h.stampRank then h.stampMask else 0
  | none => 0

/-- A line that passes every check is admitted: it merges or takes a slot, takes an ASN and is charged its price. -/
def admitNow (w : Writer) (off line : Nat) (data : Line) (mask : Mask) (poison : Bool) (homes : List (Slot × Nat))
    (s : State) : State :=
  let tempo := writeTempo s w.ctx
  let asn := s.pc.asn + 1
  let ver := w.verified || forcedVerified s
  let fresh := mask &&& ~~~ bytesUnder s w line
  let stamp := fun (at' rank : Nat) (m : Mask) => if earlierThan w.cycle w.rank at' rank then (at', rank, m) else (w.cycle, w.rank, mask)
  let s := { s with pc := { s.pc with asn := asn } }
  let s := modTenant w.ctx (fun t => { t with lastAsn := asn, used := t.used + tempo.price }) s
  let first := (homes.find? fun h => (s.slot h.1).serves).map fun h => h.1
  let s := match first with
    | some x => chargeSlot x tempo.price s
    | none => s
  let s := count w.ctx (addWear tempo 1) s
  match mergeSlot s line with
  | some h =>
    let (at', rank, m) := stamp h.stampAt h.stampRank h.stampMask
    let h' : HoldSlot := { h with
      data := mergeLine h.data data fresh, mask := h.mask ||| mask, tempo := tempo, asn := asn
      verAsn := if h.verified then h.verAsn else asn, stampAt := at', stampRank := rank, stampMask := m
      verified := h.verified || ver, poison := poison || (h.poison && decide (mask ≠ fullMask))
      reqs := h.reqs ++ w.req.toList, chans := h.chans ++ w.chan.toList
      left := h.left ++ homes.filter fun x => !h.left.any fun l => decide (l = x) }
    { s with pc := { s.pc with slots := s.pc.slots.filter (fun g => decide (g.id ≠ h.id)) ++ [h'] } }
  | none =>
    let (d0, m0, p0) := match dirtyOf s line with
      | some g => if fresh = fullMask then (0, 0, false) else (g.data, g.mask, g.poison)
      | none => (0, 0, false)
    let (at', rank, m) := match dirtyOf s line with
      | some g => stamp g.stampAt g.stampRank g.stampMask
      | none => (w.cycle, w.rank, mask)
    let h : HoldSlot :=
      { id := s.pc.nextSlot, ctx := w.ctx, off := off, media := line, data := mergeLine d0 data fresh, mask := m0 ||| mask
        tempo := tempo, verified := ver, poison := poison || p0, asn := asn, verAsn := asn, stampAt := at', stampRank := rank
        stampMask := m, issued := false, left := homes, first := first.getD .a
        reqs := w.req.toList, chans := w.chan.toList, direct := goesDirect s }
    { s with pc := { s.pc with slots := s.pc.slots ++ [h], nextSlot := s.pc.nextSlot + 1 } }

/-- The slot a line just admitted is in. -/
def admittedIn (s : State) (line : Nat) : Nat :=
  match dirtyOf s line with
  | some h => h.id
  | none => 0

/-- A line at the admission point: refused, held back, or admitted. -/
def admitWrite (w : Writer) (off line : Nat) (data : Line) (mask : Mask) (poison : Bool) (s : State) : State × Admitted :=
  let tempo := writeTempo s w.ctx
  let price := tempo.price
  let t := s.tenant w.ctx
  let homes := admitHomes s line price
  if (homes.filter fun h => (s.slot h.1).serves).isEmpty then (s, .refused cWRONG_STATE)
  else if noRoom s line then (s, .wait)
  else match wearOutAt s homes price with
  | some (x, cl) =>
    let s := modSlot x (fun t => { t with wearOut := true }) s
    (raiseAddr (uCT x) cWEAR_OUT (ctxByte w.ctx) 0 x cl off 0 tempo.bits false s, .refused cWEAR_OUT)
  | none =>
    if w.quota.toNat ≠ 0xFFFFFFFF ∧ w.quota.toNat < price then (s, .refused cRANGE)
    else if w.quota.toNat ≠ 0xFFFFFFFF ∧ w.quota.toNat < t.used + price then (quotaHit w.ctx s, .wait)
    else
      let s := if homes = writeHomes s line then s
        else { s with duet := { s.duet with noAbort := true } }
      let s := admitNow w off line data mask poison homes s
      (s, .done (admittedIn s line))

/-! ### Flushes (R22, R23, R232) -/

/-- A hold slot's write is not at its durability point yet. -/
def notDurable (s : State) (id : Nat) : Bool :=
  s.pc.slots.any fun h => decide (h.id = id) && h.verified

/-- Every covered write is durable (Table 1.1). -/
def flushDurable (s : State) (f : Flush) : Bool :=
  f.lost.isNone && f.reqs.all (fun r => !s.gl.ingress.any fun q => decide (q.id = r)) && f.slots.all fun id => !notDurable s id

/-- The hold slots whose durability a flush waits for: those covered at its registration, and those its covered
requests were admitted to since. -/
def flushPending (s : State) (f : Flush) : List HoldSlot :=
  s.pc.slots.filter fun h => h.verified &&
    (f.slots.any (fun id => decide (id = h.id)) || h.reqs.any fun r => f.reqs.any fun q => decide (q = r))

/-- The largest ASN up to which every covered write is durable (R23). -/
def durableAsn (s : State) (f : Flush) : Nat :=
  (flushPending s f).foldl (fun m h => min m (h.verAsn - 1)) (f.lost.elim s.pc.asn fun n => n - 1)

/-- The contexts a flush covers (R232, Table 1.14): a zero-length read of the PF covers the provider context and
every window-exposed tenant. -/
def covers (s : State) (scope : FlushScope) (zero : Option Fn) (c : Ctx) : Bool :=
  match scope, zero with
  | .tenant t, _ => decide (c.val = t.val)
  | _, some .pf => decide (c = provider) || !tenantExposed s c.val
  | _, _ => true

/-- A context that is disabled or locked against writes (R137). -/
def writeLocked (t : Tenant) : Bool := !t.enable || decide (t.lock ≠ .opened)

/-- The context whose share and whose tags a flush read takes. -/
def flushCtx : FlushScope → Ctx
  | .tenant t => ⟨t.val, by omega⟩
  | _ => provider

/-- A flush as it is registered (R22): the writes of its contexts registered before it; of a locked tenant, those
admitted before the lock took effect (R137). It stands in staging as every read does (R61). -/
def newFlush (scope : FlushScope) (zero : Option Fn) (read : Option (Fn × Bar × Nat × Nat)) (s : State) : Flush :=
  { id := s.pc.nextFlush, scope := scope, zero := zero, read := read, cycle := s.now, before := s.gl.nextReq
    stage := .staging, ctx := flushCtx scope, tag := none
    reqs := (s.gl.ingress.filter fun r =>
      r.write && covers s scope zero r.ctx && (!writeLocked (s.tenant r.ctx) || r.parts.isEmpty)).map fun r => r.id
    slots := (s.pc.slots.filter fun h => h.verified && covers s scope zero h.ctx
      && (!writeLocked (s.tenant h.ctx) || decide (h.asn ≤ (s.tenant h.ctx).lockAsn))).map fun h => h.id
    asn := s.pc.asn
    waits := (indices 129).filterMap fun c =>
      if (s.tenant c).failMsg && covers s scope zero c then some c.val else none
    lost := none }

end Sys2Proof.Machine
end

