-- ==== Sys2Proof/Machine/Refuse.lean ====
section
/-! DEFINITION. Refused requests on the host link: their record, their count, and what the link and the AER of the function show
(R234, Table 8.5). -/

namespace Sys2Proof.Machine

/-- An AER error of a function (Table 8.6). -/
def modAer (fn : Fn) (f : Aer → Aer) (s : State) : State :=
  match fn with
  | .pf => { s with hl := { s.hl with pfAer := f s.hl.pfAer } }
  | .vf v => { s with hl := { s.hl with vfAer := modAt s.hl.vfAer v f } }

/-- A function logs a request's header, where it holds none (R234, Table 8.6). -/
def logHeader (t : Tlp) (a : Aer) : Aer := { a with log := a.log <|> some t, logOver := a.logOver || a.log.isSome }

/-- An Unsupported Request is signalled, with the request's header logged (R234). -/
def signalUr (t : Tlp) : State → State := modAer t.fn fun a => logHeader t { a with unsupported := true }

/-- The HL_REFUSE registers take the most recent refusal (R234, Table 8.14; DEDUCED, log 23). -/
def recordRefusal (fn : Fn) (c : Option Ctx) (write : Bool) (code : BitVec 8) (off : Nat) (s : State) : State :=
  { s with hl := { s.hl with
      refValid := true, refWrite := write, refCode := code, refCtx := c.elim noCtx ctxByte
      refFn := if s.hl.effCxl then 0 else BitVec.ofNat 8 fn.num, refOff := BitVec.ofNat 64 off } }

/-- A refused media request: its record, its count, the context's ERR_REFUSED, and what the link shows of it besides a
PCIe read's completion. In the CXL personality the record names the DPA. -/
def noteRefusal (t : Tlp) (c : Option Ctx) (code : BitVec 8) (off dpa : Nat) (s : State) : State :=
  let s := recordRefusal t.fn c t.write code (if s.hl.effCxl then dpa else off) s
  let s := { s with hl := { s.hl with refCount := s.hl.refCount + 1 } }
  let s := match c with
    | some c => count c addRefused s
    | none => s
  if !s.hl.effCxl then signalUr t s
  else if t.write then mediaEvent dpa code (send (.completion t.fn .cmp false []) none s)
  else send (.completion t.fn .sc true (List.replicate t.len 0)) none s

/-- A request leaves the pipeline without an effect: its entry and its tag are free from the next cycle (R51). -/
def removeReq (id : Nat) (s : State) : State :=
  match s.gl.ingress.find? fun r => r.id = id with
  | none => s
  | some r =>
    let s := dropTag? r.tag (freeEntry r.stage r.write r.ctx s)
    { s with gl := { s.gl with ingress := s.gl.ingress.filter fun q => decide (q.id ≠ id) } }

/-- A registered write is refused: nothing more of it is admitted (Table 8.5). -/
def refuseWrite (r : Req) (code : BitVec 8) (s : State) : State :=
  noteRefusal r.tlp (some r.ctx) code r.off (r.base * 64 + r.off) (removeReq r.id s)

end Sys2Proof.Machine
end

