-- ==== Sys2Proof/Machine/Ordering.lean ====
section
/-! DEFINITION. The order among requests of the host link and of the DMA channels (R57, R58, Tables 2.2 and 2.4). -/

namespace Sys2Proof.Machine

/-- Lines a byte range touches. -/
def linesOf (off len : Nat) : List Nat := (List.range ((off + len + 63) / 64 - off / 64)).map fun k => off / 64 + k

/-- Media lines that a host read names. -/
def Req.media (r : Req) : List Nat := (linesOf r.off r.len).map fun l => r.base + l

/-- A write of the media line is among the lines of a host write not admitted yet. -/
def Req.writes (r : Req) (line : Nat) : Bool := r.write && r.parts.any fun p => decide (r.base + p.off = line)

/-- The media beats that wait for their admission, with their channel and context. -/
def mediaBeats (s : State) : List (Fin 32 × Ctx × Beat) :=
  (indices 32).flatMap fun (n : Fin 32) =>
    let c := s.dm.ch[n]
    match c.desc with
    | some d => if d.dstSpace = 1 then (c.beats.filter fun b => !b.dropped).map fun b => (n, d.who, b) else []
    | none => []

/-- Among the host requests that come before a write, one holds it back: a write of the line not admitted yet or an unserved read
of it, or a write before a fence of the context (Table 2.4). -/
def hostAhead (s : State) (before : Req → Bool) (c : Ctx) (fence line : Nat) : Bool :=
  s.gl.ingress.any fun q => before q && decide (q.kind = .media) &&
    (if q.write then q.writes line || (!q.parts.isEmpty && decide (q.ctx = c) && decide (q.fence < fence))
     else q.media.any fun m => decide (m = line))

/-- The same among the DMA beats that come before it. -/
def beatAhead (s : State) (before : Fin 32 → Beat → Bool) (c : Ctx) (fence line : Nat) : Bool :=
  (mediaBeats s).any fun e => before e.1 e.2.2 &&
    (decide (e.2.2.line = line) || (decide (e.2.1 = c) && decide (e.2.2.fence < fence)))

/-- A host request of the same cycle as a beat comes before it (Table 2.2). -/
def Req.before (q : Req) (b : Beat) : Bool := decide (q.cycle ≤ b.cycle)

/-- An earlier posted write of the function is not admitted yet (R21, PCIe). -/
def waitsForWrites (s : State) (fn : Fn) (before : Nat) : Bool :=
  !s.hl.effCxl && s.gl.ingress.any fun q => q.write && decide (q.fn = fn) && decide (q.id < before) && !q.parts.isEmpty

/-- An earlier write of one of the lines of a host read is not admitted yet (Table 2.4). -/
def writeAhead (s : State) (r : Req) : Bool :=
  (s.gl.ingress.any fun q => decide (q.id < r.id) && r.media.any fun m => q.writes m)
    || (mediaBeats s).any fun e => !r.before e.2.2 && r.media.any fun m => decide (e.2.2.line = m)

/-- An earlier request holds a line of a host write back (Table 2.4): besides, in PCIe, any earlier write of the function unless the
line's write carries Relaxed Ordering. -/
def heldBack (s : State) (r : Req) (line : Nat) : Bool :=
  hostAhead s (fun q => decide (q.id < r.id)) r.ctx r.fence line
    || beatAhead s (fun _ b => !r.before b) r.ctx r.fence line
    || (!s.hl.effCxl && !r.ro && s.gl.ingress.any fun q =>
      decide (q.id < r.id) && decide (q.kind = .media) && q.write && decide (q.fn = r.fn) && !q.parts.isEmpty)

/-- An earlier request holds a beat of a channel back (R52, Table 2.4). -/
def beatHeld (s : State) (n : Fin 32) (c : Ctx) (b : Beat) : Bool :=
  hostAhead s (fun q => q.before b) c b.fence b.line
    || beatAhead s (fun m a => earlierThan a.cycle (dmaRank m) b.cycle (dmaRank n)) c b.fence b.line

/-- A write of the media line is registered and not admitted yet: a read of now waits for it (Table 2.4). -/
def writeWaits (s : State) (line : Nat) : Bool :=
  (s.gl.ingress.any fun q => q.writes line) || (mediaBeats s).any fun e => decide (e.2.2.line = line)

end Sys2Proof.Machine
end

