-- ==== Sys2Proof/Machine/Hash.lean ====
section
/-! DEFINITION. The check codes and hashes the manual names: CRC-32 (R164), CRC-8 (R248), SHA-256 and HMAC-SHA-256 (R79, R151). -/

namespace Sys2Proof.Machine

/-- One bit of the reflected CRC-32 of R164. -/
def crc32Bit (c : Nat) : Nat := if c % 2 = 1 then (c / 2) ^^^ 0xEDB88320 else c / 2

/-- One byte of CRC-32. -/
def crc32Byte (c : Nat) (b : Byte) : Nat :=
  crc32Bit (crc32Bit (crc32Bit (crc32Bit (crc32Bit (crc32Bit (crc32Bit (crc32Bit (c ^^^ b.toNat))))))))

/-- CRC-32 over bytes (R164): initial value and final inversion all ones. -/
def crc32 (bs : List Byte) : Nat := (bs.foldl crc32Byte 0xFFFFFFFF) ^^^ 0xFFFFFFFF

/-- One bit of the CRC-8 with polynomial 0x07, most significant bit first. -/
def crc8Bit (c : Nat) (b : Bool) : Nat :=
  let top := decide (128 ≤ c) != b
  let c := (c * 2) % 256
  if top then c ^^^ 0x07 else c

/-- CRC-8 over bits in the order they are shifted. -/
def crc8Bits (bs : List Bool) : Nat := bs.foldl crc8Bit 0

/-- The bits of a byte, most significant first. -/
def byteBits (b : Byte) : List Bool := (List.range 8).map fun k => b.getLsbD (7 - k)

/-- CRC-8 over bytes. -/
def crc8 (bs : List Byte) : Nat := crc8Bits (bs.flatMap byteBits)

/-! ### SHA-256 (PRESUMED FIPS 180-4) -/

/-- The 64 round constants in one number, the first in its highest word. -/
def shaTable : Nat :=
  0x428a2f9871374491b5c0fbcfe9b5dba53956c25b59f111f1923f82a4ab1c5ed5d807aa9812835b01243185be550c7dc372be5d7480deb1fe9bdc06a7c19bf174e49b69c1efbe47860fc19dc6240ca1cc2de92c6f4a7484aa5cb0a9dc76f988da983e5152a831c66db00327c8bf597fc7c6e00bf3d5a7914706ca63511429296727b70a852e1b21384d2c6dfc53380d13650a7354766a0abb81c2c92e92722c85a2bfe8a1a81a664bc24b8b70c76c51a3d192e819d6990624f40e3585106aa07019a4c1161e376c082748774c34b0bcb5391c0cb34ed8aa4a5b9cca4f682e6ff3748f82ee78a5636f84c878148cc7020890befffaa4506cebbef9a3f7c67178f2

/-- The round constants, one a round. -/
def shaK : List Word := (List.range 64).map fun r => BitVec.ofNat 32 (shaTable >>> (32 * (63 - r)))

/-- The eight words of the running hash. -/
structure Sha where
  a : Word
  b : Word
  c : Word
  d : Word
  e : Word
  f : Word
  g : Word
  h : Word
  deriving DecidableEq, Repr

/-- The initial hash value. -/
def shaInit : Sha :=
  { a := 0x6a09e667, b := 0xbb67ae85, c := 0x3c6ef372, d := 0xa54ff53a
    e := 0x510e527f, f := 0x9b05688c, g := 0x1f83d9ab, h := 0x5be0cd19 }

/-- One round with its constant and schedule word. -/
def shaRound (s : Sha) (kw : Word × Word) : Sha :=
  let s1 := s.e.rotateRight 6 ^^^ s.e.rotateRight 11 ^^^ s.e.rotateRight 25
  let ch := (s.e &&& s.f) ^^^ (~~~ s.e &&& s.g)
  let t1 := s.h + s1 + ch + kw.1 + kw.2
  let s0 := s.a.rotateRight 2 ^^^ s.a.rotateRight 13 ^^^ s.a.rotateRight 22
  let maj := (s.a &&& s.b) ^^^ (s.a &&& s.c) ^^^ (s.b &&& s.c)
  ⟨t1 + (s0 + maj), s.a, s.b, s.c, s.d + t1, s.e, s.f, s.g⟩

/-- The message schedule: `n` further words after the 16 newest, newest last. -/
def shaExtend : Nat → List Word → List Word
  | 0, _ => []
  | n + 1, w =>
    let w15 := w.getD 1 0
    let w2 := w.getD 14 0
    let s0 := w15.rotateRight 7 ^^^ w15.rotateRight 18 ^^^ (w15 >>> 3)
    let s1 := w2.rotateRight 17 ^^^ w2.rotateRight 19 ^^^ (w2 >>> 10)
    let x := w.getD 0 0 + s0 + w.getD 9 0 + s1
    x :: shaExtend n (w.drop 1 ++ [x])

/-- The big-endian word that four bytes spell. -/
def beWord (bs : List Byte) : Word := wordOf (bs.take 4).reverse

/-- The 16 words of a block. -/
def blockWords (bs : List Byte) : List Word := (List.range 16).map fun i => beWord (bs.drop (4 * i))

/-- One block of the hash. -/
def shaBlock (s : Sha) (bs : List Byte) : Sha :=
  let w := blockWords bs
  let t := (shaK.zip (w ++ shaExtend 48 w)).foldl shaRound s
  ⟨s.a + t.a, s.b + t.b, s.c + t.c, s.d + t.d, s.e + t.e, s.f + t.f, s.g + t.g, s.h + t.h⟩

/-- The message padded to whole blocks. -/
def shaPad (bs : List Byte) : List Byte :=
  let n := bs.length
  bs ++ [0x80] ++ List.replicate ((119 - n % 64) % 64) 0 ++ beBytes 8 (8 * n)

/-- The blocks of a padded message. -/
def shaBlocks : Nat → Sha → List Byte → Sha
  | 0, s, _ => s
  | k + 1, s, bs => shaBlocks k (shaBlock s (bs.take 64)) (bs.drop 64)

/-- SHA-256 of a message, as 32 bytes. -/
def sha256 (bs : List Byte) : List Byte :=
  let p := shaPad bs
  let s := shaBlocks (p.length / 64) shaInit p
  [s.a, s.b, s.c, s.d, s.e, s.f, s.g, s.h].flatMap fun w => (wordBytes w).reverse

/-- HMAC-SHA-256 under a key of 32 bytes (PRESUMED FIPS 198-1). -/
def hmac (key msg : List Byte) : List Byte :=
  let k := key ++ List.replicate (64 - key.length) 0
  sha256 (k.map (· ^^^ 0x5C) ++ sha256 (k.map (· ^^^ 0x36) ++ msg))

end Sys2Proof.Machine
end

