-- ==== Sys2Proof/Machine/KeepStore.lean ====
section
/-! DEFINITION. The keep store: its cells as the factory leaves them, record rings and context pages, the record queue,
the page buffer and the start of a page write (chapter 10). -/

namespace Sys2Proof.Machine

/-! ### Records (R278–R281) -/

/-- One record ring (Table 10.6): TYPE, first page, slots. -/
structure RingDef where
  type  : Nat
  first : Nat
  slots : Nat
  deriving DecidableEq, Repr

def rSettings : RingDef := ⟨0x4B04, 0x04, 4⟩
def rBoot : RingDef := ⟨0x4B03, 0x08, 8⟩
def rBinding : RingDef := ⟨0x4B02, 0x10, 8⟩
def rCommit : RingDef := ⟨0x4B05, 0x18, 8⟩
def rTotals : RingDef := ⟨0x4B01, 0x20, 32⟩
def rRepair : RingDef := ⟨0x4B06, 0xC8, 8⟩

/-- The page that holds the record with a sequence number (R279). -/
def RingDef.page (r : RingDef) (seq : Nat) : Nat := r.first + seq % r.slots

/-- A payload length that is legal for the ring (Table 10.6). -/
def RingDef.legal (r : RingDef) (len : Nat) : Bool :=
  if r.type = 0x4B01 then decide (132 ≤ len ∧ len ≤ 228 ∧ (len - 132) % 12 = 0)
  else if r.type = 0x4B02 then len = 24
  else if r.type = 0x4B05 then decide (8 ≤ len ∧ len ≤ 200 ∧ (len - 8) % 12 = 0)
  else if r.type = 0x4B06 then decide (4 ≤ len ∧ len ≤ 228 ∧ len % 4 = 0)
  else len = 12

/-- Zero bytes. -/
def zeros (n : Nat) : List Byte := List.replicate n 0

/-- A ring slot (Table 10.5). -/
def ringRecord (type seq : Nat) (payload : List Byte) : List Byte :=
  let body := leBytes 2 type ++ leBytes 2 payload.length ++ leBytes 4 seq ++ payload ++ zeros (244 - payload.length)
  body ++ leBytes 4 (crc32 body)

/-- What a context-page half holds (Table 10.7); WKEY wraps the key that CTX and KEY_NO name (R146, log 7). -/
structure CtxImage where
  /-- 0 none, 1 valid, 2 pending. -/
  key     : Nat := 0
  erase   : Bool := false
  seq     : Nat := 0
  applied : Nat := 0
  keyNo   : Nat := 0
  cfg     : Nat := 0
  mode    : Nat := 0x21
  credit  : Nat := 8
  base    : Nat := 0
  size    : Nat := 0
  rate    : Nat := 0x80000000
  cap     : Nat := 4096
  gen     : Nat := 0
  quota   : Nat := 0xFFFFFFFF
  deriving DecidableEq, Repr

/-- The 128 bytes of a half (Table 10.7). -/
def imageBytes (c : Nat) (i : CtxImage) : List Byte :=
  let wkey := if i.key = 0 then zeros 72 else wrappedKey Config.wrapKey (Config.keyBits c i.keyNo)
  let body := leBytes 2 0x4B10 ++ leBytes 1 c ++ leBytes 1 (i.key * 2 + if i.erase then 1 else 0) ++ leBytes 4 i.seq
    ++ leBytes 4 i.applied ++ leBytes 4 i.keyNo ++ leBytes 1 i.cfg ++ leBytes 1 i.mode ++ leBytes 2 i.credit
    ++ leBytes 4 i.base ++ leBytes 4 i.size ++ leBytes 4 i.rate ++ leBytes 2 i.cap ++ leBytes 2 i.gen
    ++ leBytes 4 i.quota ++ wkey ++ zeros 12
  body ++ leBytes 4 (crc32 body)

/-- The factory values of a context (Tables 5.7 to 5.10). -/
def factoryImageOf (c : Nat) : CtxImage := if c = 128 then { cfg := 1, mode := 0x21, credit := 64 } else {}

/-! ### Payloads of the rings (Table 10.6) -/

def settingsPayload (window pers log2 shutdown applied : Nat) : List Byte :=
  leBytes 2 window ++ leBytes 1 pers ++ leBytes 1 log2 ++ leBytes 1 shutdown ++ zeros 3 ++ leBytes 4 applied

def bootPayload (count base dirty : Nat) (ok : Bool) : List Byte :=
  leBytes 4 count ++ leBytes 4 base ++ leBytes 2 dirty ++ leBytes 2 (if ok then 1 else 0)

/-- The binding record (Table 10.6, R80). -/
structure Binding where
  gen     : Nat := 0
  serialA : BitVec 64 := 0
  serialB : BitVec 64 := 0
  state   : Duet := .none
  inA     : Bool := false
  inB     : Bool := false
  srcB    : Bool := false
  holdB   : Bool := false
  deriving DecidableEq, Repr

def bindingPayload (b : Binding) : List Byte :=
  leBytes 4 b.gen ++ leBytes 8 b.serialA.toNat ++ leBytes 8 b.serialB.toNat ++ leBytes 1 b.state.code
    ++ leBytes 1 ((if b.inA then 1 else 0) + (if b.inB then 2 else 0) + (if b.srcB then 4 else 0) + (if b.holdB then 8 else 0))
    ++ zeros 2

def entryBytes (e : CsEntry) : List Byte := wordBytes e.addr ++ wordBytes e.mask ++ wordBytes e.value

def commitPayload (chg proposer window : Nat) (entries : List CsEntry) : List Byte :=
  leBytes 4 chg ++ leBytes 1 proposer ++ leBytes 1 entries.length ++ leBytes 2 window ++ entries.flatMap entryBytes

/-- The ten counters in the order of Table 6.6. -/
def Counters.list (k : Counters) : List Nat :=
  [k.read.toNat, k.wPresto.toNat, k.wMod.toNat, k.wLento.toNat, k.wear.toNat, k.occ.toNat, k.ops.toNat, k.errCorr.toNat,
    k.errHard.toNat, k.errRefused.toNat]

/-- LGT in milliseconds, rounded down (R160). -/
def lgtMs (lgt : Nat) : Nat := lgt * 1000 / (32768 * 2 ^ 32)

/-- The totals payload (Table 6.6) with its flags and wear entries (Table 10.6). -/
def totalsPayload (cumul : Sums) (minute epoch sealed consumed ms : Nat) (disc : Int) (lost : Nat) (unsynced : Bool)
    (wear : List (BitVec 64 × Nat)) : List Byte :=
  cumul.toList.flatMap (fun n => leBytes 8 n.toNat) ++ leBytes 4 minute ++ leBytes 2 epoch ++ zeros 2 ++ leBytes 4 sealed
    ++ leBytes 4 consumed ++ leBytes 8 ms ++ leBytes 4 (signed 32 disc) ++ leBytes 4 lost ++ zeros 16
    ++ leBytes 4 ((if unsynced then 1 else 0) + wear.length * 256)
    ++ wear.flatMap fun w => leBytes 8 w.1.toNat ++ leBytes 4 w.2

/-! ### The cells as the factory leaves them (log 14) -/

/-- The identity bytes 0x00–0x3F of the sealed page (Table 10.4). -/
def identity : List Byte :=
  let b := (List.range 16).map Config.factoryByte ++ leBytes 2 0x7208 ++ leBytes 2 0x4200
    ++ (List.range 40).map fun k => Config.factoryByte (0x14 + k)
  b ++ leBytes 4 (crc32 b)

/-- ENGINE_ID: the first 8 bytes of SHA-256 over the identity bytes (R275). -/
def idOf (bytes : List Byte) : BitVec 64 := BitVec.ofNat 64 (ofLe ((sha256 bytes).take 8))

/-- ENGINE_ID as fused (R275, R152). -/
def engineId : BitVec 64 := idOf identity

/-- A page as the factory leaves it: valid records with SEQ 0, factory context images, zeros elsewhere (log 14). -/
def factoryPage (p : Nat) : List Byte :=
  if p = 0 then identity ++ zeros 192
  else if p = rSettings.first then ringRecord rSettings.type 0 (settingsPayload 30 0 35 0 0)
  else if p = rBoot.first then ringRecord rBoot.type 0 (bootPayload 0 0 0 true)
  else if p = rBinding.first then ringRecord rBinding.type 0 (bindingPayload {})
  else if p = rCommit.first then ringRecord rCommit.type 0 (commitPayload 0 1 30 [])
  else if p = rTotals.first then ringRecord rTotals.type 0 (totalsPayload (Vector.replicate 10 0) 0 0 0 0 0 0 0 true [])
  else if 0x40 ≤ p ∧ p ≤ 0xC0 then imageBytes (p - 0x40) (factoryImageOf (p - 0x40)) ++ zeros 128
  else zeros 256

/-- What an unlisted byte of the keep store reads as. -/
def factoryImage (a : Nat) : Byte := (factoryPage (a / 256)).getD (a % 256) 0

/-- The listed bytes of a page laid over its factory bytes. -/
def overlay (p : Nat) : List Host.Cell → List Byte → List Byte
  | [], l => l
  | (k, b) :: rest, l => overlay p rest (if k / 256 = p then l.set (k % 256) b else l)

/-- The 256 bytes of a page. -/
def pageBytes (mem : List Host.Cell) (p : Nat) : List Byte := overlay p mem (factoryPage p)

/-! ### Reading records (R279, R281) -/

/-- Some word of a byte range is uncorrectable. -/
def damagedIn (k : Ks) (lo n : Nat) : Bool := k.damaged.any fun w => decide (lo ≤ 4 * w) && decide (4 * w < lo + n)

/-- The record in a slot, when it is valid (R279): its SEQ and payload. -/
def slotRecord (k : Ks) (r : RingDef) (i : Nat) : Option (Nat × List Byte) :=
  let p := r.first + i
  let b := pageBytes k.mem p
  let len := ofLe ((b.drop 2).take 2)
  if ofLe (b.take 2) = r.type ∧ r.legal len ∧ ofLe (b.drop 252) = crc32 (b.take 252) ∧ damagedIn k (p * 256) 256 = false then
    some (ofLe ((b.drop 4).take 4), (b.drop 8).take len)
  else none

/-- SEQ `a` is newer than `b`, compared as a signed 32-bit difference (R279). -/
def newer (a b : Nat) : Bool := decide (0 < (BitVec.ofNat 32 a - BitVec.ofNat 32 b).toInt)

/-- The newer of two records. -/
def newest (x y : Option (Nat × α)) : Option (Nat × α) :=
  match x, y with
  | some a, some b => if newer b.1 a.1 then some b else some a
  | some a, none => some a
  | none, y => y

/-- The newest valid record of a ring (R279). -/
def newestRecord (k : Ks) (r : RingDef) : Option (Nat × List Byte) :=
  (List.range r.slots).foldl (fun m i => newest m (slotRecord k r i)) none

/-- A valid half of a context page (R281). -/
def halfImage (k : Ks) (c : Nat) (half : Nat) : Option CtxImage :=
  let b := ((pageBytes k.mem (0x40 + c)).drop (128 * half)).take 128
  let n := fun lo len => ofLe ((b.drop lo).take len)
  if n 0 2 = 0x4B10 ∧ n 2 1 = c ∧ n 0x7C 4 = crc32 (b.take 0x7C) ∧ damagedIn k ((0x40 + c) * 256 + 128 * half) 128 = false then
    some { key := n 3 1 / 2 % 4, erase := decide (n 3 1 % 2 = 1), seq := n 4 4, applied := n 8 4, keyNo := n 0xC 4
           cfg := n 0x10 1 % 8, mode := n 0x11 1, credit := n 0x12 2, base := n 0x14 4, size := n 0x18 4, rate := n 0x1C 4
           cap := n 0x20 2, gen := n 0x22 2, quota := n 0x24 4 }
  else none

/-- The page's image and the half that holds it (R281). -/
def contextImage (k : Ks) (c : Nat) : Option (Nat × CtxImage) :=
  match halfImage k c 0, halfImage k c 1 with
  | some a, some b => if newer b.seq a.seq then some (1, b) else some (0, a)
  | some a, none => some (0, a)
  | none, some b => some (1, b)
  | none, none => none

/-! ### Reading words (R267, R271) -/

/-- KS_ERR_ADDR keeps the last error until it is read (Table 10.13). -/
def noteKsErr (uncorr : Bool) (w : Nat) (s : State) : State :=
  if s.ks.errValid then s
  else { s with ks := { s.ks with errValid := true, errKind := uncorr, errWord := BitVec.ofNat 14 w } }

/-- One word is read and decoded: counts, sticky bits and KS_UNCORR (R267). -/
def senseWord (w : Nat) (s : State) : State :=
  if s.ks.damaged.any fun d => decide (d = w) then
    let s := { s with ks := { s.ks with errUncorr := s.ks.errUncorr + 1, uncorrSeen := true } }
    raise uKS cKS_UNCORR noCtx (lo32 (4 * w)) 0 0 (noteKsErr true w s)
  else if s.ks.weak.any fun d => decide (d = w) then
    noteKsErr false w { s with ks := { s.ks with errCorr := s.ks.errCorr + 1, corrSeen := true } }
  else s

/-- The stored value of a word. -/
def ksWord (k : Ks) (w : Nat) : Word := wordOf (((pageBytes k.mem (w / 64)).drop (4 * (w % 64))).take 4)

/-- Every word of a range of pages is read, as at BOOT (R287). -/
def sensePages (lo n : Nat) (s : State) : State :=
  ((s.ks.damaged ++ s.ks.weak).filter fun w => decide (lo * 64 ≤ w) && decide (w < (lo + n) * 64)).foldl
    (fun s w => senseWord w s) s

/-! ### Forming records (R268, R270) -/

/-- The page-write rank (Table 10.2). -/
def KsKind.rank : KsKind → Nat
  | .pendingKey _ | .acceptCommit | .acceptErase _ => 1
  | .binding => 2
  | .applyContext _ | .applySettings | .applyUser => 3
  | .applySealed lock => if lock then 6 else 3
  | .totals => 4
  | .bootRing | .settings | .tnMode _ | .repair => 5
  | .secretHost | .secretMgmt => 6
  | .fill => 7

/-- What a newer record replaces while it has not started (R270): a ring, or a context page; none for the writes that
are never replaced. -/
def KsKind.record : KsKind → Option Nat
  | .binding => some 0x10
  | .applyContext c | .tnMode c => some (0x40 + c)
  | .applySettings | .settings => some 0x04
  | .totals => some 0x20
  | .bootRing => some 0x08
  | .repair => some 0xC8
  | _ => none

/-- A formed record enters the queue, or takes the place and rank of the one it replaces (R270). -/
def replaceIn (w : PageWrite) : List PageWrite → List PageWrite
  | [] => [w]
  | x :: rest =>
    if x.kind.record = w.kind.record ∧ w.kind.record ≠ none then
      { w with kind := x.kind, page := x.page, chg := if x.chg = 0 then w.chg else x.chg, wipe := x.wipe || w.wipe } :: rest
    else x :: replaceIn w rest

def formWrite (w : PageWrite) (s : State) : State := { s with ks := { s.ks with queue := replaceIn w s.ks.queue } }

/-- A record of the ring waits to start. -/
def queued (s : State) (kind : KsKind) : Bool :=
  s.ks.queue.any fun w => decide (w.kind.record = kind.record) && decide (kind.record ≠ none)

/-- Bytes with their page offsets. -/
def at0 (bs : List Byte) : List (Nat × Byte) := (List.range bs.length).zip bs

/-- The whole page write of a ring record. -/
def ringWrite (kind : KsKind) (r : RingDef) (seq : Nat) (payload : List Byte) (chg : Word) : PageWrite :=
  { kind := kind, page := r.page seq, bytes := at0 (ringRecord r.type seq payload), chg := chg, wipe := false }

/-- A ring record is formed with the sequence number of the record it replaces, or the next one (R270, R279).
`get` and `put` reach the ring's next sequence number. -/
def formRing (kind : KsKind) (r : RingDef) (get : Ks → Nat) (set : Ks → Nat → Ks) (payload : List Byte) (chg : Word)
    (s : State) : State :=
  let next := get s.ks
  let seq := if queued s kind then next - 1 else next
  formWrite (ringWrite kind r seq payload chg) { s with ks := set s.ks (seq + 1) }

/-- The settings record (Table 10.6). -/
def formSettings (kind : KsKind) (chg : Word) (s : State) : State :=
  formRing kind rSettings (fun k => k.seqSettings) (fun k n => { k with seqSettings := n })
    (settingsPayload s.cs.window.toNat s.hl.persNext.toNat s.hl.slotLog2.toNat s.hl.shutdown.toNat s.ks.settingsApplied) chg s

/-- The boot record; the base is the start's change number before its first change (R158). -/
def formBoot (base : Nat) (s : State) : State :=
  formRing .bootRing rBoot (fun k => k.seqBoot) (fun k n => { k with seqBoot := n })
    (bootPayload s.ks.bootCount.toNat base s.pc.dirtyCount.toNat s.pc.lastDrainOk) 0 s

/-- The binding record as the duet stands. -/
def bindingNow (s : State) : Binding :=
  { gen := s.duet.gen, serialA := s.duet.serialA, serialB := s.duet.serialB, state := s.duet.state
    inA := s.duet.inA, inB := s.duet.inB, srcB := decide (s.duet.source = .b), holdB := s.duet.holdB }

def formBinding (b : Binding) : State → State :=
  formRing .binding rBinding (fun k => k.seqBinding) (fun k n => { k with seqBinding := n }) (bindingPayload b) 0

/-- The acceptance record of the change in COMMITTING (R285). -/
def formCommit (s : State) : State :=
  formRing .acceptCommit rCommit (fun k => k.seqCommit) (fun k n => { k with seqCommit := n })
    (commitPayload s.cs.chgNo.toNat (if s.cs.mgmt then 2 else 1) s.cs.chgWindow.toNat s.cs.entries) s.cs.chgNo s

/-- The wear entries of the totals ring: each cartridge in service, then those seated out of service with wear left, then
those that left (Table 10.6). -/
def wearEntries (s : State) : List (BitVec 64 × Nat) :=
  let idle := bothSlots.filter fun x => !(s.slot x).serves && (s.slot x).identified && decide ((s.slot x).uncharged ≠ 0)
  (serving s ++ idle).map (fun x => ((s.slot x).serial, (s.slot x).uncharged)) ++ s.ks.wear

/-- Where a ninth entry is needed, the oldest entry of a cartridge that left is dropped (Table 10.6). -/
def dropOldest (s : State) : State :=
  match s.ks.wear with
  | e :: rest =>
    if 8 < (wearEntries s).length then
      raise uKS cKS_WEAR_DROPPED noCtx (lo32 e.2) (lo32 e.1.toNat) (hi32 e.1.toNat) { s with ks := { s.ks with wear := rest } }
    else s
  | [] => s

/-- A totals record (R176). -/
def formTotals (lost : Nat) (s : State) : State :=
  let s := dropOldest (dropOldest s)
  formRing .totals rTotals (fun k => k.seqTotals) (fun k n => { k with seqTotals := n })
    (totalsPayload s.lg.sealedCumul s.lg.sealedMinute.toNat s.lg.epoch s.lg.sealedSeq.toNat s.lg.consumed.toNat
      (lgtMs s.lg.lgt) s.lg.disc lost s.lg.unsynced (wearEntries s)) 0 s

/-- The repair record (R306). -/
def formRepair (s : State) : State :=
  formRing .repair rRepair (fun k => k.seqRepair) (fun k n => { k with seqRepair := n })
    (leBytes 2 s.bt.soft.length ++ zeros 2 ++ s.bt.soft.flatMap wordBytes) 0 s

/-- The uncharged wear of a cartridge that leaves is kept against its serial (Table 10.6). -/
def keepWear (serial : BitVec 64) (amount : Nat) (s : State) : State :=
  let w := (s.ks.wear.filter fun e => decide (e.1 ≠ serial)) ++ (if amount = 0 then [] else [(serial, amount)])
  dropOldest { s with ks := { s.ks with wear := w } }

/-- The image of a context with the values in effect (Table 10.7). -/
def imageNow (s : State) (c : Ctx) : CtxImage :=
  let t := s.tenant c
  { key := if t.keyValid then 1 else 0, applied := t.applied, keyNo := t.keyNo
    cfg := (if t.enable then 1 else 0) + 2 * (match t.lock with
      | .opened => 0
      | .writeLock => 1
      | .sealed => 2)
    mode := (if t.persist then 1 else 0) + 16 * t.tempo.bits.toNat, credit := t.share.toNat, base := t.base.toNat
    size := t.size.toNat, rate := t.rate.toNat + (if t.unlimited then 2 ^ 31 else 0), cap := t.cap.toNat
    gen := t.gen.toNat, quota := t.quota.toNat }

/-- A context image is formed; its half and SEQ are settled when its write starts (R282). -/
def formContext (kind : KsKind) (c : Ctx) (i : CtxImage) (chg : Word) (wipe : Bool) : State → State :=
  formWrite { kind := kind, page := 0x40 + c.val, bytes := at0 (imageBytes c.val i), chg := chg, wipe := wipe }

/-- The bytes of a context-page write as it starts: the image in the other half with SEQ plus 1, then the wiping of the
current half (R282). -/
def placeImage (k : Ks) (w : PageWrite) : List (Nat × Byte) :=
  let img := w.bytes.map fun e => e.2
  let (half, seq) := match contextImage k (w.page - 0x40) with
    | some (h, i) => (1 - h, i.seq + 1)
    | none => (0, 0)
  let body := (img.take 4) ++ leBytes 4 seq ++ ((img.drop 8).take 0x74)
  let bytes := (at0 (body ++ leBytes 4 (crc32 body))).map fun e => (e.1 + 128 * half, e.2)
  if w.wipe then bytes ++ (at0 (zeros 128)).map fun e => (e.1 + 128 * (1 - half), e.2) else bytes

/-! ### The buffer (R268, R272, R273) -/

/-- The buffer holds a fill. -/
def BufOwner.isFill : BufOwner → Bool
  | .host | .sp0 | .dma _ => true
  | _ => false

/-- Bytes are loaded into the page buffer by an owner that may load (R268, R272). -/
def loadFill (who : BufOwner) (page : Nat) (bytes : List (Nat × Byte)) (s : State) : State :=
  { s with ks := { s.ks with
      owner := who, page := page, fillAt := s.now, formed := false
      bytes := bytes.foldl (fun l e => insertKey e.1 e.2 l) (if s.ks.owner = who then s.ks.bytes else []) } }

/-- The fill is formed into its page write. -/
def formFill (s : State) : State := { s with ks := { s.ks with formed := true } }

/-- The buffer is released. -/
def freeFill (s : State) : State := { s with ks := { s.ks with owner := .free, bytes := [], formed := false } }

/-- The fill's page write. -/
def fillWrite (s : State) : PageWrite :=
  { kind := .fill, page := s.ks.page, bytes := s.ks.bytes, chg := 0, wipe := false }

/-! ### Order and start (R269, R270, R285, R286) -/

/-- An engine record may start, as far as the records before it are concerned. -/
def mayStart (s : State) (before : List PageWrite) (w : PageWrite) : Bool :=
  let held := before.any fun x => decide (x.page = w.page) && decide (x.kind.record = none)
  let lock := before.any fun x => decide (x.kind = .applySealed true) && decide (x.chg = w.chg)
  let slotBusy := decide (w.kind = .acceptCommit) && (match slotRecord s.ks rCommit (w.page - rCommit.first) with
    | some (_, p) => s.ks.applying.any fun n => decide (n.toNat = ofLe (p.take 4))
    | none => false)
  let turn := w.chg = 0 || w.kind.rank = 1 || decide (s.ks.applying.head? = some w.chg)
  !held && !lock && !slotBusy && turn

/-- The records that may start, in the order in which they were formed. -/
def startable (s : State) : List PageWrite → List PageWrite → List PageWrite
  | _, [] => []
  | before, w :: rest =>
    (if mayStart s before w then [w] else []) ++ startable s (before ++ [w]) rest

/-- The first of the lowest rank. -/
def bestOf : List PageWrite → Option PageWrite
  | [] => none
  | w :: rest => match bestOf rest with
    | some x => if x.kind.rank < w.kind.rank then some x else some w
    | none => some w

/-- The page write that starts next (R270): a formed fill before any engine record; an unformed fill holds them back. -/
def nextWrite (s : State) : Option PageWrite :=
  if s.ks.busy.isSome then none
  else if s.ks.owner.isFill then (if s.ks.formed then some (fillWrite s) else none)
  else bestOf (startable s [] s.ks.queue)

/-- One occurrence of a record leaves the queue. -/
def removeFirst (w : PageWrite) : List PageWrite → List PageWrite
  | [] => []
  | x :: rest => if x = w then rest else x :: removeFirst w rest

/-- The word addresses a page write touches. -/
def wordsOf (page : Nat) (bytes : List (Nat × Byte)) : List Nat :=
  (List.range 64).filterMap fun i =>
    if bytes.any (fun e => decide (e.1 / 4 = i)) then some (page * 64 + i) else none

/-- A word of which one to three bytes are masked. -/
def partialWord (page : Nat) (bytes : List (Nat × Byte)) (w : Nat) : Bool :=
  (List.range 4).any fun j => !bytes.any fun e => decide (e.1 = 4 * (w - page * 64) + j)

/-- Bytes programmed into a page (Table 10.1, step 5). -/
def program (page : Nat) (bytes : List (Nat × Byte)) (mem : List Host.Cell) : List Host.Cell :=
  bytes.foldl (fun m e => memWrite factoryImage (page * 256 + e.1) e.2 m) mem

/-- A DMA fill that meets UNCORR_TARGET ends the descriptor that loaded it, while that is still in the channel, at the fill's first
beat: none of the page's bytes is written (R201, R212). -/
def fillFailed (s : State) : State :=
  match s.ks.owner with
  | .dma n =>
    let c := s.dm.ch[n]
    match c.desc with
    | some d =>
      if c.doneCount ≠ s.ks.fillDone ∨ c.endCode.isSome then s
      else
        let back := c.written - s.ks.fillBase
        count d.who addRefused (modCh n (fun c => { c with
          endCode := some cUNCORR_TARGET, written := s.ks.fillBase, remain := d.length - s.ks.fillBase, bytes := c.bytes - back
          burstOpen := false, burstLeft := 0
          src := if d.srcSpace = 5 then c.src else BitVec.ofNat 64 (d.src + s.ks.fillBase)
          dst := BitVec.ofNat 64 (d.dst + s.ks.fillBase) }) s)
    | none => s
  | _ => s

/-- Steps 2 to 5 of Table 10.1 for the next write; it takes no tag (DEDUCED, log 146). -/
def startWrite (s : State) : State :=
  match nextWrite s with
  | none => s
  | some w0 =>
    let w := if 0x40 ≤ w0.page ∧ w0.page ≤ 0xC0 then { w0 with bytes := placeImage s.ks w0 } else w0
    if s.pc.availNj < rsvdNj s + eKs then
      let waits := if s.ks.energyWait then s.ks.waits else s.ks.waits + 1
      { s with ks := { s.ks with energyWait := true, waits := waits, curPage := BitVec.ofNat 8 w.page } }
    else
      let s := { s with ks := { s.ks with
        energyWait := false, curPage := BitVec.ofNat 8 w.page, queue := removeFirst w0 s.ks.queue } }
      let words := wordsOf w.page w.bytes
      let s := words.foldl (fun s a => senseWord a s) s
      if words.any fun a => partialWord w.page w.bytes a && s.ks.damaged.any fun d => decide (d = a) then
        freeFill (fillFailed { s with ks := { s.ks with lastResult := cUNCORR_TARGET } })
      else
        let keep := fun (l : List Nat) => l.filter fun a => !words.any fun b => decide (b = a)
        { s with ks := { s.ks with
            busy := some w, owner := if s.ks.owner.isFill then s.ks.owner else .engine
            before := pageBytes s.ks.mem w.page, mem := program w.page w.bytes s.ks.mem
            weak := keep s.ks.weak, damaged := keep s.ks.damaged } }

/-- KS_STATUS.PENDING (Table 10.10): a formed write waits behind another one. -/
def ksPending (s : State) : Bool :=
  let n := s.ks.queue.length + (if s.ks.formed && s.ks.busy.isNone then 1 else 0)
  decide ((if s.ks.energyWait then 1 else 0) < n)

/-- The first word after which a torn write stops, and what it leaves (R289): the words before keep their new values,
the word itself is free and uncorrectable or not, the rest are as before. -/
def tearWrite (s : State) : State :=
  match s.ks.busy with
  | none => s
  | some w =>
    let words := wordsOf w.page w.bytes
    let k := freeBelow words.length s
    let v : Word := freeOf 32 s
    let bad := (freeOf 1 (nextFree s)).toNat = 1
    let old := (words.drop (k + 1)).flatMap fun a => (List.range 4).map fun j =>
      (4 * (a - w.page * 64) + j, s.ks.before.getD (4 * (a - w.page * 64) + j) 0)
    let mid := (words.drop k).take 1 |>.flatMap fun a => (List.range 4).map fun j =>
      (4 * (a - w.page * 64) + j, (wordBytes v).getD j 0)
    let hurt := if bad then (words.drop k).take 1 else []
    let s := nextFree (nextFree s)
    { s with ks := { s.ks with
        busy := none, owner := .free, mem := program w.page (old ++ mid) s.ks.mem, damaged := s.ks.damaged ++ hurt } }

end Sys2Proof.Machine
end

