-- ==== Sys2Proof/Machine/Writes.lean ====
section
/-! DEFINITION. Line-writes: issue, pulses and verify, relocation, failure, and what the field does to them
(R105–R112, R120–R122, R126–R131). -/

namespace Sys2Proof.Machine

/-- The bank has no line-write in progress (R105). -/
def bankFree (s : State) (x : Slot) (bank : Fin 128) : Bool :=
  !s.md.writes.any fun w => decide (w.slot = x) && decide (bankOf w.cline = bank)

/-- The tries that the line-writes of an operation pass on: its front, and the rest. -/
def firstTry (w : Tries) : Option (Fin 8) := w.headD (some 0)

/-- A line-write that passed counts toward the bank's gap move (R122). -/
def bumpGap (x : Slot) (cline : Nat) (n : Nat) (s : State) : State :=
  { s with md := { s.md with gapCount := modAt s.md.gapCount (bankNo x (bankOf cline)) (· + n) } }

/-- The verify-try histogram (Table 4.17). -/
def noteTries (used : Nat) (s : State) : State :=
  if used = 2 then { s with md := { s.md with t2 := s.md.t2 + 1 } }
  else if used = 3 ∨ used = 4 then { s with md := { s.md with t34 := s.md.t34 + 1 } }
  else if 5 ≤ used then { s with md := { s.md with t58 := s.md.t58 + 1 } }
  else s

/-- A PWF or POISON_MERGE that concerns a host write: the tenant's message holds the flushes that cover it (R237, R349). -/
def failureMessage (c : Ctx) (asn : Nat) (reqs : List Nat) (s : State) : State :=
  let s := modTenant c (fun t => { t with failMsg := true }) s
  let hit := fun (f : Flush) => covers s f.scope f.zero c &&
    (decide (asn ≤ f.asn) || f.reqs.any fun r => reqs.any fun q => decide (q = r))
  { s with pc := { s.pc with flushes := update hit (fun f => { f with waits := c.val :: f.waits }) s.pc.flushes } }

/-- The media's line for a merge (R120): the line's data, and whether poison goes in; of an uncorrectable line the raw data as
read. -/
def mergeBase (x : Slot) (cline : Nat) (who : Ctx) (off : Nat) (e : Sense) (s : State) : State × Line × Bool :=
  let l := lineOn s x cline
  let pz := injPoison s x cline
  let e := injected s x cline e
  let s := touchBank x cline (disarmRead x cline s)
  match readLineCells l e with
  | .good n w =>
    let s := if n = 0 then s else count who addCorr { s with md := { s.md with errCorr := s.md.errCorr + 1 } }
    let l := l.seen w
    (s, plain s l who off, l.poison || pz)
  | .bad _ =>
    ({ s with md := { s.md with errUncorr := s.md.errUncorr + 1 } }, plain s (l.poisoned (l.err ^^^ e.again)) who off, true)

/-- The codeword a slot's write puts on the media (R113, R116, R118–R120). -/
def codeword (s : State) (h : HoldSlot) (data : Line) (poison : Bool) : StoredLine :=
  { data := data, keyCtx := h.ctx.val, keyGen := (s.tenant h.ctx).keyNo, tweak := h.off, poison := poison
    tempo := h.tempo.bits, fresh := false, version := 1, err := 0 }

/-! ### Issue (R25, R98, R105) -/

/-- The slot's re-verify list is not empty: its entries come before any new write (R128, R129). -/
def reverifying (s : State) (x : Slot) : Bool := s.md.writes.any fun w => decide (w.slot = x) && w.held

/-- An older dirty slot of the same line is still to be written first (R25). -/
def olderDirty (s : State) (h : HoldSlot) : Bool :=
  (s.pc.slots.takeWhile fun g => decide (g.id ≠ h.id)).any fun g => decide (g.media = h.media)

/-- A copy of the cartridge line to the slot is read and not written yet: a later write lands after it (Table 2.4). -/
def copyAhead (s : State) (x : Slot) (line : Nat) : Bool :=
  s.dm.ch.toList.any fun c => c.copy && c.beats.any fun b =>
    decide (b.src % 2 ^ 36 / 64 = line) && decide (b.dst / 2 ^ 40 % 2 = x.num)

/-- The homes of a slot that a media write can be issued to now. -/
def issuable (s : State) (h : HoldSlot) : List (Slot × Nat) :=
  h.left.filter fun (x, cl) =>
    (s.slot x).writable && !inhibited s x && !reverifying s x && bankFree s x (bankOf cl) && linkReady s x
      && !copyAhead s x cl && !s.md.writes.any fun w => decide (w.kind = .hold h.id) && decide (w.slot = x)

/-- The write of a slot carries a host request's tag while one waits for its verify, or is a write-back with a tag of its own
(R53). -/
def ownTag (h : HoldSlot) : Bool := h.reqs.isEmpty

/-- A slot whose write-back can be issued. -/
def canIssue (s : State) (h : HoldSlot) : Bool :=
  !(issuable s h).isEmpty && !olderDirty s h && (!ownTag h || tagFree s .wbk h.ctx)

/-- The line-write of a slot to one home, with the line it is to leave. -/
def homeWrite (s : State) (h : HoldSlot) (x : Slot) (cl : Nat) (data : Line) (merged : Bool) (tag : Option Nat) : LineWrite :=
  { slot := x, cline := cl, kind := .hold h.id, tempo := h.tempo, line := codeword s h data (h.poison || merged), used := 0
    fired := false, held := false, poisonMerge := merged, second := decide (x ≠ h.first), tag := tag }

/-- A line-write is issued to one home; a write-back that finds no tag waits (R54). -/
def issueHome (h : HoldSlot) (e : Sense) (s : State) (home : Slot × Nat) : State :=
  let (x, cl) := home
  if ownTag h && !tagFree s .wbk h.ctx then s
  else
    let (s, data, pm) := if h.mask = fullMask then (s, h.data, false)
      else let (s, d, p) := mergeBase x cl h.ctx h.off e s
           (s, mergeLine d h.data h.mask, p)
    let tag := if ownTag h then some (newTag s .wbk h.ctx).id else none
    let s := if ownTag h then takeTag .wbk h.ctx s else s
    let w := homeWrite s h x cl data pm tag
    let s := if w.second then
        modSlot x (fun t => { t with intransit := t.intransit + h.tempo.price }) (chargeSlot x h.tempo.price s) else s
    let slots := update (fun g => g.id = h.id) (fun g => { g with issued := true }) s.pc.slots
    touchBank x cl { s with md := { s.md with writes := s.md.writes ++ [w] }, pc := { s.pc with slots := slots } }

/-- The oldest slot that can be written back is issued (R25). -/
def issueOldest (e : Sense) (s : State) : State :=
  if !writesRun s then s else
  match s.pc.slots.find? fun h => canIssue s h with
  | some h => (issuable s h).foldl (issueHome h e) s
  | none => s

/-! ### Pulses and results (R109, R112) -/

/-- The line-write in progress on a bank. -/
def writeOn (s : State) (x : Slot) (bank : Fin 128) : Option LineWrite :=
  s.md.writes.find? fun w => decide (w.slot = x) && decide (bankOf w.cline = bank)

/-- The line-write on a bank changed, or removed. -/
def modWrite (x : Slot) (bank : Fin 128) (f : LineWrite → LineWrite) (s : State) : State :=
  let hit := fun (w : LineWrite) => decide (w.slot = x) && decide (bankOf w.cline = bank)
  { s with md := { s.md with writes := update hit f s.md.writes } }

def endWrite (x : Slot) (bank : Fin 128) (s : State) : State :=
  let keep := fun (w : LineWrite) => !(decide (w.slot = x) && decide (bankOf w.cline = bank))
  { s with md := { s.md with writes := s.md.writes.filter keep } }

/-- One pulse of the line-write on a bank: none while the slot is inhibited, and at most 8 (R109, R127). -/
def pulse (x : Slot) (bank : Fin 128) (s : State) : State :=
  match writeOn s x bank with
  | some w =>
    if w.fired || w.held || inhibited s x || decide (8 ≤ w.used) || !writesRun s then s
    else modWrite x bank (fun w => { w with fired := true, used := w.used + 1 }) s
  | none => s

/-- A price in transit settles in the provider's column (R86, R162). -/
def settle (x : Slot) (t : Tempo) (s : State) : State :=
  count provider (addWear t 1) (modSlot x (fun c => { c with intransit := c.intransit - t.price }) s)

/-- The offset in its partition of what a write carries, in lines (form ADDR). -/
def writeOff (s : State) (w : LineWrite) : Nat :=
  match w.kind with
  | .hold id => (s.pc.slots.find? fun h => h.id = id).elim 0 fun h => h.off
  | .copy _ _ => 0

/-- A copied line of a reserved area carries what the source holds there: ledger ring, trace area, quarantine area. -/
def copyReserved (c d : Cart) (src : Nat) : Cart :=
  let r := src - ringBase c.big
  let t := src - traceBase c.big
  if ringBase c.big ≤ src ∧ src < traceBase c.big then
    { d with ring := match look r c.ring with
        | some l => insertKey r l d.ring
        | none => dropKey r d.ring }
  else if traceBase c.big ≤ src ∧ src < resyncBase c.big then
    { d with trace := match look t c.trace with
        | some l => insertKey t l d.trace
        | none => dropKey t d.trace }
  else if quarBase c.big ≤ src ∧ src < ringBase c.big then { d with quarantine := c.quarantine }
  else d

/-- The line is in the user area of its cartridge. -/
def userLine (s : State) (x : Slot) (cline : Nat) : Bool :=
  match (s.slot x).cart with
  | some c => decide (cline < userLines c.big)
  | none => false

/-- What follows a passed write, by its source. -/
def afterPass (w : LineWrite) (reloc : Bool) (s : State) : State :=
  match w.kind with
  | .copy _ src =>
    let s := settle w.slot w.tempo s
    let s := match (s.slot w.slot.other).cart with
      | some c => modCart w.slot (fun d => copyReserved c d src) s
      | none => s
    let s := { s with duet := { s.duet with ptr := s.duet.ptr + 1 } }
    if w.poisonMerge then
      raiseAddr (uCT w.slot) cCART_COPY_POISON noCtx 0 w.slot w.cline 0 w.used w.line.tempo reloc s
    else s
  | .hold id =>
    let s := if w.second then settle w.slot w.tempo s else s
    match s.pc.slots.find? fun h => h.id = id with
    | none => s
    | some h =>
      let s := if w.poisonMerge then
          let s := raiseAddr uMD cPOISON_MERGE (ctxByte h.ctx) (if h.verified then 1 else 0) w.slot w.cline h.off w.used w.line.tempo reloc s
          let s := noteError w.slot w.cline cPOISON_MERGE (ctxByte h.ctx) 0xF s
          let s := mediaEvent (h.media * 64) cPOISON_MERGE (failureMessage h.ctx h.asn h.reqs (count h.ctx addHard s))
          h.chans.foldl (fun s n => modCh n (fun c => { c with sawMerge := true, poison := true }) s) s
        else s
      homeDone id w.slot w.cline s

/-- The line-write on a bank passes verify (R109). -/
def passWrite (x : Slot) (bank : Fin 128) (reloc : Bool) (s : State) : State :=
  match writeOn s x bank with
  | none => s
  | some w =>
    let s := if userLine s x w.cline then writeLine x w.cline w.line s else s
    let s := dropTag? w.tag (endWrite x bank s)
    let s := if reloc then s else noteTries w.used (bumpGap x w.cline 1 s)
    afterPass w reloc s

/-- The resync map marks a 64 KiB region written while a member is missing (Table 3.7). -/
def markResync (x : Slot) (cline : Nat) (s : State) : State :=
  let r := cline / 1024
  if s.duet.state = .mirrorDegraded then
    modCart x (fun c => if c.resync.any (fun k => decide (k = r)) then c else { c with resync := c.resync ++ [r] }) s
  else s

/-! ### Failure: relocation, quarantine and poison (R110–R112) -/

/-- One line-write of an operation, on the front of its tries: a pass is counted by its try and toward the bank's gap move
(R109, R122, Table 4.17). -/
def tryLine (x : Slot) (cline : Nat) (w : Tries) (s : State) : State × Bool :=
  match firstTry w with
  | some k => (noteTries (k.val + 1) (bumpGap x cline 1 s), true)
  | none => ({ s with md := { s.md with tFailed := s.md.tFailed + 1 } }, false)

/-- A poison write (R112): one lento line-write of the provider's column. Where its tries fail, the cells hold what the manual
does not say (free, log 4). -/
def poisonLine (x : Slot) (cline : Nat) (l : StoredLine) (w : Tries) (s : State) : State :=
  let (s, ok) := tryLine x cline w (engineWrites x .lento 1 s)
  if ok then writeLine x cline l s
  else nextFree (storeLine x cline { l with err := freeOf 640 s } s)

/-- SPARE_LOW is logged when a bank's 224th spare is used or retired (R111). -/
def noteSpare (x : Slot) (bank : Nat) (s : State) : State :=
  match (s.slot x).cart with
  | some c =>
    if sparesUsed c bank = 224 then raise uMD cSPARE_LOW noCtx (lo32 x.num) (lo32 bank) 224 s else s
  | none => s

/-- The next spare of a bank (R110), while one is left. -/
def nextSpare (c : Cart) (bank : Nat) : Option Nat := if sparesUsed c bank < 256 then some (sparesUsed c bank) else none

/-- A spare is named in the relocation block: in use for a physical line, whose older spare is retired, or retired itself. -/
def useSpare (x : Slot) (bank spare pline : Nat) (failed : Bool) : State → State :=
  modCart x fun c =>
    let hit := fun (r : Reloc) => decide (r.bank = bank) && decide (r.pline = pline) && !r.retired
    let old := if failed then c.relocs else update hit (fun r => { r with retired := true }) c.relocs
    { c with relocs := old ++ [⟨bank, spare, pline, failed⟩] }

/-- A failed relocation is counted (Table 4.18). -/
def noteRelocFail (x : Slot) (s : State) : State :=
  match x with
  | .a => { s with md := { s.md with relocFailsA := s.md.relocFailsA + 1 } }
  | .b => { s with md := { s.md with relocFailsB := s.md.relocFailsB + 1 } }

/-- The header line of a relocation entry, and of a bank's START and GAP (log 11). -/
def relocLine (big : Bool) (bank spare : Nat) : Nat := headerBase big + 1 + bank * 16 + spare / 16
def levelLine (big : Bool) (bank : Nat) : Nat := headerBase big + 2049 + bank / 8

/-- What came of a line-write with its relocation: it passed, by a relocation or not, or it failed with one attempted or not;
and the tries left for the writes that follow. -/
structure Written where
  ok    : Bool
  tried : Bool
  rest  : Tries
  deriving DecidableEq, Repr

/-- The relocation of a physical line whose write failed (R110, R111): the spare's write, then the header record, each at
lento. -/
def relocate (x : Slot) (cline pline : Nat) (w : Tries) (s : State) : State × Written :=
  match (s.slot x).cart with
  | none => (s, ⟨false, false, w⟩)
  | some c =>
    let bank := cline % 128
    match nextSpare c bank with
    | none => (noteRelocFail x s, ⟨false, false, w⟩)
    | some sp =>
      let (s, spare) := tryLine x cline w (engineWrites x .lento 1 s)
      let (s, ok) := if spare then tryLine x (relocLine c.big bank sp) w.tail (engineWrites x .lento 1 s) else (s, false)
      let s := noteSpare x bank (useSpare x bank sp pline (!ok) s)
      let rest := if spare then w.tail.tail else w.tail
      (if ok then s else noteRelocFail x s, ⟨ok, true, rest⟩)

/-- The physical line of a cartridge line (R121). -/
def physOf (s : State) (x : Slot) (cline : Nat) : Nat :=
  (s.slot x).cart.elim 0 fun c => physLine c (cline % 128) (bankIdx cline)

/-- A line-write made in one step: its tries pass, or fail and call for a relocation (R109–R111). -/
def wholeWrite (x : Slot) (cline pline : Nat) (w : Tries) (s : State) : State × Written :=
  let (s, ok) := tryLine x cline w s
  if ok then (s, ⟨true, false, w.tail⟩) else relocate x cline pline w.tail s

/-- PWF of an engine-issued write (R112): no context, the writing unit, form ADDR. -/
def enginePwf (unit : BitVec 5) (x : Slot) (cline : Nat) (tempo : Tempo) (tried : Bool) (s : State) : State :=
  noteError x cline cPWF noCtx 0xF (raiseAddr unit cPWF noCtx 0 x cline 0 8 tempo.bits tried s)

/-- An engine-issued line-write in the provider's column (Table 4.3, R112): where it fails, the line is poisoned and PWF
logged. -/
def engineLine (unit : BitVec 5) (x : Slot) (cline : Nat) (tempo : Tempo) (w : Tries) (s : State) : State × Written :=
  let (s, r) := wholeWrite x cline (physOf s x cline) w (engineWrites x tempo 1 s)
  if r.ok then (s, r)
  else
    let s := poisonLine x cline ((lineOn s x cline).poisoned 0) r.rest s
    (enginePwf unit x cline tempo r.tried s, { r with rest := r.rest.tail })

/-- A line of a reserved area has passed verify: its contents stand in the area's record, and its cells hold no error but for
what an injection puts there (R133). -/
def reservedPassed (x : Slot) (cline : Nat) (data : Line) (s : State) : State :=
  let (s, l) := injectStored x cline { data := data, fresh := false } s
  modCart x (fun c => { c with lines :=
    if l.err = 0 ∧ l.poison = false then dropKey cline c.lines else insertKey cline l c.lines }) s

/-- A quarantine entry at lento (R112): an entry whose write fails is poisoned, and the next place takes it. -/
def quarantineEntry (x : Slot) (q : Quarantine) : Nat → Tries → State → State × Tries
  | 0, w, s => (s, w)
  | n + 1, w, s =>
    match (s.slot x).cart with
    | none => (s, w)
    | some c =>
      let place := quarBase c.big + (c.quarantine.length + c.lostQuar) % (8 * mibLines)
      let (s, r) := engineLine uMD x place .lento w s
      if r.ok then (modCart x (fun c => { c with quarantine := c.quarantine ++ [q] }) s, r.rest)
      else quarantineEntry x q n r.rest (modCart x (fun c => { c with lostQuar := c.lostQuar + 1 }) s)

/-- The failure of a copied line, or of a mirror's second write: the destination line is poisoned (R112). -/
def copyFailed (w : LineWrite) (r : Written) (s : State) : State :=
  let s := poisonLine w.slot w.cline (w.line.poisoned 0) r.rest (settle w.slot w.tempo s)
  raiseAddr (uCT w.slot) cCART_COPY_POISON noCtx 0 w.slot w.cline 0 8 w.line.tempo r.tried s

/-- The failure of a host or DMA write (R112): the quarantine entry, the poison, PWF, and the reports that travel with it. -/
def homeFailed (w : LineWrite) (h : HoldSlot) (r : Written) (s : State) : State :=
  let (s, rest) := quarantineEntry w.slot ⟨h.ctx, w.cline, w.line⟩ (r.rest.length + 1) r.rest s
  let s := poisonLine w.slot w.cline (w.line.poisoned 0) rest s
  let s := raiseAddr uMD cPWF (ctxByte h.ctx) (if h.verified then 1 else 0) w.slot w.cline h.off 8 w.tempo.bits r.tried s
  let s := noteError w.slot w.cline cPWF (ctxByte h.ctx) 0xF s
  let s := mediaEvent (h.media * 64) cPWF (failureMessage h.ctx h.asn h.reqs (count h.ctx addHard s))
  let s := h.chans.foldl (fun s n => modCh n (fun c => { c with sawPwf := true }) s) s
  homeDone h.id w.slot w.cline s

/-- A failed write, by its source (R112). -/
def writeFailed (w : LineWrite) (r : Written) (s : State) : State :=
  let s := dropTag? w.tag (endWrite w.slot (bankOf w.cline) s)
  match w.kind with
  | .copy _ _ =>
    let s := copyFailed w r s
    { s with duet := { s.duet with ptr := s.duet.ptr + 1 } }
  | .hold id =>
    match s.pc.slots.find? fun h => h.id = id with
    | none => s
    | some h => if w.second then homeDone id w.slot w.cline (copyFailed w r s) else homeFailed w h r s

/-- The sense of a try returns (R109): a sense of an inhibited slot is not trusted (R128); after the clear a held
entry's sense is taken without a pulse (R129). -/
def senseResult (x : Slot) (bank : Fin 128) (differ : Nat) (after : Tries) (s : State) : State :=
  match writeOn s x bank with
  | none => s
  | some w =>
    if inhibited s x || !(w.fired || w.held) || !writesRun s then s
    else if differ = 0 then markResync x w.cline (passWrite x bank false s)
    else if w.used < 8 then modWrite x bank (fun w => { w with fired := false, held := false }) s
    else
      let s := { s with md := { s.md with tFailed := s.md.tFailed + 1 } }
      let (s, r) := relocate x w.cline (physOf s x w.cline) after s
      markResync x w.cline (if r.ok then passWrite x bank true s else writeFailed w r s)

end Sys2Proof.Machine
end

