-- ==== Sys2Proof/Machine/Ledger.lean ====
section
/-! DEFINITION. The ledger: time, counters, minute frames, markers, the ring, syncs and reconciliation (chapter 06). -/

namespace Sys2Proof.Machine

/-! ### Ledger time (R160, R161) -/

/-- One metronome tick, one ledger second and one ledger minute in units of 2^-32 ticks. -/
def tick1 : Nat := 2 ^ 32
def sec1 : Nat := 32768 * tick1
def min1 : Nat := 60 * sec1

/-- The minute number of a ledger time (R160). -/
def minuteOf (lgt : Nat) : Nat := lgt / min1

/-- A time in milliseconds as a ledger time. -/
def ofMs (t : Nat) : Nat := t * sec1 / 1000

/-- What a slew adds in one tick: 1000 ppm, or the rest of its offset (R161). -/
def slewStep (rest : Int) : Int :=
  let m : Int := (tick1 / 1000 : Nat)
  max (-m) (min m rest)

/-- LGT advances by one trimmed tick (R161). -/
def advanceLgt (g : Lg) : Lg :=
  let step := slewStep g.slew
  let trim : Int := g.disc * tick1 / 1000000000
  { g with
      lgt := (g.lgt + (tick1 + trim + step)).toNat, slew := g.slew - step
      flags := if g.slew = 0 then g.flags else g.flags ||| 0x04 }

/-- A request-line pulse is counted by every paced channel that selects the line (R195). -/
def pulseLine (line n : Nat) (s : State) : State :=
  let hit := fun (c : DmaCh) => c.paced && decide (c.reqSel.toNat = line)
  let ch := mapV s.dm.ch fun c => if hit c then { c with pending := sat 16 (c.pending + n) } else c
  { s with dm := { s.dm with ch := ch } }

/-- The sequencer owes a slot's supervisor a command. -/
def wantSv (x : Slot) (opc : BitVec 7) : State → State :=
  modSlot x fun t => if t.svDue.any (fun o => decide (o = opc)) then t else { t with svDue := t.svDue ++ [opc] }

/-! ### Records (R163, R164, R171) -/

/-- The counter fields of a record (Table 6.2). -/
def counterBytes (k : Counters) : List Byte :=
  leBytes 5 k.read.toNat ++ leBytes 5 k.wPresto.toNat ++ leBytes 5 k.wMod.toNat ++ leBytes 5 k.wLento.toNat
    ++ leBytes 5 k.wear.toNat ++ leBytes 4 k.occ.toNat ++ leBytes 5 k.ops.toNat ++ leBytes 5 k.errCorr.toNat
    ++ leBytes 4 k.errHard.toNat ++ leBytes 5 k.errRefused.toNat

/-- A minute record without SEQ and CHECK (Table 6.2). -/
def minuteRecord (minute ctx flags epoch : Nat) (k : Counters) : Line :=
  lineOf (leBytes 4 minute ++ leBytes 1 ctx ++ leBytes 1 flags ++ leBytes 2 epoch ++ zeros 4 ++ counterBytes k)

/-- A marker record without SEQ and CHECK (Table 6.5). -/
def markerRecord (minute type epoch a b c d1 d2 : Nat) : Line :=
  lineOf (leBytes 4 minute ++ leBytes 1 0xFD ++ leBytes 1 type ++ leBytes 2 epoch ++ zeros 4 ++ leBytes 8 a ++ leBytes 8 b
    ++ leBytes 8 c ++ leBytes 8 d1 ++ leBytes 8 d2)

/-- A marker on its way to the ring. -/
def markerUnit (minute : Nat) (l : Line) : LgUnit := { marker := true, minute := minute, whole := [l], left := [l], sum := {} }

/-- A record with its SEQ and CHECK (R164). -/
def withSeq (seq : Nat) (l : Line) : Line :=
  let b := lineBytes l
  let b := b.take 8 ++ leBytes 4 seq ++ (b.drop 12).take 48
  lineOf (b ++ leBytes 4 (crc32 b))

/-- Sum of two counter sets. -/
def Counters.add (a b : Counters) : Counters :=
  { read := a.read + b.read, wPresto := a.wPresto + b.wPresto, wMod := a.wMod + b.wMod, wLento := a.wLento + b.wLento
    wear := a.wear + b.wear, occ := a.occ + b.occ, ops := a.ops + b.ops, errCorr := a.errCorr + b.errCorr
    errHard := a.errHard + b.errHard, errRefused := a.errRefused + b.errRefused }

/-- The cumulative totals with a totals record added (R176, B4). -/
def addSums (v : Sums) (k : Counters) : Sums := Vector.ofFn fun i => v[i] + BitVec.ofNat 64 (k.list.getD i.val 0)

/-- The records of a frame: one for each metered context, then the totals record (R163). -/
def frameRecords (f : Frozen) : List Line :=
  f.ctx.map (fun c => minuteRecord f.minute c.val f.flags f.epoch f.bank[c]) ++
    [minuteRecord f.minute 0xFE f.flags f.epoch f.totals]

/-! ### Sealing (R166) -/

/-- LG_STATUS.SEALING (Table 6.4): from M + 1 until the frame enters the seal buffer. -/
def sealing (s : State) : Bool := s.lg.sealEnd.isSome

/-- A frame waits in the seal buffer (R170; Table 6.10, FRAME_PENDING): records of it are not issued to the ring yet. -/
def framePending (s : State) : Bool := s.lg.outq.any fun u => !u.marker && !u.left.isEmpty

/-- LG_RING_FREE (R169). -/
def ringFree (s : State) : Nat := 2 ^ 20 - (s.lg.writeSeq - s.lg.consumed).toNat

/-- SEALING clears: the frame enters the seal buffer, the totals are folded, and a waiting latch is made (R166, R182). -/
def finishSeal (s : State) : State :=
  match s.lg.frozen with
  | none => s
  | some f =>
    let recs := frameRecords f
    let u : LgUnit := { marker := false, minute := f.minute, whole := recs, left := recs, sum := f.totals }
    let cumul := addSums s.lg.cumul f.totals
    { s with lg := { s.lg with
        outq := s.lg.outq ++ [u] ++ f.trail, frozen := none, sealEnd := none, cumul := cumul
        latched := if s.lg.latchBusy then addSums cumul s.lg.totals else s.lg.latched, latchBusy := false } }

/-- The seal ends in its cycle. -/
def sealDue (s : State) : State :=
  match s.lg.sealEnd with
  | some e => if e ≤ s.now then finishSeal s else s
  | none => s

/-- A cartridge whose supervisor takes charges: it serves, or it is a spare that is authenticated (R83). -/
def CtSlot.charged (t : CtSlot) : Bool := t.serves || (t.cart.isSome && t.identified && decide (t.state = .spare))

/-- Every minute seal owes the cartridges a WEAR_CHARGE (R83). -/
def chargeAll (s : State) : State :=
  (bothSlots.filter fun x => (s.slot x).charged).foldl (fun s x => wantSv x 0x04 s) s

/-- A cartridge can take ledger records: one serves and is not write-inhibited (R170). -/
def ringServed (s : State) : Bool := (serving s).any fun x => !inhibited s x

/-- The ring can take a MERGE marker and a frame of the open minute (R170). -/
def ringTakes (s : State) : Bool := ringServed s && decide ((meteredCtx s).length + 2 ≤ ringFree s)

/-- The open minute goes on across a boundary because a frame waits (R170). -/
def mergeOn (s : State) : State :=
  if s.lg.merging then s
  else raise uLG cLEDGER_MERGE noCtx (lo32 s.lg.minute) 0 0
    { s with lg := { s.lg with merging := true, mergeFirst := lo32 s.lg.minute } }

/-- The MERGE marker of a merge that ends (R170). -/
def mergeMarker (s : State) : LgUnit :=
  let first := s.lg.mergeFirst.toNat
  markerUnit first (markerRecord first 5 s.lg.epoch first s.lg.minute (s.lg.minute + 1 - first) 0 0)

/-- The present cycle closes the open minute: into a frame, a merged frame, or a merge that goes on (R166, R170). -/
def closeMinute (extra : BitVec 8) (next : Nat) (flags : BitVec 8) (trail : List LgUnit) (s : State) : State :=
  let k : Closing :=
    { tick := s.now, merge := false, label := s.lg.minute, extra := extra, next := next, flags := flags, trail := trail, step := none }
  if framePending s || (s.lg.merging && !ringTakes s) then
    let s := mergeOn s
    { s with lg := { s.lg with closing := some { k with merge := true }, outq := s.lg.outq ++ trail } }
  else if s.lg.merging then
    { s with lg := { s.lg with
        merging := false, outq := s.lg.outq ++ [mergeMarker s]
        closing := some { k with label := s.lg.mergeFirst.toNat, extra := extra ||| 0x10 } } }
  else { s with lg := { s.lg with closing := some k } }

/-- OCC gains TN_SIZE in effect at a ledger-second boundary (R162), and the sync ages. -/
def takeSecond (s : State) : State :=
  let live := Vector.ofFn fun c : Ctx =>
    { s.lg.live[c] with occ := s.lg.live[c].occ + (s.tenant c).size.setWidth 32 }
  let sum := (indices 129).foldl (fun (n : BitVec 32) c => n + (s.tenant c).size.setWidth 32) 0
  { s with lg := { s.lg with
      live := live, totals := { s.lg.totals with occ := s.lg.totals.occ + sum }, secSeen := s.lg.secSeen + 1
      syncAge := if s.lg.syncAge = 0xFFFFFF then 0xFFFFFF else s.lg.syncAge + 1 } }

/-- The ledger runs: no minute is open before reconciliation or after D0 (R177, R178). -/
def ledgerRuns (s : State) : Bool := s.pw.state.clocked && s.pc.reconciled && s.pc.drain.isNone

/-- The ledger-second boundary is registered (R162). -/
def secondBoundary (s : State) : State :=
  if !ledgerRuns s || decide (s.lg.lgt / sec1 ≤ s.lg.secSeen) then s else takeSecond s

/-- The minute tick, in cycle M (R166): a second boundary that coincides with it belongs to the closing minute (Table 6.1). -/
def minuteTick (s : State) : State :=
  if s.lg.sealEnd.isSome || s.lg.closing.isSome || !ledgerRuns s || decide (minuteOf s.lg.lgt ≤ s.lg.minute) then s
  else
    let s := if s.lg.secSeen < 60 * minuteOf s.lg.lgt then takeSecond s else s
    chargeAll (closeMinute 0 (minuteOf s.lg.lgt) 0 [] s)

/-! ### The ring (R167–R171) -/

/-- The cartridges a ring record is written to (R168), with the record's line. -/
def ringHomes (s : State) (seq : Nat) : List (Slot × Nat) :=
  let home := fun x => match (s.slot x).cart with
    | some c => (x, ringBase c.big + seq % 2 ^ 20)
    | none => (x, 0)
  let both := (serving s).map home
  match s.duet.state with
  | .mirrorResync | .migrateCopy =>
    both.filter fun h => decide (h.1 = s.duet.source) || !uncopied s (home s.duet.source).2
  | _ => both

/-- RING_HIGH follows the free slots: set at 10 %, cleared at 20 % (R169). -/
def ringHigh (s : State) : State :=
  let f := ringFree s
  if f * 10 ≤ 2 ^ 20 then
    if s.lg.ringHigh then s
    else raise uLG cLEDGER_HIGH (ctxByte provider) (lo32 f) 0 0 { s with lg := { s.lg with ringHigh := true } }
  else if 2 ^ 20 ≤ f * 5 then { s with lg := { s.lg with ringHigh := false } }
  else s

/-- A record can be written to a cartridge now: no inhibit, no other line-write on the bank, and the link up (R105, R128). -/
def ringReady (s : State) (h : Slot × Nat) : Bool :=
  !inhibited s h.1 && bankFree s h.1 (bankOf h.2) && linkReady s h.1

/-- One record on one cartridge: a lento line-write of the provider's column, with its tries, relocation and failure
(R109–R112, R167). -/
def putRing (h : Slot × Nat) (seq : Nat) (l : Line) (w : Tries) (s : State) : State × Tries :=
  let (x, cl) := h
  let (s, r) := engineLine uLG x cl .lento w (touchBank x cl s)
  let key := seq % 2 ^ 20
  if r.ok then (reservedPassed x cl l (modCart x (fun c => { c with ring := insertKey key l c.ring }) s), r.rest)
  else (modCart x (fun c => { c with ring := dropKey key c.ring }) s, r.rest)

/-- A record to every cartridge that takes it; on a cartridge that cannot be written now it is late (R128). -/
def writeRing (seq tag : Nat) (l : Line) : List (Slot × Nat) → Tries → State → State × Tries
  | [], w, s => (s, w)
  | h :: rest, w, s =>
    if ringReady s h then
      let (s, w) := putRing h seq l w s
      writeRing seq tag l rest w s
    else writeRing seq tag l rest w { s with lg := { s.lg with late := s.lg.late ++ [⟨h.1, seq, l, tag⟩] } }

/-- The line of a late record on its cartridge. -/
def lateLine (s : State) (e : LateRing) : Slot × Nat :=
  (e.slot, (s.slot e.slot).cart.elim 0 fun c => ringBase c.big + e.seq % 2 ^ 20)

/-- A late record can be written, or its cartridge no longer serves. -/
def lateDue (s : State) (e : LateRing) : Bool := !(s.slot e.slot).serves || ringReady s (lateLine s e)

/-- The tag of a record whose writes have ended returns (R53). -/
def endRecord (s : State) (tag : Nat) : State :=
  if s.lg.late.any (fun e => decide (e.tag = tag)) then s else dropTag tag s

/-- Records that are late are written in order; one for a cartridge that left service is dropped with it. -/
def writeLate : List LateRing → Tries → State → State × Tries
  | [], w, s => (s, w)
  | e :: rest, w, s =>
    if lateDue s e then
      let s := { s with lg := { s.lg with late := s.lg.late.erase e } }
      let (s, w) := if (s.slot e.slot).serves then putRing (lateLine s e) e.seq e.line w s else (s, w)
      writeLate rest w (endRecord s e.tag)
    else writeLate rest w s

/-- The late records that can be written now. -/
def settleLate (w : Tries) (s : State) : State × Tries := writeLate s.lg.late w s

/-- Room for what is at the front: a frame and one marker before it starts, else one record (R170). -/
def unitRoom (s : State) (u : LgUnit) : Bool :=
  if u.marker || decide (u.left.length < u.whole.length) then decide (1 ≤ ringFree s)
  else decide (u.whole.length + 1 ≤ ringFree s)

/-- A write of the unit at the front of the ring's queue has not passed verify. -/
def unitLate (s : State) (u : LgUnit) : Bool :=
  s.lg.late.any fun e => decide ((lo32 e.seq - s.lg.sealedSeq).toNat < u.whole.length)

/-- Markers at the front whose record has passed verify are sealed, each alone; their requests are made with the next frame's (R167). -/
def sealMarkers : List LgUnit → State → State
  | [], s => s
  | u :: rest, s =>
    if u.marker && u.left.isEmpty && !unitLate s u then
      sealMarkers rest { s with lg := { s.lg with sealedSeq := s.lg.sealedSeq + 1, owed := s.lg.owed + 1, outq := rest } }
    else s

/-- The next record is issued to the ring's cartridges; it waits while none of them can take it, and for a tag
(R167, R168, R170). -/
def issueRecord (w : Tries) (s : State) : State × Tries :=
  let done := s.lg.outq.takeWhile fun u => u.left.isEmpty
  match s.lg.outq.dropWhile fun u => u.left.isEmpty with
  | [] => (s, w)
  | u :: rest =>
    match u.left with
    | [] => (s, w)
    | l :: more =>
      let seq := s.lg.writeSeq.toNat
      let homes := ringHomes s seq
      if homes.all (fun h => !ringReady s h) || !unitRoom s u || !tagFree s .ledg provider || !writesRun s then (s, w)
      else
        let t := newTag s .ledg provider
        let (s, w) := writeRing seq t.id (withSeq seq l) homes w (takeTag .ledg provider s)
        let s := endRecord s t.id
        (ringHigh { s with lg := { s.lg with writeSeq := s.lg.writeSeq + 1, outq := done ++ { u with left := more } :: rest } }, w)

/-- LEDGER_WRITE: late records first, then the next record, and markers that have passed verify are sealed. -/
def ledgerWriteWith (w : Tries) (s : State) : State × Tries :=
  let (s, w) := settleLate w s
  let (s, w) := issueRecord w s
  (sealMarkers s.lg.outq s, w)

def ledgerWrite (w : Tries) (s : State) : State := (ledgerWriteWith w s).1

/-- The frame at the front is sealed when its last record has passed verify (R167). -/
def frameSealed (s : State) : State :=
  match s.lg.outq with
  | u :: rest =>
    if u.marker || !u.left.isEmpty || unitLate s u then s
    else
      let n := u.whole.length + s.lg.owed
      let s := { s with lg := { s.lg with
        sealedSeq := s.lg.sealedSeq + lo32 u.whole.length, sealedMinute := lo32 u.minute, owed := 0, outq := rest
        sealedCumul := addSums s.lg.sealedCumul u.sum } }
      let s := pulseLine 1 ((n + 15) / 16) s
      let s := formTotals 0 (trace 0x0C 0 (lo32 u.minute) s.lg.sealedSeq s)
      sealMarkers s.lg.outq s
  | [] => s

/-- A marker goes in before a frame that has not begun, and behind one that has (R163). -/
def insertMarker (u : LgUnit) : List LgUnit → List LgUnit
  | [] => [u]
  | x :: rest => if x.marker || decide (x.left.length < x.whole.length) then x :: insertMarker u rest else u :: x :: rest

/-- A SWAP marker (R179): reason, serial leaving, serial holding the ring. -/
def swapMarker (reason : Nat) (leaving holding : BitVec 64) (s : State) : State :=
  let m := markerRecord s.lg.minute 4 s.lg.epoch (lgtMs s.lg.lgt) 0 reason leaving.toNat holding.toNat
  { s with lg := { s.lg with outq := insertMarker (markerUnit s.lg.minute m) s.lg.outq } }

/-! ### Metronome rows (R161, R162) -/

/-- e of a discipline interval in ppb updates DISC, or the interval is discarded (R161). -/
def discipline (cycles : Nat) (s : State) : State :=
  let e : Int := (cycles : Int) - 1000000000
  if e < -500000 ∨ 500000 < e then
    let s := if s.lg.rangeRun then s
      else raise uLG cMETRONOME_RANGE noCtx (BitVec.ofInt 32 (e / 1000)) 0 0 s
    { s with lg := { s.lg with discHold := true, rangeRun := true } }
  else { s with lg := { s.lg with disc := s.lg.disc + (e - s.lg.disc) / 16, discHold := false, rangeRun := false } }

/-! ### Host time (R172–R174) -/

/-- D of a sync in milliseconds, against LGT as LG_TIME shows it (log 15). -/
def syncOffset (s : State) (t : Nat) : Int := (t : Int) - lgtMs s.lg.lgt

/-- A signed value that fits 32 bits, saturating (Table 6.11). -/
def sat32 (x : Int) : Int := if x < -2147483648 then -2147483648 else if 2147483647 < x then 2147483647 else x

/-- Within the guard: the offset is slewed away, and the minute carries SLEW (R173, Table 6.3). -/
def syncSlew (d : Int) (s : State) : State :=
  { s with lg := { s.lg with
      slew := d * sec1 / 1000, offset := sat32 d, unsynced := false, syncAge := 0, action := 1
      flags := if d * sec1 / 1000 = 0 then s.lg.flags else s.lg.flags ||| 0x04 } }

/-- Beyond the guard, in cycle S: the open minute closes with DRIFT, and from S + 1 LGT is the host's time in a new epoch; a STEP
marker follows the closed frame (R174). Where a tick of the same cycle closes the minute, it closes without DRIFT, and the step
opens the minute that would have opened (chapter 06, Corners). -/
def syncStep (t : Nat) (d : Int) (s : State) : State :=
  let a := lgtMs s.lg.lgt
  let epoch := (s.lg.epoch + 1) % 2 ^ 16
  let next := minuteOf (ofMs t)
  let m := markerUnit next (markerRecord next 1 epoch a t (signed 64 (d * 1000)) 0 0)
  let s := if s.lg.closing.isSome then s else chargeAll (closeMinute 0x01 next 0 [] s)
  let s := { s with lg := { s.lg with
    slew := 0, offset := sat32 d, unsynced := false, syncAge := 0, action := 2
    closing := s.lg.closing.map fun k =>
      { k with next := next, flags := k.flags ||| 0x02, trail := k.trail ++ [m], step := some (ofMs t) } } }
  raise uLG cLEDGER_STEP noCtx (BitVec.ofInt 32 (sat32 d)) (lo32 epoch) 0 s

/-! ### Low power (R175) -/

/-- The held minute goes on with POWER, or it is sealed and the minute of LGT opens with POWER; `trail` makes the markers that
follow its frame from the minute that opens (R175, R178). -/
def resumeMinute (extra : BitVec 8) (trail : Nat → List LgUnit) (s : State) : State :=
  let m := minuteOf s.lg.lgt
  let same := decide (m = s.lg.minute)
  let s := { s with lg := { s.lg with secSeen := s.lg.lgt / sec1, sameMinute := same } }
  if same then { s with lg := { s.lg with flags := s.lg.flags ||| extra } }
  else swapMinute (chargeAll (closeMinute extra m 0x08 (trail m) s))

/-! ### Power loss and reconciliation (R177, R178) -/

/-- The counter sets, LGT at D0 and the waiting frame as a copy holds them (R177), with the running merge they belong to
(log 123). Markers that wait are not held (log 124). A frame whose records are all on the ring is found there (chapter 06,
Corners). -/
def heldNow (stage lgt : Nat) (s : State) : Held :=
  let u := s.lg.outq.find? fun u => !u.marker && !u.left.isEmpty
  { counters := s.lg.live.toList, totals := s.lg.totals, minute := s.lg.minute, epoch := s.lg.epoch, flags := s.lg.flags
    mergeFirst := if s.lg.merging then some s.lg.mergeFirst.toNat else none
    lgt := lgt, frame := u.elim [] fun u => u.whole, frameMinute := u.elim 0 fun u => u.minute
    stage := stage, traceLost := s.ev.traceLost }

/-- The D1 copy in the retention latches (R177); a minute that closes in D0's cycle has closed before it. -/
def retainD1 (s : State) : State :=
  let s := swapMinute s
  { s with lg := { s.lg with retention := some (heldNow 1 s.lg.lgt s), islandLost := false } }

/-- D5: a running seal completes, the counter sets and a waiting frame go to the hold area's ledger section and to the
latches; the sets include the wear of the D6 commit record (R177). A record that waited for the target's clear is written first (R131). -/
def retainD5 (target : Option Slot) (s : State) : State :=
  let s := finishSeal s
  let lgt := s.lg.retention.elim s.lg.lgt fun h => h.lgt
  let put := fun (s : State) (e : LateRing) => if target = some e.slot then (putRing (lateLine s e) e.seq e.line [] s).1 else s
  let s := s.lg.late.foldl put s
  let s := { s with lg := { s.lg with retention := some (heldNow 2 lgt s) } }
  match target with
  | some x => modCart x (fun c => { c with hold := { c.hold with ledger := some (heldNow 2 lgt s) } }) s
  | none => s

/-- The ring's record of a sequence number, when it is one (R164, R178). -/
def ringRecordAt (c : Cart) (seq : Nat) : Option (List Byte) :=
  match look (seq % 2 ^ 20) c.ring with
  | none => none
  | some l =>
    let b := lineBytes l
    if ofLe ((b.drop 8).take 4) = seq ∧ ofLe (b.drop 60) = crc32 (b.take 60) then some b else none

/-- Counter fields of a record's bytes (Table 6.2). -/
def countersOf (b : List Byte) : Counters :=
  let n := fun lo len => ofLe ((b.drop lo).take len)
  let m := fun lo => BitVec.ofNat 40 (n lo 5)
  { read := m 12, wPresto := m 17, wMod := m 22, wLento := m 27, wear := m 32, occ := BitVec.ofNat 32 (n 37 4), ops := m 41
    errCorr := m 46, errHard := BitVec.ofNat 32 (n 51 4), errRefused := m 55 }

/-- The ring scanned from LG_SEALED_SEQ: one past the last complete frame (or marker between frames), its minute and the
totals it adds (R178, step 1). -/
def scanRing (c : Cart) : Nat → Nat → Bool → Nat × Nat × Sums → Nat × Nat × Sums
  | 0, _, _, best => best
  | fuel + 1, seq, inFrame, best =>
    match ringRecordAt c (seq % 2 ^ 32) with
    | none => best
    | some b =>
      let kind := (b.getD 4 0).toNat
      if kind = 0xFE then
        scanRing c fuel (seq + 1) false ((seq + 1) % 2 ^ 32, ofLe (b.take 4), addSums best.2.2 (countersOf b))
      else if kind = 0xFD then
        scanRing c fuel (seq + 1) inFrame (if inFrame then best else ((seq + 1) % 2 ^ 32, best.2.1, best.2.2))
      else scanRing c fuel (seq + 1) true best

/-- The counts of the interrupted minute and where they come from (Table 6.8). -/
def reconSource (s : State) (hold : Option Held) : Nat × Option Held :=
  match hold with
  | some h => (1, some h)
  | none => match s.lg.retention with
    | some h => if s.lg.islandLost then (4, none) else if h.stage = 2 then (2, some h) else (3, some h)
    | none => (4, none)

/-- A list of counter sets as the bank of 129. -/
def bankOfList (l : List Counters) : Vector Counters 129 := Vector.ofFn fun i => l.getD i.val {}

/-- Source 3 adds the drain's own line-writes for each entry replayed, and the header's (Table 6.8, R38). -/
def shortWear (entries : Nat) (k : Counters) : Counters := addWear .lento 1 (addWear .presto (2 * entries) k)

/-- The waiting units are written as far as they can be. -/
def writeWaiting : Nat → Tries → State → State × Tries
  | 0, w, s => (s, w)
  | n + 1, w, s =>
    let (s, w) := ledgerWriteWith w s
    writeWaiting n w (frameSealed s)

/-- Every record that waits is written as far as it can be. -/
def writeAll (w : Tries) (s : State) : State × Tries :=
  writeWaiting (2 * total (fun u => u.whole.length) s.lg.outq + 1) w s

/-- What reconciliation takes the interrupted minute from (R178, step 3): its source, and its counters with the drain's own
line-writes under source 3. -/
structure Interrupted where
  src    : Nat
  held   : Option Held
  minute : Nat
  epoch  : Nat
  counts : Vector Counters 129
  totals : Counters

def interruptedOf (src : Nat) (held : Option Held) (replayed sealedMinute ringEpoch : Nat) : Interrupted :=
  let counts := held.elim (Vector.replicate 129 {}) fun h => bankOfList h.counters
  let totals := held.elim {} fun h => h.totals
  { src := src, held := held, minute := held.elim (sealedMinute + 1) fun h => h.minute
    epoch := held.elim ringEpoch fun h => h.epoch
    counts := if src = 3 then modAt counts provider (shortWear replayed) else counts
    totals := if src = 3 then shortWear replayed totals else totals }

/-- The interrupted minute is the open one, with its counts; a merge it belongs to goes on (R178, steps 3 and 4; log 123). -/
def takeInterrupted (i : Interrupted) (lgt : Nat) (s : State) : State :=
  let merge := i.held.bind fun h => h.mergeFirst
  let flags : BitVec 8 := 0x08 ||| (if i.src = 3 then 0x40 else 0) ||| (if i.src = 4 then 0x80 else 0)
  { s with lg := { s.lg with
      live := i.counts, totals := i.totals, minute := i.minute, lgt := lgt, source := BitVec.ofNat 3 i.src
      merging := merge.isSome, mergeFirst := lo32 (merge.getD 0), unsynced := s.lg.unsynced || s.lg.islandLost
      flags := (i.held.elim 0 fun h => h.flags) ||| flags } }

/-- Counts made by replay writes and by the records written here join the minute that is open (R178, step 5). -/
def addBank (bank : Vector Counters 129) (totals : Counters) (s : State) : State :=
  { s with lg := { s.lg with
      live := Vector.ofFn fun c : Ctx => s.lg.live[c].add bank[c], totals := s.lg.totals.add totals } }

/-- Step 1 of R178 with the waiting frame of step 2: the ring's position, the totals, and the frame queued. -/
def adoptRing (seq minute : Nat) (more : Sums) (frame : List LgUnit) (epoch : Nat) (s : State) : State :=
  let cumul := Vector.ofFn fun i : Fin 10 => s.lg.sealedCumul[i] + more[i]
  { s with pc := { s.pc with reconciled := true }, lg := { s.lg with
      writeSeq := lo32 seq, sealedSeq := lo32 seq, sealedMinute := lo32 minute, sealedCumul := cumul
      cumul := frame.foldl (fun v u => addSums v u.sum) cumul, outq := frame, epoch := epoch } }

/-- Steps 1 to 6 of R178, with a SLEEP marker at a planned HIBERNATE's exit (R324). `target` is the hold target, `replayed` the
entries replayed, `w` the outcomes of the ring writes. -/
def reconcile (target : Option Slot) (replayed : Nat) (w : Tries) (s : State) : State :=
  let cart := target.bind fun x => (s.slot x).cart
  let start := s.lg.sealedSeq.toNat
  let none' := (start, s.lg.sealedMinute.toNat, Vector.replicate 10 0)
  let (seq, minute, more) := cart.elim none' fun c => scanRing c c.ring.length start false none'
  let (src, held) := reconSource s (cart.bind fun c => c.hold.ledger)
  let sumOf := fun (f : List Line) => countersOf (lineBytes (f.getLast?.getD 0))
  let frame : List LgUnit := match held with
    | some h => if src = 1 ∧ h.frame ≠ [] then [⟨false, h.frameMinute, h.frame, h.frame, sumOf h.frame⟩] else []
    | none => []
  let ringEpoch := if seq = start then s.lg.epoch
    else ((cart.bind fun c => ringRecordAt c ((seq + 2 ^ 32 - 1) % 2 ^ 32)).elim s.lg.epoch fun b => ofLe ((b.drop 6).take 2))
  let i := interruptedOf src held replayed minute ringEpoch
  let lost := s.lg.islandLost
  let lgt := if lost then (i.minute + 1) * min1 else s.lg.lgt
  let epoch' := if lost then (i.epoch + 1) % 2 ^ 16 else i.epoch
  let stopped := held.elim (i.minute * min1 + min1) fun h => h.lgt
  let sleep := s.pw.planned && !lost
  let entered := s.pw.lpEnter.elim stopped fun e => e.1
  let m := minuteOf lgt
  let off := markerUnit m (markerRecord m 2 epoch' (lgtMs stopped) (lgtMs lgt) src 0 0)
  let (s, w) := writeAll w (adoptRing seq minute more frame i.epoch s)
  let (s, w) := if sleep then (s, w) else writeAll w { s with lg := { s.lg with outq := s.lg.outq ++ [off] } }
  let bank := s.lg.live
  let totals := s.lg.totals
  let s := takeInterrupted i lgt s
  let trail := fun m => if sleep then [markerUnit m (markerRecord m 3 i.epoch (lgtMs entered) (lgtMs lgt) 2 0 0)] else []
  let s := resumeMinute s.lg.flags trail s
  let s := addBank bank totals { s with lg := { s.lg with epoch := epoch' } }
  let s := (writeAll w s).1
  let s := if src = 3 then target.elim s fun x => chargeSlot x (8 * replayed + 1) s else s
  let s := formTotals 0 s
  let s := if src = 4 then raise uLG cLEDGER_LOST (ctxByte provider) 0 0 0 s else s
  let s := raise uLG cLEDGER_RECONCILED noCtx (lo32 src) s.lg.sealedSeq 0 s
  { s with pc := { s.pc with asn := 0 }, lg := { s.lg with islandLost := false }
           pw := { s.pw with lpEnter := none, planned := false } }

end Sys2Proof.Machine
end

