-- ==== Sys2Proof/Machine/Duet.lean ====
section
/-! DEFINITION. The duet: the binding record, formats, copies and their chain, cut-over, departures and returns
(R80–R82, R91–R102, R179, R213, R388). -/

namespace Sys2Proof.Machine

/-! ### Binding (R80, R82) -/

/-- The slot is named in service by the binding record. -/
def DuetUnit.names (d : DuetUnit) : Slot → Bool
  | .a => d.inA
  | .b => d.inB

/-- The binding's serial of a slot. -/
def DuetUnit.serialOf (d : DuetUnit) : Slot → BitVec 64
  | .a => d.serialA
  | .b => d.serialB

/-- The binding names a set of slots in service, with the serials seated there. -/
def bindSlots (a b : Bool) (s : State) : State :=
  { s with duet := { s.duet with
      inA := a, inB := b
      serialA := if a then (if s.duet.inA && !(s.slot .a).serves then s.duet.serialA else (s.slot .a).serial) else 0
      serialB := if b then (if s.duet.inB && !(s.slot .b).serves then s.duet.serialB else (s.slot .b).serial) else 0 } }

/-- SOLO of a slot. -/
def soloOf : Slot → Duet
  | .a => .soloA
  | .b => .soloB

/-- The binding tag on a seated cartridge: one lento header line (R80, R82; its price: log 16). -/
def writeTag (x : Slot) (s : State) : State :=
  let line := (s.slot x).cart.elim 0 fun c => headerBase c.big
  modCart x (fun c => { c with header := true, tagEngine := engineId, tagGen := s.duet.gen }) (engineLine (uCT x) x line .lento [] s).1

/-- A cartridge's header can be written now: it is in service, without an inhibit (R127). -/
def tagReady (s : State) (x : Slot) : Bool := (s.slot x).serves && !inhibited s x

/-- The binding that names the destination of a migration, as the cut-over writes it (R102). -/
def cutBinding (s : State) : Binding :=
  let dst := s.duet.source.other
  { gen := s.duet.gen, serialA := if dst = .a then (s.slot .a).serial else 0
    serialB := if dst = .b then (s.slot .b).serial else 0, state := soloOf dst, inA := decide (dst = .a)
    inB := decide (dst = .b), srcB := decide (s.duet.source = .b), holdB := decide (dst = .b) }

/-- The cartridges that the next binding record names, with the record's contents. -/
def nextBinding (code : Duet) (s : State) : List Slot × Binding :=
  if s.duet.state = .migrateCut then ([s.duet.source.other], cutBinding s)
  else (bothSlots.filter fun x => s.duet.names x, { bindingNow s with state := code })

/-- A change of the binding record that is due is made once every cartridge it names can take its tag: the generation advances,
each gets the new tag, then the record is formed (R82, log 132). -/
def settleBind (s : State) : State :=
  match s.duet.bindDue with
  | none => s
  | some code =>
    if (nextBinding code s).1.all fun x => tagReady s x then
      let s := { s with duet := { s.duet with bindDue := none, gen := (s.duet.gen + 1) % 2 ^ 32 } }
      let s := (nextBinding code s).1.foldl (fun s x => writeTag x s) s
      formBinding (nextBinding code s).2 s
    else s

/-- The binding record changes (R82). -/
def rebind (code : Duet) (s : State) : State := settleBind { s with duet := { s.duet with bindDue := some code } }

/-- A slot becomes SPARE: its tag is of an older generation now, so it is FOREIGN (R81). -/
def toSpare (x : Slot) : State → State :=
  modSlot x fun t => if t.cart.isSome then { t with state := .spare, bound := false, foreign := true } else t

/-- The capacity of a member is noted as it was identified (R136). -/
def noteMib (x : Slot) (s : State) : State :=
  match x with
  | .a => { s with duet := { s.duet with mibA := slotMib s.ct.a } }
  | .b => { s with duet := { s.duet with mibB := slotMib s.ct.b } }

/-- A slot enters service as BOUND. -/
def toService (x : Slot) (s : State) : State :=
  noteMib x (modSlot x (fun t => if t.cart.isSome then { t with state := .inService, bound := true, foreign := false } else t) s)

/-- The duet enters SOLO of a slot; the other seated cartridge in service becomes SPARE (Table 3.8). -/
def becomeSolo (x : Slot) (s : State) : State :=
  let s := if (s.slot x.other).state = .inService then toSpare x.other s else s
  let s := bindSlots (decide (x = .a)) (decide (x = .b)) (goDuet (soloOf x) s)
  rebind (soloOf x) { s with duet := { s.duet with holdB := decide (x = .b) } }

/-! ### Formats (R388) -/

/-- Lines a format writes. -/
def formatLines (full : Bool) : Nat := if full then 245760 else 49152

/-- A cartridge as a format leaves it: a valid header's relocation, levelling and repair blocks are carried over. -/
def formatted (full : Bool) (c : Cart) : Cart :=
  { c with
      relocs := if c.header then c.relocs else [], levels := if c.header then c.levels else []
      repairRows := if c.header then c.repairRows else [], header := true, tagEngine := engineId
      hold := {}, resync := [], quarantine := if full then [] else c.quarantine, trace := if full then [] else c.trace }

/-- The cartridge line of the n-th line that a format writes: header, hold area's first MiB, resync map, then the quarantine and
trace areas (R388). -/
def formatLine (big : Bool) (n : Nat) : Nat :=
  if n < mibLines then headerBase big + n
  else if n < 2 * mibLines then holdBase big + (n - mibLines)
  else if n < 3 * mibLines then resyncBase big + (n - 2 * mibLines)
  else if n < 11 * mibLines then quarBase big + (n - 3 * mibLines)
  else traceBase big + (n - 11 * mibLines)

/-- A line of a format whose 8 tries failed: its relocation, or its end as an engine-issued write (R112). -/
def formatFailed (x : Slot) (s : State) (f : Nat × Tries) : State :=
  let cl := (s.slot x).cart.elim 0 fun c => formatLine c.big f.1
  let s := { s with md := { s.md with tFailed := s.md.tFailed + 1 } }
  let (s, r) := relocate x cl (physOf s x cl) f.2 s
  if r.ok then s
  else enginePwf (uCT x) x cl .moderato r.tried (poisonLine x cl ((lineOn s x cl).poisoned 0) r.rest s)

/-- Line-writes spread over every bank of a slot's cartridge count toward the banks' gap moves (R122). -/
def bumpBanks (x : Slot) (n : Nat) (s : State) : State :=
  let count := Vector.ofFn fun i : Fin 256 => s.md.gapCount[i] + if i.val / 128 = x.num then n else 0
  { s with md := { s.md with gapCount := count } }

/-- The format of a seated cartridge: its line-writes at moderato in the provider's column, its contents, and the lines among
them that failed (R388). -/
def formatCart (full : Bool) (failed : List (Nat × Tries)) (x : Slot) (s : State) : State :=
  let s := bumpBanks x (formatLines full / 128) (engineWrites x .moderato (formatLines full) s)
  failed.foldl (formatFailed x) (modCart x (formatted full) s)

/-! ### The copy chain (R99, R213) -/

/-- The channel is reserved by CT_DUET_CFG.MIG_CH. -/
def reservedCh (s : State) (n : Fin 32) : Bool := decide (28 ≤ n.val) && bit s.duet.migCh (n.val - 28)

/-- Reserved channels, C31 first. -/
def reservedList (s : State) : List (Fin 32) := [31, 30, 29, 28].filter fun n => reservedCh s n

/-- Entries of the ring (R213), by the channels reserved now: a write of MIG_CH during a copy changes it at once (DESIGN CHOICE,
log 130). -/
def ringEntries (s : State) : Nat :=
  let r := (reservedList s).length
  if r = 0 then 64 else 64 - 64 % r

/-- What an unlisted byte of the descriptor SRAM reads as. -/
def sramDefault (_ : Nat) : Byte := 0

def sramWrite (a : Nat) (bs : List Byte) (s : State) : State :=
  { s with dm := { s.dm with sram := memWriteMany sramDefault a bs s.dm.sram } }

/-- The destination address of a source byte: user addresses are the same, reserved areas lie above each cartridge's
own user capacity (Table 3.3). -/
def destAddr (s : State) (addr : Nat) : Nat :=
  match (s.slot s.duet.source).cart, (s.slot s.duet.source.other).cart with
  | some a, some b => if addr / 64 < userLines a.big then addr else addr + userLines b.big * 64 - userLines a.big * 64
  | _, _ => addr

/-- The bytes of a ring entry (Table 7.16): an extent with OWN and BARRIER, or LAST behind the last extent. -/
def copyEntry (s : State) (index : Nat) (e : Option Extent) : List Byte :=
  let r := (reservedList s).length
  let next := 0xF000 + 64 * ((index + r) % ringEntries s) + 1
  match e with
  | some e =>
    leBytes 4 0xC4478000 ++ leBytes 4 e.length ++ leBytes 8 (s.duet.source.num * 2 ^ 40 + e.base)
      ++ leBytes 8 (s.duet.source.other.num * 2 ^ 40 + destAddr s e.base) ++ leBytes 8 next ++ leBytes 4 e.number ++ zeros 28
  | none => leBytes 4 0x14478000 ++ zeros 20 ++ leBytes 8 next ++ zeros 32

/-- An entry of the ring is written for an extent number. -/
def writeEntryOf (number : Nat) (s : State) : State :=
  let i := number % ringEntries s
  sramWrite (0xF000 + 64 * i) (copyEntry s i (s.duet.plan.find? fun e => e.number = number)) s

/-- A reserved channel that is IDLE starts on the entry of its first extent left (R213). -/
def startCopyCh (s : State) (n : Fin 32) : State :=
  let j := ((reservedList s).takeWhile fun m => decide (m ≠ n)).length
  let first := s.duet.plan.find? fun e => e.number % (reservedList s).length = j
  let entry := first.elim j fun e => e.number % ringEntries s
  let head : BitVec 64 := BitVec.ofNat 64 (0xF000 + 64 * entry + 1)
  modCh n (fun c => if c.state = .idle ∧ c.copy = false then
    { c with
        format := true, persist := true, codaEn := true, irq := 0, paced := true, reqSel := 2, burst := 16, group := 0
        head := head, cur := head, state := .fetch, copy := true }
    else c) s

/-- Extents of 1 MiB, or the remainder, over a byte range. -/
def extentsOf : Nat → Nat → Nat → List (Nat × Nat)
  | 0, _, _ => []
  | k + 1, base, len => if len = 0 then [] else (base, min len 0x100000) :: extentsOf k (base + 0x100000) (len - 0x100000)

/-- Insertion by base address. -/
def byBase (e : Nat × Nat) : List (Nat × Nat) → List (Nat × Nat)
  | [] => [e]
  | x :: rest => if e.1 < x.1 then e :: x :: rest else x :: byBase e rest

/-- The partitions in ascending media address, in bytes (R99). -/
def partitions (s : State) : List (Nat × Nat) :=
  (indices 129).foldl (fun l c =>
    let t := s.tenant c
    if t.size = 0 then l else byBase (t.base.toNat * 2 ^ 20, t.size.toNat * 2 ^ 20) l) []

/-- The areas of a full copy, in the order of R99: quarantine area, ledger ring, trace area, partitions. -/
def copyAreas (s : State) : List (Nat × Nat) :=
  match (s.slot s.duet.source).cart with
  | some c =>
    [(quarBase c.big * 64, 8 * 2 ^ 20), (ringBase c.big * 64, 64 * 2 ^ 20), (traceBase c.big * 64, 4 * 2 ^ 20)] ++ partitions s
  | none => []

/-- Numbered extents. -/
def numbered : Nat → List (Nat × Nat) → List Extent
  | _, [] => []
  | k, (b, l) :: rest => ⟨k, b, l⟩ :: numbered (k + 1) rest

def planOf (areas : List (Nat × Nat)) : List Extent :=
  numbered 0 (areas.flatMap fun a => extentsOf ((a.2 + 0xFFFFF) / 0x100000) a.1 a.2)

/-- The plan of a copy is fixed: nothing is copied yet (Table 3.19). -/
def planCopy (areas : List (Nat × Nat)) (s : State) : State :=
  let plan := planOf areas
  { s with duet := { s.duet with
      plan := plan, handed := 0, ptr := 0, total := total (fun e => e.length / 64) plan
      noAbort := false, cutPending := false, cutGiven := false } }

/-- The copy starts: the ring is filled, unused entries read 0, and the reserved channels run it (R99, R213). -/
def startCopy (s : State) : State :=
  let e := ringEntries s
  let s := (List.range e).foldl (fun s n => writeEntryOf n s) s
  let s := sramWrite (0xF000 + 64 * e) (zeros (64 * (64 - e))) { s with duet := { s.duet with handed := e } }
  (reservedList s).foldl startCopyCh s

/-- A channel taken out of its copy, its beats discarded. -/
def DmaCh.stopped (now : Nat) (c : DmaCh) : DmaCh :=
  if c.copy then
    { c with
        state := .idle, copy := false, desc := none, beats := [], relBeats := c.relBeats.add now c.beats.length, issued := 0, written := 0
        burstOpen := false }
  else c

/-- The line-write carries a copy. -/
def LineWrite.isCopy (w : LineWrite) : Bool := match w.kind with
  | .copy _ _ => true
  | .hold _ => false

/-- A line-write that ends without a result: its tag returns, and a price in transit settles (log 128). -/
def cancelWrite (w : LineWrite) (s : State) : State :=
  let s := dropTag? w.tag s
  if w.second || w.isCopy then settle w.slot w.tempo s else s

/-- The channels of a copy that has ended go IDLE, their beats and writes discarded. -/
def stopCopy (s : State) : State :=
  let tags := s.dm.ch.toList.flatMap fun c => if c.copy then c.beats.filterMap (fun b => b.tag) else []
  let s := tags.foldl (fun s t => dropTag t s) s
  let s := (s.md.writes.filter fun w => w.isCopy).foldl (fun s w => cancelWrite w s) s
  { s with
      dm := { s.dm with ch := mapV s.dm.ch (DmaCh.stopped s.now) }
      md := { s.md with writes := s.md.writes.filter fun w => !w.isCopy }
      duet := { s.duet with plan := [], ringCopy := none } }

/-- Dirty lines wait for the other cartridge only (log 122); in MIRROR_DEGRADED the regions they touch are marked for the
resync (Table 3.7). -/
def dropHomes (x : Slot) (s : State) : State :=
  let hit := s.pc.slots.filter fun h => h.left.any fun l => decide (l.1 = x)
  let s := hit.foldl (fun s h => markResync x.other h.media s) s
  let s := { s with pc := { s.pc with slots := s.pc.slots.map fun h =>
    { h with left := h.left.filter fun l => decide (l.1 ≠ x) } } }
  hit.foldl (fun s h => match s.pc.slots.find? fun g => g.id = h.id with
    | some g => if g.left.isEmpty then slotDone g.id s else s
    | none => s) s

/-- Line-writes in flight to a slot end without a result: their hold slots stay dirty (Table 1.4, surprise removal), and a price
in transit settles (DEDUCED, log 128). -/
def dropWrites (x : Slot) (s : State) : State :=
  let mine := s.md.writes.filter fun w => decide (w.slot = x)
  let s := mine.foldl (fun s w => cancelWrite w s) s
  let rest := s.md.writes.filter fun w => decide (w.slot ≠ x)
  let back := fun (h : HoldSlot) => if mine.any (fun w => decide (w.kind = .hold h.id)) then
    { h with issued := rest.any fun w => decide (w.kind = .hold h.id) } else h
  { s with
      md := { s.md with writes := rest
                        rewrites := s.md.rewrites.filter fun r => decide (r.slot ≠ x) }
      pc := { s.pc with slots := s.pc.slots.map back } }

/-! ### Transitions of Table 3.8 -/

/-- A channel's state changes, with its trace entry (Table 13.7, type DMA). -/
def chGo (n : Fin 32) (st : ChState) (s : State) : State :=
  let c := s.dm.ch[n]
  if c.state = st then s
  else trace 0x09 (BitVec.ofNat 8 n.val) (lo32 st.code) (c.cur.setWidth 32) (modCh n (fun c => { c with state := st }) s)

/-- A registered write is completed with error (Table 1.4), in the form of WRONG_STATE (log 131). -/
def failReq (s : State) (id : Nat) : State :=
  match s.gl.ingress.find? fun r => r.id = id with
  | some r => refuseWrite r cWRONG_STATE s
  | none => s

/-- A barrier that waits for a line whose cartridge has left ends its descriptor with error (log 131). -/
def failBarrier (s : State) (n : Fin 32) : State :=
  let c := s.dm.ch[n]
  match c.desc with
  | some d => if c.state = .barrier then
      chGo n .coda (modCh n (fun c => { c with endCode := some cWRONG_STATE }) (count d.who addRefused s))
    else s
  | none => s

/-- What waits for the verify of a slot's line is completed with error; a flush that covers it keeps the line in view. -/
def failSlot (s : State) (h : HoldSlot) : State :=
  let hit := fun (f : Flush) => f.reqs.any fun r => h.reqs.any fun q => decide (q = r)
  let s := { s with pc := { s.pc with
    flushes := update hit (fun f => { f with slots := f.slots ++ [h.id] }) s.pc.flushes
    slots := update (fun g => g.id = h.id) (fun g => { g with reqs := [] }) s.pc.slots } }
  let s := h.reqs.foldl failReq s
  if h.verified then h.chans.foldl failBarrier s else s

/-- The lines whose every cartridge has left service: what waits for their verify is completed with error (Table 1.4, surprise
removal). -/
def failUnserved (s : State) : State :=
  (s.pc.slots.filter fun h => h.left.all fun l => !(s.slot l.1).serves).foldl failSlot s

/-- Dirty lines bound to cartridges that are not served are freed and counted lost (R97); a flush that covers one finds it not
durable (log 131). -/
def freeMissing (s : State) : State :=
  let dead := fun (h : HoldSlot) => h.left.any fun l => !(s.slot l.1).serves
  let gone := s.pc.slots.filter dead
  let count := fun c => (gone.filter fun h => decide (h.ctx = c)).length
  let s := gone.foldl failSlot s
  let least := fun (f : Flush) =>
    (gone.filter fun h => h.verified && f.slots.any fun id => decide (id = h.id)).foldl
      (fun (m : Option Nat) h => some (min h.verAsn (m.getD h.verAsn))) f.lost
  let s := { s with pc := { s.pc with
    flushes := s.pc.flushes.map fun f => { f with lost := least f }
    slots := s.pc.slots.filter fun h => !gone.any fun g => decide (g.id = h.id)
    relSlots := s.pc.relSlots.add s.now (gone.filter fun h => !h.direct).length } }
  (indices 129).foldl (fun s c => if count c = 0 then s
    else raise uPC cDRAIN_SHORT (ctxByte c) (lo32 (count c)) (lo32 s.pc.dirtyCount.toNat) 0 s) s

/-- The duet becomes SOLO of the member that a degraded mirror lacks: what waits for the survivor waits for that member
(Table 3.8; DEDUCED, log 17). -/
def soloOfMissing (slot : Slot) (s : State) : State :=
  let move := fun (h : HoldSlot) => { h with left := [(slot, h.media)], issued := false }
  let s := dropWrites slot.other { s with duet := { s.duet with missing := true } }
  becomeSolo slot { s with pc := { s.pc with slots := s.pc.slots.map move } }

/-- An accepted TARGET performs its transition (R96, Table 3.8). -/
def acceptTarget (target : Nat) (slot : Slot) (s : State) : State :=
  if target = 0 then
    let s := goDuet .none (freeMissing s)
    rebind .none (bindSlots false false { s with duet := { s.duet with missing := false } })
  else if target = 1 then
    match s.duet.state with
    | .none | .span | .spanDegraded => { s with duet := { s.duet with format := some (.solo slot) } }
    | _ => if (s.slot slot).serves then becomeSolo slot (dropHomes slot.other s) else soloOfMissing slot s
  else if target = 3 then { s with duet := { s.duet with format := some .span } }
  else
    let mirror := decide (target = 5)
    let s := goDuet (if mirror then .mirrorResync else .migrateCopy) s
    let s := { s with duet := { s.duet with source := slot.other, format := some (.copy slot mirror) } }
    planCopy (copyAreas s) s

/-- The cartridges that a format writes. -/
def AfterFormat.slots : AfterFormat → List Slot
  | .solo x => [x]
  | .span => [.a, .b]
  | .copy dst _ => [dst]

/-- The failed lines of slot B in a SPAN format are numbered behind those of slot A. -/
def failedOf (b : Bool) (failed : List (Nat × Tries)) : List (Nat × Tries) :=
  failed.filterMap fun f =>
    if decide (formatLines true ≤ f.1) = b then some (f.1 % formatLines true, f.2) else none

/-- A format's last write passes verify: the transition takes effect, or the copy starts (R388). It waits while a cartridge it
writes is inhibited (R127), or under authentication again (log 122). -/
def formatDone (failed : List (Nat × Tries)) (s : State) : State :=
  match s.duet.format with
  | none => s
  | some f =>
    if f.slots.any fun x => inhibited s x || decide ((s.slot x).state ≠ .spare) then s
    else
      let s := { s with duet := { s.duet with format := none } }
      match f with
      | .solo x => becomeSolo x (toService x (formatCart true (failedOf false failed) x s))
      | .span =>
        let s := formatCart true (failedOf true failed) .b (formatCart true (failedOf false failed) .a s)
        rebind .span (bindSlots true true (goDuet .span { toService .b (toService .a s) with duet := { s.duet with holdB := false } }))
      | .copy dst _ =>
        let s := toService dst (formatCart false (failedOf false failed) dst s)
        startCopy (rebind s.duet.state (bindSlots true true s))

/-- The cut-over begins: the destination gets its tag, and the record that names it is formed (R102). -/
def enterCut (s : State) : State :=
  rebind (soloOf s.duet.source.other) (goDuet .migrateCut { s with duet := { s.duet with cutPending := false } })

/-- The copy's last extent is verified: the mirror is complete, or the cut-over begins, or CUT is awaited (Table 3.8). -/
def copyDone (s : State) : State :=
  let s := stopCopy s
  match s.duet.state with
  | .mirrorResync =>
    let clear := fun (c : Cart) => { c with resync := [] }
    rebind .mirror (goDuet .mirror (modCart .b clear (modCart .a clear s)))
  | .migrateCopy =>
    if s.duet.manualCut && !s.duet.cutGiven then { s with duet := { s.duet with cutPending := true } } else enterCut s
  | _ => s

/-- Extents of the ledger ring are still to be copied. -/
def ringPlanned (s : State) : Bool :=
  match (s.slot s.duet.source).cart with
  | some c => s.duet.plan.any fun e => decide (ringBase c.big * 64 ≤ e.base) && decide (e.base < traceBase c.big * 64)
  | none => false

/-- The ring copy of R179 has ended: the SWAP marker of reason 3. -/
def settleRing (s : State) : State :=
  match s.duet.ringCopy with
  | some x =>
    if ringPlanned s then s
    else swapMarker 3 (s.slot x).serial (s.slot x).serial { s with duet := { s.duet with ringCopy := none } }
  | none => s

/-- A copy entry's coda: the extent is done; its entry is rewritten for the extent E further on (R213). -/
def extentDone (number : Nat) (s : State) : State :=
  let s := { s with duet := { s.duet with plan := s.duet.plan.filter fun e => decide (e.number ≠ number) } }
  let s := writeEntryOf (number + ringEntries s) { s with duet := { s.duet with handed := s.duet.handed + 1 } }
  let s := settleRing s
  if s.duet.plan.isEmpty then copyDone s else s

/-- A planned release begins (R91): the final supervisor commands are owed, in their order. -/
def beginRelease (x : Slot) (s : State) : State :=
  modSlot x (fun t => { t with state := .releasing, svDue := [0x04, 0x06, 0x0B] }) s

/-- The cut-over cycle (R102): the binding record that names the destination has cleared BUSY. -/
def cutOver (s : State) : State :=
  if s.duet.state ≠ .migrateCut then s
  else
    let src := s.duet.source
    let dst := src.other
    let leaving := (s.slot src).serial
    let s := goDuet (soloOf dst) s
    let s := bindSlots (decide (dst = .a)) (decide (dst = .b)) s
    let s := { s with duet := { s.duet with
      ptr := s.duet.total, noAbort := false, holdB := decide (dst = .b)
      missing := !(s.slot dst).serves } }
    let s := swapMarker 1 leaving (s.slot dst).serial s
    let s := raise (uCT dst) cMIG_DONE noCtx (lo32 s.duet.total) 0 0 s
    if (s.slot src).cart.isSome then
      beginRelease src (modSlot src (fun t => { t with bound := false, foreign := true }) s)
    else dropHomes src s

/-- The migration is aborted back to SOLO of the source (Table 3.8): 1 ABORT, 2 destination removed. A dirty line that only
the destination was to hold goes to the source (log 122). A source that is absent is missing then (DEDUCED, log 129). -/
def abortMigration (why : Nat) (s : State) : State :=
  let dst := s.duet.source.other
  let ptr := s.duet.ptr
  let s := stopCopy { s with duet := { s.duet with format := none, cutPending := false } }
  let back := fun (h : HoldSlot) => if h.first = dst then { h with left := [(dst.other, h.media)] } else h
  let s := dropHomes dst { s with pc := { s.pc with slots := s.pc.slots.map back } }
  let s := becomeSolo dst.other s
  let s := { s with duet := { s.duet with missing := !(s.slot dst.other).serves } }
  raise (uCT dst) cMIG_ABORT noCtx (lo32 ptr) (lo32 why) 0 s

/-! ### Departures and returns (R92, R93, R97) -/

/-- Every region of the extents still to copy is marked on the survivor, when a resync loses its destination. -/
def markPlan (x : Slot) (s : State) : State :=
  s.duet.plan.foldl (fun s e => (List.range ((e.length + 65535) / 65536)).foldl (fun s k =>
    markResync x (e.base / 64 + 1024 * k) s) s) s

/-- A SOLO or SPAN format of a cartridge that leaves has no last write (R388, log 122). -/
def cancelFormat (x : Slot) (s : State) : State :=
  match s.duet.format with
  | some (.solo y) => if y = x then { s with duet := { s.duet with format := none } } else s
  | some .span => { s with duet := { s.duet with format := none } }
  | _ => s

/-- The ring copy to a member that left, or from it, ends. -/
def endRing (s : State) : State := if s.duet.ringCopy.isSome then stopCopy s else s

/-- What the duet makes of a member that served and left: `swap` writes the SWAP marker of a member that held the ring (R179). -/
def lostMember (x : Slot) (swap : State → State) (s : State) : State :=
  let miss := fun (s : State) => { s with duet := { s.duet with missing := true } }
  match s.duet.state with
  | .soloA | .soloB | .mirrorDegraded | .spanDegraded => miss s
  | .mirror => swap (dropHomes x (goDuet .mirrorDegraded { s with duet := { s.duet with source := x.other } }))
  | .span => swap (goDuet .spanDegraded { endRing s with duet := { (endRing s).duet with source := x.other } })
  | .mirrorResync =>
    if x = s.duet.source then s
    else
      let held := !ringPlanned s
      let s := goDuet .mirrorDegraded { s with duet := { s.duet with format := none } }
      let s := dropHomes x (stopCopy (markPlan x.other s))
      if held then swap s else s
  | .migrateCopy => if x = s.duet.source then s else abortMigration 2 s
  | _ => s

/-- A cartridge leaves service: CART_GONE with the duet state, what the duet makes of it (Table 3.8, R97), and the error of the
writes that only it was to hold (Table 1.4). -/
def departure (x : Slot) (serial : BitVec 64) (served : Bool) (s : State) : State :=
  let s := raiseF (uCT x) cCART_GONE noCtx (BitVec.ofNat 4 s.duet.state.code) (BitVec.ofNat 32 x.num) (serial.setWidth 32)
    ((serial >>> 32).setWidth 32) s
  let s := cancelFormat x (dropWrites x s)
  let s := if served then lostMember x (swapMarker 2 serial (s.slot x.other).serial) s
    else match s.duet.format with
      | some (.copy dst _) => if dst = x then abortMigration 2 s else s
      | _ => if s.duet.names x then s else dropHomes x s
  failUnserved s

/-- Runs of neighbouring numbers in a rising list, as first and length. -/
def runsOf : List Nat → List (Nat × Nat)
  | [] => []
  | k :: rest =>
    match runsOf rest with
    | (a, n) :: more => if k + 1 = a then (k, n + 1) :: more else (k, 1) :: (a, n) :: more
    | [] => [(k, 1)]

/-- A number put into a rising list. -/
def rising (k : Nat) : List Nat → List Nat
  | [] => [k]
  | m :: rest => if k < m then k :: m :: rest else m :: rising k rest

/-- The ring lines that a member which was away lacks, as areas of its partner to copy (R179). -/
def ringAreas (x : Slot) (s : State) : List (Nat × Nat) :=
  match (s.slot x.other).cart, (s.slot x).cart with
  | some c, some d =>
    let missed := (c.ring.filter fun e => decide (look e.1 d.ring ≠ some e.2)).foldl (fun l e => rising e.1 l) []
    (runsOf missed).map fun r => ((ringBase c.big + r.1) * 64, r.2 * 64)
  | _, _ => []

/-- The ring copy of R179 starts alone: the records that a returned member of a span lacks, by the reserved channels (R213). -/
def startRing (x : Slot) (s : State) : State :=
  let areas := ringAreas x s
  let s := planCopy areas { s with duet := { s.duet with source := x.other, ringCopy := some x } }
  if areas.isEmpty then settleRing s else startCopy s

/-- The marked 64 KiB regions of a survivor, as areas to copy. -/
def markedAreas (c : Cart) : List (Nat × Nat) := (c.resync.foldl (fun l r => byBase (r * 65536, 65536) l) [])

/-- The resync of a returned member starts: the ring records it lacks, then the marked regions only (Table 3.7, R179). -/
def startResync (x : Slot) (s : State) : State :=
  let s := goDuet .mirrorResync { s with duet := { s.duet with source := x.other, ringCopy := some x } }
  let marked := match (s.slot x.other).cart with
    | some c => markedAreas c
    | none => []
  let areas := ringAreas x s ++ marked
  let s := settleRing (planCopy areas (toService x s))
  let s := rebind .mirrorResync (bindSlots true true s)
  if areas.isEmpty then copyDone s else startCopy s

/-- A missing cartridge is back: it serves, MISSING clears, and a change of the binding record that waited for it is made (R97). -/
def backInService (x : Slot) (s : State) : State :=
  settleBind { toService x s with duet := { s.duet with missing := false } }

/-- A cartridge is seated, BOUND and tested: what the duet makes of its arrival (Table 3.8, R97). -/
def arrival (x : Slot) (s : State) : State :=
  let ready := fun (t : CtSlot) => t.bound && t.tested && t.cart.isSome
  if !ready (s.slot x) then s
  else
    match s.duet.state with
    | .soloA | .soloB => if s.duet.missing then backInService x s else s
    | .mirrorDegraded =>
      if s.duet.missing then
        if x = s.duet.source then
          let s := backInService x s
          if ready (s.slot x.other) then startResync x.other s else s
        else s
      else if x = s.duet.source then s else startResync x s
    | .spanDegraded =>
      if s.duet.missing then
        if x = s.duet.source then
          let s := backInService x s
          if ready (s.slot x.other) then startRing x.other (goDuet .span (toService x.other s)) else s
        else s
      else startRing x (goDuet .span (toService x s))
    | _ => s

/-- The member that is missing is the survivor, and the slot's cartridge is the stale one (R97). -/
def stale (s : State) (x : Slot) : Bool :=
  s.duet.missing && decide (s.duet.state = .mirrorDegraded) && decide (x ≠ s.duet.source)

/-- The duet needs the slot's cartridge: the binding names it, and it is not a stale one (R90, step I6; R97). -/
def needed (s : State) (x : Slot) : Bool := s.duet.names x && !stale s x

end Sys2Proof.Machine
end

