-- ==== Sys2Proof/Machine/Change.lean ====
section
/-! DEFINITION. The change a countersign holds: its record, digest and tag, and its lapse (R150–R154). -/

namespace Sys2Proof.Machine

/-- The change record (Table 5.4). -/
def changeRecord (s : State) : List Byte :=
  [0x43, 0x53, 0x47, 0x37] ++ leBytes 8 engineId.toNat ++ wordBytes s.cs.chgNo ++ [if s.cs.mgmt then 2 else 1]
    ++ leBytes 1 s.cs.entries.length ++ leBytes 2 s.cs.chgWindow.toNat ++ s.cs.entries.flatMap entryBytes

/-- CS_DIGEST of the record in effect (R152). -/
def changeDigest (s : State) : Word := wordOf ((sha256 (changeRecord s)).take 4)

/-- The tag of the record under a party's secret (R153). -/
def changeTag (s : State) (secret : BitVec 256) : List Byte := (hmac (leBytes 32 secret.toNat) (changeRecord s)).take 8

/-- An event in form CHG (Table 13.4), with the code's own bits of DETAIL2. -/
def raiseChg (code : BitVec 8) (flags : BitVec 4) (own : Nat) (s : State) : State :=
  raiseF uCS code noCtx flags s.cs.chgNo s.cs.digest (put (if s.cs.mgmt then 2 else 1) 16 ||| put own 0) s

/-- The CS trace entry (Table 13.7): 1 open, 2 bad tag, 3 committing, 4 accepted, 5 lapsed, 6 refused. -/
def traceChg (what : Nat) (s : State) : State := trace 0x04 (BitVec.ofNat 8 what) s.cs.chgNo s.cs.digest s

/-- The unit returns to IDLE (Table 5.11). -/
def csIdle (result : BitVec 8) (s : State) : State :=
  { s with cs := { s.cs with state := .idle, badTries := 0, lastResult := result } }

/-- The OPEN change lapses (R154): 1 window, 2 bad tags, 3 withdrawn, 4 an event. -/
def lapse (why : Nat) (s : State) : State :=
  if s.cs.state ≠ .opened then s
  else csIdle (if why = 1 then cTIMEOUT else cNOT_COUNTERSIGNED) (traceChg 5 (raiseChg cCS_LAPSED 0 why s))

/-- DIGEST_BUSY clears: the digest and the count follow the entries, and CS_OPEN is logged once (R150, R152). -/
def digestRecompute (s : State) : State :=
  match s.cs.busyTill with
  | none => s
  | some _ =>
    let s := { s with cs := { s.cs with busyTill := none, digest := changeDigest s, count := s.cs.entries.length } }
    if s.cs.opened then s
    else traceChg 1 (raiseChg cCS_OPEN 0 0 { s with cs := { s.cs with opened := true } })

/-- The cycle after a change's last (R154). -/
def windowEnd (s : State) : Nat := s.cs.openAt + s.cs.chgWindow.toNat * sec

/-- Milliseconds left in the window, rounded down (R154). -/
def windowLeft (s : State) : Nat := if s.cs.state = .opened then (windowEnd s - s.now) / ms else 0

/-- An OPEN change past its window lapses with TIMEOUT (R154). -/
def windowLapse (s : State) : State := if windowEnd s ≤ s.now then lapse 1 s else s

end Sys2Proof.Machine
end

