-- ==== Sys2Proof/Machine/Rest.lean ====
section
/-! DEFINITION. The rest state: its causes, its entry and its exit (R303, R304). -/

namespace Sys2Proof.Machine

/-- BT_STATUS.REST_MODE: 0 not in REST, 1 READ_ONLY, 2 HELD (R303, Table 11.7). -/
def restMode (s : State) : Nat := if s.pw.state ≠ .rest then 0 else if restHeld s then 2 else 1

/-- The STANDBY arm clears when the engine leaves ACTIVE and QUIET (R320). -/
def dropArm (s : State) : State :=
  if s.pw.armed.isSome then { s with pw := { s.pw with armed := none, lastResult := cWRONG_STATE } } else s

/-- A cause of REST stands: a result bit of Table 11.7, or 16 for a pending or absent hold area, 17 for a lost binding ring. -/
def addCause (bit : Nat) (held : Bool) (s : State) : State :=
  { s with bt := { s.bt with causes := (s.bt.causes.filter fun c => decide (c.1 ≠ bit)) ++ [(bit, held)] } }

/-- REST is entered for a cause (R303): REST_ENTERED, and Uncorrectable Internal Error (Table 8.6). -/
def enterRest (bit test : Nat) (slot : Bool) (held : Bool) (code : BitVec 8) (s : State) : State :=
  let s := addCause bit held s
  let s := { s with bt := { s.bt with restTest := BitVec.ofNat 4 test, restSlot := slot } }
  let was := s.pw.state
  let s := dropArm (goState .rest code s)
  let s := { s with hl := { s.hl with pfAer := { s.hl.pfAer with uncorrInternal := true } } }
  if was = .rest then s
  else raise uBT cREST_ENTERED noCtx (lo32 (restMode s)) (code.setWidth 32) 0 s

/-- REST is left when no cause and no pending replay remains (R304). -/
def leaveRest (s : State) : State :=
  if s.pw.state = .rest ∧ s.bt.causes = [] ∧ s.pc.replayPending = false then
    let s := goState (activeOrQuiet s) 0 s
    { s with bt := { s.bt with restTest := 0xF, restSlot := false } }
  else s

/-- A cause is removed (R304). -/
def dropCause (bit : Nat) (s : State) : State :=
  leaveRest { s with bt := { s.bt with causes := s.bt.causes.filter fun c => decide (c.1 ≠ bit) } }

end Sys2Proof.Machine
end

