-- ==== Sys2Proof/Machine/Drain.lean ====
section
/-! DEFINITION. The drain of Table 1.3, and what ends with it (R31–R34, R38, R177, R214, R326). -/

namespace Sys2Proof.Machine

/-! ### D0 and D1 -/

/-- Every DMA channel stops; beats not written are discarded with their tags (R214). -/
def stopDma (s : State) : State :=
  let tags := s.dm.ch.toList.flatMap fun c => c.beats.filterMap fun b => b.tag
  let s := tags.foldl (fun s t => dropTag t s) s
  let ch := mapV s.dm.ch fun c =>
    { c with
        beats := [], relBeats := c.relBeats.add s.now c.beats.length, burstOpen := false, burstLeft := 0, state := .idle, desc := none }
  { s with dm := { s.dm with ch := ch } }

/-- Requests not admitted are discarded with their tags; nothing unacknowledged is completed (Table 1.3, D1), and what egress holds
stays on the engine. -/
def discardRequests (s : State) : State :=
  let s := s.pc.flushes.foldl (fun s f => dropTag? f.tag s) (s.gl.ingress.foldl (fun s r => dropTag? r.tag s) s)
  let s := s.egress.foldl (fun s e => dropTag? e.2 s) s
  { s with gl := { s.gl with ingress := [] }, pc := { s.pc with flushes := [] }, egress := [] }

/-- VCART of a slot goes off: the link is down (Table 1.3, D0 and End). -/
def powerOff (x : Slot) : State → State :=
  modSlot x fun t => { t with
    link := .down, width := 0, pwren := false, cart := t.cart.map fun c => { c with sv := { c.sv with vcart := false } } }

/-- An unformed fill is discarded at D0 (R273). -/
def dropFill (s : State) : State := if s.ks.owner.isFill && !s.ks.formed then freeFill s else s

/-- A drain that meets BOOT before a hold target is in service has no target at all; one that meets BOOT after that, or
REPLAY, writes zero entries to the second header slot (Table 12.7). So does one that meets REST while a hold area waits for its
replay, which is not overwritten (R36; DEDUCED, log 134). -/
def drainOf (cause : Nat) (s : State) : Drain :=
  let early := decide (s.pw.state = .boot) || decide (s.pw.state = .replay) || s.pc.replayPending
  { cycle := s.now, target := holdTarget s, cause := cause, early := early
    noTarget := decide (s.pw.state = .boot) && (holdTarget s).isNone }

/-- ARRAY stops at its next line: the save record of its bank stays in the header (chapter 11, Corners). -/
def markSaved (x : Slot) (i : Fin 16) (bank : Nat) (s : State) : State :=
  if s.bt.running.any fun j => decide (j = i) then modCart x (fun c => { c with saved := c.saved ++ [bank] }) s else s

/-- D0 and D1 (Table 1.3). A copy of the counters that a reconciliation has not consumed yet stays as it is (log 18). -/
def startDrain (cause : Nat) (s : State) : State :=
  if s.pc.drain.isSome || !s.pw.state.clocked || s.bt.scan then s
  else
    let s := { s with pc := { s.pc with drain := some (drainOf cause s) } }
    let s := dropFill (lapse 4 s)
    let target := holdTarget s
    let s := bothSlots.foldl (fun s x => if target = some x then s else powerOff x s) s
    let s := discardRequests (stopDma s)
    let s := markSaved .b 15 s.bt.arrayB (markSaved .a 10 s.bt.arrayA s)
    let s := { s with pw := { s.pw with armed := none, chgEn := false } }
    if s.pc.reconciled then retainD1 s else s

/-! ### The pending hold area (R35) -/

/-- The slot in which the binding record names the hold target. -/
def soughtSlot (s : State) : Slot := if s.duet.holdB then .b else .a

/-- The boot counter of the drain that a cartridge's hold area holds. -/
def drainBoot (s : State) (x : Slot) : Option Nat :=
  ((s.slot x).cart.bind fun c => c.hold.header0).map fun h => h.boot

/-- The cartridge whose hold area is read: of those that the binding record names and that serve, the one with the latest drain; the
record's hold target where none holds one (R35, DEDUCED, log 137). -/
def areaSlot (s : State) : Option Slot :=
  let x := soughtSlot s
  let named := [x, x.other].filter fun y => s.duet.names y && (s.slot y).serves
  match (named.filter fun y => (drainBoot s y).isSome) with
  | [y, z] => if (drainBoot s y).getD 0 < (drainBoot s z).getD 0 then some z else some y
  | y :: _ => some y
  | [] => named.find? fun y => decide (y = x)

/-! ### D2 to D6 -/

/-- A try in progress ends at D2 with a trusted sense that passes: its cartridge is powered, its slot not inhibited, and its bank is
not among those whose try fails (Table 1.3, R128). -/
def endsPassed (target : Option Slot) (fails : List (Slot × Fin 128)) (s : State) (w : LineWrite) : Bool :=
  w.fired && !w.held && decide (target = some w.slot) && !inhibited s w.slot
    && !fails.any fun f => decide (f = (w.slot, bankOf w.cline))

/-- D2: tries in progress end; a line whose try fails stays dirty, and no new try starts (Table 1.3). -/
def endTries (target : Option Slot) (fails : List (Slot × Fin 128)) (s : State) : State :=
  let s := s.md.writes.foldl (fun s w =>
    if endsPassed target fails s w then passWrite w.slot (bankOf w.cline) false s
    else cancelWrite w (endWrite w.slot (bankOf w.cline) s)) s
  { s with pc := { s.pc with slots := s.pc.slots.map fun h => { h with issued := false } } }

/-- Dirty lines per context (Table 1.3, D3). -/
def dirtyCounts (s : State) : List (Nat × Nat) := s.pc.slots.foldl (fun l h => bump h.ctx.val 1 l) []

/-- A hold-area entry of a dirty slot (Table 1.3, D4); `damaged` names the entries whose CRC-32 the cells will not pass (R37). -/
def holdEntry (s : State) (damaged : List Nat) (index : Nat) (h : HoldSlot) : HoldEntry :=
  { index := index, boot := s.ks.bootCount.toNat, ctx := h.ctx, off := h.off, media := h.media, tempo := h.tempo
    mask := h.mask, data := h.data, keyGen := (s.tenant h.ctx).keyNo, poison := h.poison, asn := h.asn
    damaged := damaged.any fun k => decide (k = index) }

/-- The entries of a drain, indexed from 0. -/
def holdEntries (s : State) (damaged : List Nat) : Nat → List HoldSlot → List HoldEntry
  | _, [] => []
  | k, h :: rest => holdEntry s damaged k h :: holdEntries s damaged (k + 1) rest

/-- D3: the header, with the boot counter, the per-tenant counts and the total. A new drain's ledger section is yet to come. -/
def writeHeader (x : Slot) (early : Bool) (s : State) : State :=
  let slots := if early then [] else s.pc.slots
  let hdr : HoldHdr := { boot := s.ks.bootCount.toNat, total := slots.length, counts := if early then [] else dirtyCounts s,
                         commit := false }
  let put := fun (a : HoldArea) => if early then { a with header1 := some hdr }
    else { a with header0 := some hdr, header1 := none, ledger := none }
  modCart x (fun c => { c with hold := put c.hold }) (engineWrites x .lento 1 s)

/-- D4: entries in admission order, two presto line-writes each (Table 4.3). -/
def writeEntries (x : Slot) (entries : List HoldEntry) (s : State) : State :=
  let put := fun (a : HoldArea) => { a with entries := entries ++ a.entries.drop entries.length }
  modCart x (fun c => { c with hold := put c.hold }) (engineWrites x .presto (2 * entries.length) s)

/-- D6: the commit record (R34). -/
def writeCommit (x : Slot) (early : Bool) : State → State :=
  let mark := fun (h : HoldHdr) => { h with commit := true }
  let put := fun (a : HoldArea) => if early then { a with header1 := a.header1.map mark } else { a with header0 := a.header0.map mark }
  modCart x fun c => { c with hold := put c.hold }

/-- Lines lost by a drain that has no hold target while MISSING = 1 (R97). -/
def lostNoTarget (d : Drain) (s : State) : Nat := if d.target.isNone && s.duet.missing then s.pc.slots.length else 0

/-- D3 and D4: the header, and the first `n` of the drain's entries. -/
def writeArea (d : Drain) (x : Slot) (damaged : List Nat) (n : Nat) (s : State) : State :=
  let s := writeHeader x d.early s
  if d.early then s else writeEntries x ((holdEntries s damaged 0 s.pc.slots).take n) s

/-- D5: the ledger section and the retention latches; the wear of the commit record is priced before (R177). -/
def sealArea (target : Option Slot) (s : State) : State :=
  let s := match target with
    | some x => engineWrites x .lento 1 s
    | none => s
  if s.pc.reconciled then retainD5 target s else s

/-- The phases D2 to D6 (Table 1.3). -/
def drainPhases (d : Drain) (fails : List (Slot × Fin 128)) (damaged : List Nat) (s : State) : State :=
  let s := endTries d.target fails s
  match d.target with
  | none => sealArea none s
  | some x => writeCommit x d.early (sealArea (some x) (writeArea d x damaged s.pc.slots.length s))

/-! ### K and End -/

/-- A page write that ends in phase K and accepts a change: the change is in force from the next start (R157). -/
def acceptLate (s : State) : State :=
  let accepts := match s.ks.busy.map fun w => w.kind with
    | some .acceptCommit | some (.acceptErase _) => true
    | _ => false
  if accepts then { s with ks := { s.ks with
      late := s.ks.late ++ [⟨s.cs.chgNo.toNat, s.cs.mgmt, s.cs.chgWindow.toNat, s.cs.entries⟩] } }
  else s

/-- A page write in progress has completed, and no other one starts (Table 1.3, K). -/
def endPage (s : State) : State :=
  { s with ks := { s.ks with busy := none, owner := .free, bytes := [], formed := false, queue := [], energyWait := false } }

/-- The totals record of phase K as it starts (R176). -/
def totalsPage (lost : Nat) (s : State) : Option PageWrite :=
  if s.ks.scanned then (formTotals lost s).ks.queue.head? else none

/-- K: a page write in progress has completed; then the totals record is written (Table 1.3, R176). -/
def drainKeep (lost : Nat) (s : State) : State :=
  let s := endPage (acceptLate s)
  match totalsPage lost s with
  | some w => { s with ks := { s.ks with mem := program w.page w.bytes s.ks.mem } }
  | none => s

/-- A short drain's phase K: none of its page writes has completed and the one in progress is torn, or that one has and the totals
record is torn (R34, R289). -/
def shortKeep (pages : Fin 2) (lost : Nat) (s : State) : State :=
  if pages = 0 then endPage (tearWrite s)
  else
    let s := endPage (acceptLate s)
    match totalsPage lost s with
    | some w =>
      endPage (tearWrite { s with ks := { s.ks with
        busy := some w, before := pageBytes s.ks.mem w.page, mem := program w.page w.bytes s.ks.mem } })
    | none => s

/-- The cartridges are powered down; HIBERNATE while VAON or VBAT feeds the island, else OFF (Table 1.3, R326). -/
def powerDown (s : State) : State :=
  let s := powerOff .b (powerOff .a s)
  let next : Power := if s.pw.mainPower || s.pw.vbat then .hibernate else .off
  let islandLost := s.lg.islandLost || decide (next = .off)
  { s with
      pw := { s.pw with state := next, coreOn := false, entering := false, fromVbat := !s.pw.mainPower
                        planned := (s.pc.drain.elim false fun d => decide (d.cause = 4))
                        islandEn := s.pw.wakeEn, islandAfter := s.pw.wakeAfter, wakeCause := 0, armed := none }
      lg := { s.lg with islandLost := islandLost }
      hl := { s.hl with dlUp := false, memActive := false }
      pc := { s.pc with drain := none } }

/-- The scan's drain ends in the zeroisation S2 to S4 and SCAN = 1; the engine stays in TEST (Table 11.5). -/
def enterScan (s : State) : State :=
  { s with
      bt := { s.bt with scan := true, rootGone := true }
      pc := { s.pc with drain := none, slots := [] }
      cs := { s.cs with tagLo := 0, kHost := 0, kMgmt := 0 }
      gl := { s.gl with tags := [] }
      hl := { s.hl with dlUp := false, memActive := false } }

/-- D2 to End of the drain in progress. A thermal trip, or PFAIL_N high again, is left to the wake rules. -/
def endDrain (fails : List (Slot × Fin 128)) (damaged : List Nat) (s : State) : State :=
  match s.pc.drain with
  | none => s
  | some d =>
    let lost := lostNoTarget d s
    let s := if d.noTarget then endTries none fails s else drainPhases d fails damaged s
    let s := drainKeep lost s
    if d.cause = 5 then enterScan s else powerDown s

/-- A short drain's phases: `steps` writes were done when VHOLD fell below V_min, counted from the header: none, the header and
`steps - 1` entries, or those and, past the last entry, the ledger section (R34; log 42). -/
def shortPhases (d : Drain) (fails : List (Slot × Fin 128)) (damaged : List Nat) (steps : Nat) (s : State) : State :=
  let s := endTries d.target fails s
  let n := if d.early then 0 else s.pc.slots.length
  match d.target with
  | none => if steps = 0 then s else sealArea none s
  | some x =>
    if steps = 0 then s
    else
      let s := writeArea d x damaged (steps - 1) s
      if steps ≤ n + 1 then s else sealArea (some x) s

/-- A short drain (R34): VHOLD falls below V_min before the commit record is verified. -/
def shortDrain (fails : List (Slot × Fin 128)) (damaged : List Nat) (steps : Nat) (pages : Fin 2) (s : State) : State :=
  match s.pc.drain with
  | none => s
  | some d =>
    let lost := lostNoTarget d s
    let s := if d.noTarget then endTries none fails s else shortPhases d fails damaged steps s
    powerDown (shortKeep pages lost s)

end Sys2Proof.Machine
end

