-- ==== Sys2Proof/Machine/Countersign.lean ====
section
/-! DEFINITION. Countersign: which registers hold CS fields, the checks of a staged entry, staging, the countersign, acceptance
and apply writes, secrets (R134–R138, R142–R159, R96, R218, R277, R283–R288, R308, R309). -/

namespace Sys2Proof.Machine

/-! ### CS fields (Table 5.3) -/

/-- The CS bits of a register, by its G7 offset. -/
def csMask (off : Nat) : Word :=
  match off with
  | 0x1008 => 0x00000007
  | 0x100C | 0x1010 => 0x000FFFFF
  | 0x1018 => 0x8000FFFF
  | 0x101C => 0x0000FFFF
  | 0x1024 => 0x000001FF
  | 0x102C => 0xFFFFFFFF
  | 0x1034 => 0x00000001
  | 0x043C => 0x00000004
  | 0x0D04 => 0x0000001F
  | 0x3004 => 0x00000003
  | 0x3804 => 0x00000300
  | 0x3C38 | 0x3C3C => 0x00000001
  | 0x4814 => 0x000001FF
  | _ => 0

/-- The register is an indexed TN register. -/
def isTn (off : Nat) : Bool := decide (0x1004 ≤ off) && decide (off < 0x1040)

/-- Entry ADDR (R151). -/
def csAddr (off : Nat) (c : Ctx) : Word :=
  if isTn off then BitVec.ofNat 32 (off + c.val * 2 ^ 16 + 2 ^ 24) else BitVec.ofNat 32 off

/-- The register and the context of an entry. -/
def entryOff (e : CsEntry) : Nat := e.addr.toNat % 2 ^ 16
def entryCtx (e : CsEntry) : Ctx := toCtx (fld e.addr 16 8)

/-- TN_CFG.LOCK codes (Table 5.7). -/
def Lock.code : Lock → Nat
  | .opened => 0
  | .writeLock => 1
  | .sealed => 2

/-- A tenant's TN register as it is in effect. -/
def tnValue (t : Tenant) (off : Nat) : Word :=
  match off with
  | 0x1008 => put t.lock.code 1 ||| putB t.enable 0
  | 0x100C => put t.base.toNat 0
  | 0x1010 => put t.size.toNat 0
  | 0x1018 => putB t.unlimited 31 ||| put t.rate.toNat 0
  | 0x101C => put t.cap.toNat 0
  | 0x1024 => put t.share.toNat 0
  | 0x102C => t.quota
  | _ => 0

/-- The CS part of a register as it is in effect; triggers read 0 (R6, R151). -/
def csValue (s : State) (off : Nat) (c : Ctx) : Word :=
  if isTn off then tnValue (s.tenant c) off
  else match off with
    | 0x0D04 => s.duet.target.setWidth 32
    | 0x3004 => put s.hl.persNext.toNat 0
    | 0x3804 => putB s.ks.fused 8
    | 0x4814 => put s.cs.window.toNat 0
    | _ => 0

/-- The stored value of a staged field (R142: TN_BUCKET_CAP below 64 is stored as 64). -/
def csStored (off : Nat) (v : Word) : Word := if off = 0x101C ∧ fld v 0 16 < 64 then 64 else v

/-- An entry's whole register value, laid on the value in effect. -/
def entryValue (s : State) (e : CsEntry) : Word :=
  csStored (entryOff e) ((csValue s (entryOff e) (entryCtx e) &&& ~~~ e.mask) ||| (e.value &&& e.mask))

/-- A tenant with a TN register set by an entry; side effects follow at acceptance. -/
def setTn (off : Nat) (v : Word) (t : Tenant) : Tenant :=
  match off with
  | 0x1008 => { t with enable := bit v 0, lock := if fld v 1 2 = 1 then .writeLock else if fld v 1 2 = 2 then .sealed else .opened }
  | 0x100C => { t with base := BitVec.ofNat 20 v.toNat }
  | 0x1010 => { t with size := BitVec.ofNat 20 v.toNat }
  | 0x1018 => { t with unlimited := bit v 31, rate := BitVec.ofNat 16 v.toNat }
  | 0x101C => { t with cap := BitVec.ofNat 16 v.toNat }
  | 0x1024 => { t with share := BitVec.ofNat 9 v.toNat }
  | 0x102C => { t with quota := v }
  | _ => t

/-- A context as the entries of a change would leave it. -/
def proposed (s : State) (entries : List CsEntry) (c : Ctx) : Tenant :=
  entries.foldl (fun t e => if isTn (entryOff e) && decide (entryCtx e = c) then setTn (entryOff e) (entryValue s e) t else t)
    (s.tenant c)

/-! ### Preconditions of entries (R136, R143, R147, R155, R96, R218, R277, R288, R308, R309) -/

/-- The end of a partition in MiB; one of size 0 covers nothing. -/
def partEnd (t : Tenant) : Nat := if t.size = 0 then 0 else t.base.toNat + t.size.toNat

/-- The bounds of a context in a change (R136); the other contexts' partitions are taken as the same change would leave them
(DESIGN CHOICE, log 135). -/
def boundsOk (s : State) (entries : List CsEntry) (c : Ctx) : Bool :=
  let old := s.tenant c
  let new := proposed s entries c
  let moved := decide (new.base ≠ old.base) && decide (old.size ≠ 0)
  let beyond := decide (partEnd old < partEnd new) && decide (duetMib s < partEnd new)
  let clash := decide (new.size ≠ 0) && (indices 129).any fun d =>
    let t := proposed s entries d
    decide (d ≠ c) && decide (t.size ≠ 0) && decide (new.base.toNat < partEnd t) && decide (t.base.toNat < partEnd new)
  !moved && !beyond && !clash

/-- Shares of all enabled contexts total at most 2048 (R143). -/
def sharesOk (s : State) (entries : List CsEntry) : Bool :=
  let sum := (indices 129).foldl (fun n c =>
    let t := proposed s entries c
    if t.enable || c = provider then n + t.share.toNat else n) 0
  decide (sum ≤ 2048)

/-- A tag is held by the context, or by one of its requests (R147). -/
def holdsTag (s : State) (c : Ctx) : Bool := s.gl.tags.any fun t => decide (t.ctx = c)

/-- DM_ACTIVE (Table 7.11). -/
def ChState.moving : ChState → Bool
  | .fetch | .wait | .active | .barrier | .coda | .holding | .aborting => true
  | _ => false

def dmActive (s : State) : Bool := s.dm.ch.toList.any fun c => c.state.moving

/-- A soft repair entry is in a fuse already (R308). -/
def unfused (s : State) : List Word := s.bt.soft.filter fun e => !s.bt.fuses.any fun f => decide (f = e)

/-- A run is going on (BT_STATUS.RUN 01b or 10b). -/
def btRunning (s : State) : Bool := s.bt.run = 1 || s.bt.run = 2

/-- The highest partition end, in MiB. -/
def highestEnd (s : State) : Nat := (indices 129).foldl (fun m c => max m (partEnd (s.tenant c))) 0

/-- A slot is SPARE with its insertion tests passed (R296). -/
def spareReady (s : State) (x : Slot) : Bool :=
  let t := s.slot x
  decide (t.state = .spare) && t.tested && t.cart.isSome

/-- Preconditions of a duet TARGET (Table 3.8, R96, R97). -/
def targetOk (s : State) (target : Nat) (slot : Slot) : Bool :=
  let solo := decide (s.duet.state = .soloA) || decide (s.duet.state = .soloB)
  let empty := decide (highestEnd s = 0)
  if target = 0 then s.duet.missing && (serving s).isEmpty
  else if target = 1 then match s.duet.state with
    | .none => spareReady s slot && !(s.slot slot).bound
    | .span => empty
    | .mirror | .mirrorDegraded => true
    | _ => false
  else if target = 3 then
    (solo || decide (s.duet.state = .none)) && empty && decide (s.ct.a.idType = s.ct.b.idType)
      && bothSlots.all fun x => (s.slot x).serves || spareReady s x
  else
    solo && spareReady s slot && decide (highestEnd s ≤ slotMib (s.slot slot)) && decide (s.duet.state = soloOf slot.other)

/-- Legal codes of TARGET and SLOT (Table 3.18, R96). -/
def targetCode (v : Word) : Bool :=
  let t := fld v 0 4
  decide (t = 0 ∨ t = 1 ∨ t = 3 ∨ t = 5 ∨ t = 8) && !(decide (t = 0 ∨ t = 3) && bit v 4)

/-- The argument slot of CT_DUET_CTRL. -/
def targetSlot (v : Word) : Slot := if bit v 4 then .b else .a

/-- SEAL_LOCK's and RESTORE's preconditions (R277, R288). -/
def lockOk (s : State) : Bool := s.cs.hostSet && s.cs.mgmtSet && !s.ks.fused
def restoreOk (s : State) : Bool :=
  (indices 128).all (fun t => !(s.tenant (toCtx t.val)).enable) && decide (dirty s = 0) && s.gl.tags.isEmpty

/-- The code an entry is refused with, or none (R136–R155 and the fields' own chapters). -/
def entryCode (s : State) (entries : List CsEntry) (e : CsEntry) : Option (BitVec 8) :=
  let v := entryValue s e
  let c := entryCtx e
  let range := fun (ok : Bool) => if ok then none else some cRANGE
  let state := fun (ok : Bool) => if ok then none else some cWRONG_STATE
  match entryOff e with
  | 0x1008 => range (decide (fld v 1 2 ≠ 3) && sharesOk s entries)
  | 0x100C | 0x1010 => range (boundsOk s entries c)
  | 0x1024 => range (decide (1 ≤ fld v 0 9) && decide (fld v 0 9 ≤ 256) && sharesOk s entries)
  | 0x1034 =>
    if decide (entries.length ≠ 1) then some cRANGE
    else state (decide (c ≠ provider) && decide ((s.tenant c).lock = .sealed) && !holdsTag s c)
  | 0x043C => state (decide (s.pw.state = .rest) && s.pc.replayPending)
  | 0x0D04 => if targetCode v then state (targetOk s (fld v 0 4) (targetSlot v)) else some cRANGE
  | 0x3004 => range (decide (fld v 0 2 ≠ 1))
  | 0x3804 =>
    state ((!bit (e.value &&& e.mask) 8 || s.ks.fused || lockOk s) && (!bit (e.value &&& e.mask) 9 || restoreOk s))
  | 0x3C38 => state (decide (dirty s = 0) && !dmActive s && !btRunning s && !s.bt.fuseBusy)
  | 0x3C3C => state (decide (unfused s ≠ []) && decide ((unfused s).length + s.bt.fuses.length ≤ 64) && !btRunning s)
  | 0x4814 => range (decide (5 ≤ fld v 0 9) && decide (fld v 0 9 ≤ 300))
  | _ => none

/-! ### Staging (R150, R151) -/

/-- The unit's table permits staging the register in the engine's state (Tables 1.6, 3.9, 5.5, 5.6, 8.10, 10.9, 11.6). -/
def stageLegal (s : State) (off : Nat) : Bool :=
  let usual := decide (s.pw.state = .active) || decide (s.pw.state = .quiet)
  match off with
  | 0x043C => decide (s.pw.state = .rest) && s.pc.replayPending
  | 0x0D04 => usual
  | 0x3C38 | 0x3C3C => decide (s.pw.state = .test) && decide (s.bt.run = 3)
  | _ => usual || decide (s.pw.state = .fieldHold) || decide (s.pw.state = .rest)

/-- What a register write does to the countersign unit. -/
inductive Staged where
  /-- Nothing is staged: no CS field differs and the register has no entry, or R96, R134 exempt it. -/
  | nothing
  /-- The CS part is refused, and with it the whole write; the flags say whether CS_STATUS takes the sticky bit, and whether
  the register's own unit takes its one. -/
  | refused (code : BitVec 8) (cs unit : Bool)
  | entries (l : List CsEntry)
  deriving DecidableEq, Repr

/-- An entry replaces the register's entry, keeping its place, or is added (R151). -/
def putEntry (e : CsEntry) : List CsEntry → List CsEntry
  | [] => [e]
  | x :: rest =>
    if x.addr = e.addr then
      { x with mask := x.mask ||| e.mask, value := (x.value &&& ~~~ e.mask) ||| (e.value &&& e.mask) } :: rest
    else x :: putEntry e rest

/-- The registers of the provider context that Table 5.1 fixes: a write of them is ignored (R134). -/
def providerFixed (off : Nat) : Bool := decide (off = 0x1008 ∨ off = 0x1018 ∨ off = 0x101C ∨ off = 0x102C ∨ off = 0x1014)

/-- The MASK of a write: the register's CS bits within the bytes written (R151). -/
def csWritten (off : Nat) (be : BitVec 4) : Word := csMask off &&& byteMask be

/-- The triggers of a register (R151): SEAL_LOCK is one only while the sealed page is not locked. -/
def csTriggers (s : State) (off : Nat) : Word :=
  match off with
  | 0x1034 | 0x043C | 0x3C38 | 0x3C3C => csMask off
  | 0x3804 => if s.ks.fused then 0x200 else 0x300
  | _ => 0

/-- A write of CT_DUET_CTRL asks for a transition that Table 3.8 gives, whatever code the register holds (log 17). -/
def asksTarget (s : State) (off : Nat) (v : Word) : Bool :=
  decide (off = 0x0D04) && targetCode v && targetOk s (fld v 0 4) (targetSlot v)

/-- The write stages its register (R151): a trigger is written with 1; else a CS field differs from the value in effect, or the
register has an entry. -/
def stages (s : State) (off : Nat) (c : Ctx) (v : Word) (m : Word) : Bool :=
  if csTriggers s off ≠ 0 then decide (v &&& m &&& csTriggers s off ≠ 0)
  else
    let has := decide (s.cs.state ≠ .idle) && s.cs.entries.any fun e => decide (e.addr = csAddr off c)
    let differs := decide ((v ^^^ csValue s off c) &&& m ≠ 0)
    decide (m ≠ 0) && (has || differs || asksTarget s off ((csValue s off c &&& ~~~ m) ||| (v &&& m)))

/-- A register of the BT unit's CS fields (Table 5.6). -/
def btField (off : Nat) : Bool := decide (off = 0x3C38 ∨ off = 0x3C3C)

/-- Table 5.6 refuses the staging for the engine's state. -/
def csBarred (s : State) (off : Nat) : Bool :=
  decide (s.pw.state = .boot ∨ s.pw.state = .replay) || (decide (s.pw.state = .test) && !btField off)

/-- What a register write with CS fields comes to (R134, R149–R151, R159, R284). The states of the engine and of the countersign unit
are judged before the entry's own checks (DEDUCED, log 79). -/
def stageOf (s : State) (mgmt : Bool) (off : Nat) (c : Ctx) (v : Word) (be : BitVec 4) : Staged :=
  let m := csWritten off be
  let duetCommand := decide (off = 0x0D04) && decide ((v &&& byteMask be) &&& 0x300 ≠ 0)
  if duetCommand || (isTn off && decide (c = provider) && providerFixed off) || !stages s off c v m then .nothing
  else if csBarred s off || !stageLegal s off then .refused cWRONG_STATE (csBarred s off) (!stageLegal s off)
  else if !(s.cs.hostSet && s.cs.mgmtSet) then .refused cWRONG_STATE true false
  else if s.cs.state = .committing ∨ (s.cs.state = .opened ∧ s.cs.mgmt ≠ mgmt) then .refused cWRONG_STATE true false
  else
    let held := if s.cs.state = .opened then s.cs.entries else []
    let old := match held.find? fun x => decide (x.addr = csAddr off c) with
      | some x => entryValue s x
      | none => csValue s off c
    let full := csStored off ((old &&& ~~~ m) ||| (v &&& m))
    let e : CsEntry := ⟨csAddr off c, m, full &&& m⟩
    let l := putEntry e held
    let erases := l.any fun x => decide (entryOff x = 0x1034)
    if decide (16 < l.length) || (erases && decide (1 < l.length)) then .refused cRANGE false false
    else match l.find? fun x => decide (x.addr = e.addr) with
      | some x => match entryCode s l x with
        | some code => .refused code false (decide (code = cWRONG_STATE))
        | none => .entries l
      | none => .entries l

/-- The staged entries take their place: in IDLE a change opens (R150), and the digest is busy for 1 µs (R152). -/
def stage (mgmt : Bool) (l : List CsEntry) (s : State) : State :=
  let busy := some (s.now + us)
  if s.cs.state = .idle then
    { s with cs := { s.cs with
        state := .opened, mgmt := mgmt, badTries := 0, chgNo := s.cs.chgNo + 1, tagLo := 0, digest := 0, count := 0
        entries := l, openAt := s.now, opened := false, chgWindow := s.cs.window, busyTill := busy } }
  else { s with cs := { s.cs with entries := l, busyTill := busy } }

/-! ### Acceptance writes (R285) -/

/-- Contexts to which a change gives a first key (R146, R288). -/
def firstKeys (s : State) : List Ctx :=
  let restore := s.cs.entries.any fun e => decide (entryOff e = 0x3804) && bit (e.value &&& e.mask) 9
  if restore then [provider]
  else (indices 129).filter fun c =>
    let t := s.tenant c
    let n := proposed s s.cs.entries c
    !t.keyValid && ((n.enable && !t.enable) || (decide (n.size ≠ 0) && decide (t.size = 0)))

/-- The context a change erases. -/
def erased (s : State) : Option Ctx :=
  (s.cs.entries.find? fun e => decide (entryOff e = 0x1034)).map entryCtx

/-- The keep-store writes of a change that enters COMMITTING, in order: pending keys, then the acceptance write (R285). -/
def formAcceptance (s : State) : State :=
  let no := s.cs.chgNo
  let keys := firstKeys s
  let s := { s with cs := { s.cs with newKeys := keys.map fun c => c.val } }
  let s := keys.foldl (fun s c =>
    formContext (.pendingKey c.val) c { imageNow s c with key := 2, keyNo := no.toNat } no false s) s
  match erased s with
  | some c =>
    let i := imageNow s c
    formContext (.acceptErase c.val) c
      { i with key := 1, keyNo := no.toNat, gen := (i.gen + 1) % 2 ^ 16, applied := no.toNat, erase := true } no true s
  | none => formCommit s

/-! ### The countersign (R153) -/

/-- The countersigner's secret. -/
def counterSecret (s : State) : BitVec 256 := if s.cs.mgmt then s.cs.kHost else s.cs.kMgmt

/-- A write of CS_TAG_HI that is refused: its code, and whether the sticky bit is set. -/
inductive TagOutcome where
  | refused (code : BitVec 8) (sticky : Bool)
  | bad
  | failed (code : BitVec 8)
  | committing
  deriving DecidableEq, Repr

/-- What a write of CS_TAG_HI comes to (R152, R153, Table 5.6); a change past its window's last cycle has lapsed (R50, R154). -/
def tagOutcome (s : State) (mgmt : Bool) (hi : Word) : TagOutcome :=
  if s.pw.state = .boot ∨ s.pw.state = .replay then .refused cWRONG_STATE true
  else match s.cs.state with
    | .idle => .refused cNOT_COUNTERSIGNED false
    | .committing => .refused cWRONG_STATE true
    | .opened =>
      if windowEnd s ≤ s.now then .refused cNOT_COUNTERSIGNED false
      else if s.cs.mgmt = mgmt then .refused cPERMISSION false
      else if s.cs.busyTill.isSome then .refused cWRONG_STATE true
      else if wordBytes s.cs.tagLo ++ wordBytes hi ≠ changeTag s (counterSecret s) then .bad
      else match s.cs.entries.findSome? fun e => entryCode s s.cs.entries e with
        | some code => .failed code
        | none => .committing

/-- A bad tag is counted; the third lapses the change (R153). -/
def badTag (s : State) : State :=
  let s := { s with cs := { s.cs with badTries := s.cs.badTries + 1, lastResult := cNOT_COUNTERSIGNED } }
  let s := traceChg 2 (raiseChg cCS_BADTAG 0 s.cs.badTries s)
  if 3 ≤ s.cs.badTries then lapse 2 s else s

/-- The whole change is refused with an entry's code (R153). -/
def refuseChange (code : BitVec 8) (s : State) : State :=
  csIdle code (traceChg 6 (raiseChg cCS_REFUSED 0 (code.toNat * 2 ^ 24) s))

/-- The change enters COMMITTING (R153, R156). -/
def commitChange (s : State) : State :=
  formAcceptance (traceChg 3 { s with cs := { s.cs with state := .committing, lastResult := cOK } })

/-! ### Acceptance (R138, R142, R143, R146, R147, R156) -/

/-- The bucket and the share follow a context's new settings (R141–R143). -/
def settleTenant (old new : Tenant) : Tenant :=
  let new := if new.unlimited || old.unlimited then
      { new with tokens := 0, discarded := old.discarded + old.tokens, fresh := {}, cut := {} }
    else if 16 * new.cap.toNat < old.tokens then
      { new with tokens := 16 * new.cap.toNat, discarded := old.discarded + (old.tokens - 16 * new.cap.toNat) }
    else new
  { new with
      shareEff := if old.shareEff < new.share.toNat then new.share.toNat else old.shareEff
      metered := old.metered || new.enable }

/-- The values that judge a context's requests in the acceptance cycle are those before it (R138). -/
def Tenant.keepTerms (now : Nat) (t : Tenant) : Tenant :=
  if (t.was.map fun w => w.1) = some now then t
  else { t with was := some (now, ⟨t.enable, t.lock, t.base, t.size, t.unlimited, t.rate, t.quota⟩) }

/-- A TN entry takes effect. -/
def acceptTn (s : State) (e : CsEntry) : State :=
  let v := entryValue s e
  let lockAsn := fun (old new : Tenant) => if !writeLocked old && writeLocked new then { new with lockAsn := s.pc.asn } else new
  modTenant (entryCtx e) (fun t => lockAsn t (settleTenant t (setTn (entryOff e) v (t.keepTerms s.now)))) s

/-- The crypto-erase of a context (R147): a new key, no dirty slot left, GEN advanced, the event queue empty (R344). -/
def eraseCtx (c : Ctx) (no : Nat) (s : State) : State :=
  let mine := s.pc.slots.filter fun h => decide (h.ctx = c)
  let ends := fun (w : LineWrite) => match w.kind with
    | .hold id => mine.any fun h => decide (h.id = id)
    | .copy _ _ => false
  let s := (s.md.writes.filter ends).foldl (fun s w => cancelWrite w s) s
  let s := { s with
    pc := { s.pc with
      slots := s.pc.slots.filter fun h => decide (h.ctx ≠ c)
      relSlots := s.pc.relSlots.add s.now (mine.filter fun h => !h.direct).length }
    md := { s.md with writes := s.md.writes.filter fun w => !ends w } }
  modTenant c (fun t => { t with keyValid := true, keyNo := no, gen := t.gen + 1, applied := no, queue := [] }) s

/-- What an abandoned hold area held, per context (R37, R45). Where its cartridge is absent, the header cannot be read and the
number is free: it is counted for the provider context, with the NO_TARGET flag (DESIGN CHOICE, log 138). -/
def abandoned (s : State) : List (Nat × Nat) × Bool :=
  match areaSlot s with
  | some x => (((s.slot x).cart.bind fun c => c.hold.header0).elim [] (fun h => h.counts), false)
  | none => ([(provider.val, freeBelow 131073 s)], true)

/-- The records of a hold area are cleared: its headers and the ledger section. -/
def clearArea (x : Slot) : State → State :=
  modCart x fun c => { c with hold := { c.hold with header0 := none, header1 := none, ledger := none } }

/-- The pending hold area is abandoned: its entries are counted lost, as a short drain's are (R45, R37). -/
def discardHold (s : State) : State :=
  let (counts, absent) := abandoned s
  let s := if absent then nextFree s else s
  let s := { s with pc := { s.pc with
    replayPending := false, dirtyCount := s.pc.dirtyCount + 1, lastDrainOk := false
    replayLost := s.pc.replayLost + total (fun e => e.2) counts } }
  let s := counts.foldl (fun s e => raiseF uPC cDRAIN_SHORT (BitVec.ofNat 8 e.1) (if absent then 1 else 0) (lo32 e.2)
    (lo32 s.pc.dirtyCount.toNat) 0 s) s
  let s := if s.pc.reconciled then s else reconcile (areaSlot s) 0 [] s
  let s := match areaSlot s with
    | some x => clearArea x s
    | none => s
  dropCause 16 (formBoot s.cs.chgNo.toNat s)

/-- A context at its factory values (R288, Tables 5.7 to 5.10); the provider's key is the one just drawn. -/
def restoreTenant (no : Nat) (c : Ctx) (t : Tenant) : Tenant :=
  let f : Tenant := if c = provider then { enable := true, share := 64 } else {}
  { t with
      enable := f.enable, lock := .opened, base := 0, size := 0, persist := true, tempo := .moderato, unlimited := true
      rate := 0, cap := 4096, tokens := 0, discarded := t.discarded + t.tokens, share := f.share
      shareEff := max t.shareEff f.share.toNat, quota := 0xFFFFFFFF, keyValid := decide (c = provider)
      keyNo := if c = provider then no else t.keyNo, gen := t.gen + 1, applied := no, modeAt := none }

/-- Page writes of zeros in a range of user pages (R288). -/
def zeroPages (no : Word) : Nat → Nat → State → State
  | 0, _, s => s
  | k + 1, p, s => zeroPages no k (p + 1)
      (formWrite { kind := .applyUser, page := p, bytes := at0 (zeros 256), chg := no, wipe := false } s)

/-- An accepted RESTORE (R288): every context and setting at its factory values, and the apply writes; the settings record
comes last, so that its APPLIED_NO shows a finished restore (log 19). -/
def restoreAll (withLock : Bool) (s : State) : State :=
  let no := s.cs.chgNo
  let ctx := Vector.ofFn fun c : Ctx => restoreTenant no.toNat c (s.tn.ctx[c].keepTerms s.now)
  let s := { s with
    tn := { s.tn with ctx := ctx }
    cs := { s.cs with window := 30 }
    hl := { s.hl with persNext := 0, slotLog2 := 35, shutdown := 0 }
    ks := { s.ks with restoreApply := some no, settingsApplied := no.toNat } }
  let s := (indices 129).foldl (fun s (c : Ctx) => formContext (.applyContext c.val) c (imageNow s c) no true s) s
  let s := zeroPages no 48 0xD0 s
  let s := if s.ks.fused || withLock then s
    else formWrite { kind := .applySealed false, page := 0,
                     bytes := (at0 (zeros 72)).map (fun e => (e.1 + 0x40, e.2)), chg := no, wipe := false } s
  formSettings .applySettings no s

/-- The apply write of SEAL_LOCK (R277): the LOCK word. -/
def formLock (s : State) : State :=
  formWrite { kind := .applySealed true, page := 0, bytes := [(0x88, 0x4B), (0x89, 0x43), (0x8A, 0x4F), (0x8B, 0x4C)]
              chg := s.cs.chgNo, wipe := false } s

/-- The burn of soft repair entries into fuses (R308): each word is burned and reads back as it was burned, so its soft
entry leaves the repair ring. -/
def burnFuses (s : State) : State :=
  let todo := unfused s
  let s := { s with bt := { s.bt with
    fuses := s.bt.fuses ++ todo, soft := s.bt.soft.filter fun e => !todo.any fun f => decide (f = e), fuseBusy := true } }
  formRepair s

/-- An accepted scan enable: the drain starts on main power and the link goes down (Table 11.5, S1). -/
def scanOn (s : State) : State :=
  startDrain 5 (raise uBT cBT_SCAN noCtx 0 0 0 { s with hl := { s.hl with dlUp := false, memActive := false } })

/-- An entry of another unit takes effect. -/
def acceptOther (s : State) (e : CsEntry) : State :=
  let v := entryValue s e
  match entryOff e with
  | 0x4814 => { s with cs := { s.cs with window := BitVec.ofNat 9 v.toNat }, ks := { s.ks with settingsApplied := s.cs.chgNo.toNat } }
  | 0x3004 => { s with hl := { s.hl with persNext := BitVec.ofNat 2 v.toNat }, ks := { s.ks with settingsApplied := s.cs.chgNo.toNat } }
  | 0x043C => discardHold s
  | 0x0D04 => acceptTarget (fld v 0 4) (targetSlot v) { s with duet := { s.duet with target := v.setWidth 5 } }
  | 0x3804 =>
    let locks := bit (e.value &&& e.mask) 8 && !s.ks.fused
    let s := if locks then formLock s else s
    if bit (e.value &&& e.mask) 9 then restoreAll locks s else s
  | 0x3C38 => scanOn s
  | 0x3C3C => burnFuses s
  | _ => s

/-- The context pages an accepted change is applied to, in ascending index (R286). -/
def appliedCtx (s : State) : List Ctx :=
  (indices 129).filter fun c => s.cs.newKeys.any (fun k => decide (k = c.val)) ||
    s.cs.entries.any fun e => isTn (entryOff e) && decide (entryCtx e = c)

/-- Every entry of the change takes effect in one cycle, and the apply writes are formed (R138, R156, R286). -/
def acceptChange (s : State) : State :=
  let no := s.cs.chgNo
  let es := s.cs.entries
  let keyed := fun (s : State) => s.cs.newKeys.foldl (fun s k =>
    modTenant (toCtx k) (fun t => { t with keyValid := true, keyNo := no.toNat }) s) s
  let s := match erased s with
    | some c => eraseCtx c no.toNat s
    | none =>
      let s := keyed ((es.filter fun e => isTn (entryOff e)).foldl acceptTn s)
      let ctxs := appliedCtx s
      let s := ctxs.foldl (fun s c => modTenant c (fun t => { t with applied := no.toNat }) s) s
      let s := ctxs.foldl (fun s (c : Ctx) => formContext (.applyContext c.val) c (imageNow s c) no false s) s
      let s := (es.filter fun e => !isTn (entryOff e)).foldl acceptOther s
      if es.any fun e => decide (entryOff e = 0x4814 ∨ entryOff e = 0x3004) then formSettings .applySettings no s else s
  let s := if s.ks.queue.any fun w => decide (w.chg = no) && decide (w.kind.rank ≠ 1)
    then { s with ks := { s.ks with applying := s.ks.applying ++ [no] } } else s
  let s := { s with cs := { s.cs with lastNo := no, newKeys := [] } }
  csIdle cOK (traceChg 4 (raiseChg cCS_APPLIED 0 0 s))

/-! ### Secrets (R149, R276) -/

/-- A party's secret buffer as the secret (byte 0 is bits 7:0 of CS_SECRET0). -/
def bufferSecret (v : Vector Word 8) : BitVec 256 := BitVec.ofNat 256 (ofLe (v.toList.flatMap wordBytes))

/-- The code a SECRET_COMMIT is refused with (R149). -/
def secretCode (s : State) (mgmt : Bool) : Option (BitVec 8) :=
  let set := if mgmt then s.cs.mgmtSet || s.cs.mgmtPend else s.cs.hostSet || s.cs.hostPend
  let buf := if mgmt then s.cs.secretMgmt else s.cs.secretHost
  if set then some cWRONG_STATE
  else if bufferSecret buf = 0 then some cRANGE
  else none

/-- A SECRET_COMMIT forms the rank-6 page write of the secret and its SET word; the buffer is zeroised (R149, R276). -/
def secretCommit (mgmt : Bool) (s : State) : State :=
  let buf := if mgmt then s.cs.secretMgmt else s.cs.secretHost
  let base := if mgmt then 0x60 else 0x40
  let bytes := (at0 (buf.toList.flatMap wordBytes)).map fun e => (e.1 + base, e.2)
  let word := (at0 (wordBytes (if mgmt then 0xA5C30002 else 0xA5C30001))).map fun e => (e.1 + (if mgmt then 0x84 else 0x80), e.2)
  let s := formWrite { kind := if mgmt then .secretMgmt else .secretHost, page := 0, bytes := bytes ++ word, chg := 0, wipe := false } s
  let z : Vector Word 8 := Vector.replicate 8 0
  if mgmt then { s with cs := { s.cs with mgmtPend := true, secretMgmt := z } }
  else { s with cs := { s.cs with hostPend := true, secretHost := z } }

/-- The secrets as the sealed page holds them, and the SET words (R276). -/
def loadSecrets (s : State) : State :=
  let b := pageBytes s.ks.mem 0
  let n := fun lo len => ofLe ((b.drop lo).take len)
  { s with cs := { s.cs with
      kHost := BitVec.ofNat 256 (n 0x40 32), kMgmt := BitVec.ofNat 256 (n 0x60 32)
      hostSet := decide (n 0x80 4 = 0xA5C30001), mgmtSet := decide (n 0x84 4 = 0xA5C30002) } }

end Sys2Proof.Machine
end

