-- ==== Sys2Proof/Machine/Pages.lean ====
section
/-! DEFINITION. The keep store's page writes as they end, the fills of the register channels, and the scan at BOOT
(R157, R158, R268–R290). -/

namespace Sys2Proof.Machine

/-! ### The end of a page write (R269, R276, R277, R285, R286) -/

/-- Changes at the front of the list whose apply writes have all ended (R286). -/
def appliesLeft (queue : List PageWrite) : List Word → List Word
  | [] => []
  | n :: rest => if queue.any (fun w => decide (w.chg = n) && decide (w.kind.rank ≠ 1)) then n :: rest else appliesLeft queue rest

/-- KS_STATUS.APPLY_PENDING and RESTORE_APPLY follow the apply writes left. -/
def finishApplies (s : State) : State :=
  let left := appliesLeft s.ks.queue s.ks.applying
  let restoring := s.ks.restoreApply.filter fun n => left.any fun m => decide (m = n)
  { s with ks := { s.ks with applying := left, restoreApply := restoring } }

/-- What follows a page write, by its kind. -/
def afterWrite (kind : KsKind) (s : State) : State :=
  match kind with
  | .acceptCommit | .acceptErase _ => acceptChange s
  | .binding => if queued s .binding then s else cutOver s
  | .applySealed true => { s with ks := { s.ks with fused := true } }
  | .applySealed false => loadSecrets s
  | .secretHost => loadSecrets { s with cs := { s.cs with hostPend := false } }
  | .secretMgmt => loadSecrets { s with cs := { s.cs with mgmtPend := false } }
  | .repair => { s with bt := { s.bt with fuseBusy := false } }
  | .pendingKey _ | .applyContext _ | .applySettings | .applyUser | .totals | .bootRing | .settings | .tnMode _ | .fill => s

/-- BUSY clears (Table 10.1, step 6): the buffer is free, and what waited on the write comes about. -/
def pageWriteDone (s : State) : State :=
  match s.ks.busy with
  | none => s
  | some w =>
    let s := { s with ks := { s.ks with
      busy := none, owner := .free, bytes := [], formed := false, before := [], writes := s.ks.writes + 1 } }
    finishApplies (afterWrite w.kind s)

/-! ### Fills of the register channels (R268, R271–R274) -/

/-- The owner that a register channel is (R268): SP0 has its own instance, the others are the host's (R379). -/
def fillOwner (mgmt : Bool) : BufOwner := if mgmt then .sp0 else .host

/-- KS_ADDR of a channel. -/
def ksAddr (s : State) (mgmt : Bool) : Nat := if mgmt then s.ks.addrMgmt.toNat else s.ks.addrHost.toNat

/-- KS_ADDR is set. -/
def setKsAddr (mgmt : Bool) (a : Nat) (s : State) : State :=
  if mgmt then { s with ks := { s.ks with addrMgmt := BitVec.ofNat 16 a } }
  else { s with ks := { s.ks with addrHost := BitVec.ofNat 16 a } }

/-- A page of the provider's own use (Table 10.3). -/
def userPage (p : Nat) : Bool := decide (0xD0 ≤ p) && decide (p ≤ 0xFF)

/-- The code a KS_WDATA write is refused with (R268, R272, R274, R288). -/
def wdataCode (s : State) (mgmt : Bool) : Option (BitVec 8) :=
  let page := ksAddr s mgmt / 256
  if !userPage page then some cPERMISSION
  else if s.ks.restoreApply.isSome then some cWRONG_STATE
  else if s.ks.owner = .free then none
  else if s.ks.owner = fillOwner mgmt ∧ s.ks.formed = false ∧ s.ks.page = page then none
  else some cWRONG_STATE

/-- The bytes of a register write that its byte enables name, at a page offset. -/
def enabledBytes (off : Nat) (be : BitVec 4) (v : Word) : List (Nat × Byte) :=
  (List.range 4).filterMap fun k => if bit be k then some (off + k, (wordBytes v).getD k 0) else none

/-- A KS_WDATA write that is taken: its bytes are loaded, byte 255 forms the write, and KS_ADDR advances (R272). -/
def wdata (mgmt : Bool) (be : BitVec 4) (v : Word) (s : State) : State :=
  let a := ksAddr s mgmt
  let bytes := enabledBytes (a % 256) be v
  let s := if bytes.isEmpty then s else loadFill (fillOwner mgmt) (a / 256) bytes s
  let s := if bytes.any fun e => decide (e.1 = 255) then formFill s else s
  setKsAddr mgmt (a + 4) s

/-- A read of KS_RDATA (R271, R274): its value, and whether it is refused. -/
def rdata (mgmt : Bool) (s : State) : State × Word × Bool :=
  let a := ksAddr s mgmt
  let page := a / 256
  let busy := match s.ks.busy with
    | some w => decide (w.page = page)
    | none => false
  if !(userPage page || decide (a < 0x40)) then (setKsAddr mgmt (a + 4) s, 0, false)
  else if busy then (s, 0, true)
  else
    let w := a / 4
    (setKsAddr mgmt (a + 4) (senseWord w s), ksWord s.ks w, false)

/-- The channel owns a fill that is not formed. -/
def ownsFill (s : State) (mgmt : Bool) : Bool := decide (s.ks.owner = fillOwner mgmt) && !s.ks.formed

/-- A write of KS_CTRL's own bits: DISCARD before COMMIT (R273). -/
def ksCommand (mgmt commit discard : Bool) (s : State) : State :=
  if !ownsFill s mgmt then s else if discard then freeFill s else if commit then formFill s else s

/-- A fill that has loaded no byte for 10 ms (R273). -/
def fillExpires (s : State) : State :=
  if !s.ks.owner.isFill || s.ks.formed || decide (s.now < s.ks.fillAt + 10 * ms) then s
  else match s.ks.owner with
  | .dma _ => formFill s
  | who =>
    let ch : Nat := if who = .sp0 then 2 else 0
    freeFill (raise uKS cKS_BUF_EXPIRED noCtx (lo32 s.ks.page) (lo32 ch) 0 { s with ks := { s.ks with expired := true } })

/-- TN_MODE's persistent copy is formed 1 s after the first write (R283). -/
def modePersist (c : Ctx) (s : State) : State :=
  match (s.tenant c).modeAt with
  | some t =>
    if s.now < t + sec then s
    else
      let s := modTenant c (fun x => { x with modeAt := none }) s
      formContext (.tnMode c.val) c (imageNow s c) 0 false s
  | none => s

/-! ### The scan at BOOT: rings and context pages (R279, R281, R287, R290) -/

/-- A field of a payload. -/
def fieldAt (b : List Byte) (lo n : Nat) : Nat := ofLe ((b.drop lo).take n)

/-- The duet state of its code (Table 3.7); a cut-over under way is resumed as a copy (chapter 03, Corners). -/
def duetOfCode : Nat → Duet
  | 1 => .soloA
  | 2 => .soloB
  | 3 => .span
  | 4 => .spanDegraded
  | 5 => .mirror
  | 6 => .mirrorDegraded
  | 7 => .mirrorResync
  | 8 | 9 => .migrateCopy
  | _ => .none

/-- The tenant lock of its code. -/
def lockOfCode (n : Nat) : Lock := if n = 1 then .writeLock else if n = 2 then .sealed else .opened

/-- A ring without a valid record (R290). -/
def ringLost (r : RingDef) (s : State) : State := raise uKS cKS_RING_LOST noCtx (lo32 r.type) 0 0 s

/-- The sequence number a ring's next record takes (R279). -/
def nextSeq (k : Ks) (r : RingDef) : Nat := (newestRecord k r).elim 0 fun e => (e.1 + 1) % 2 ^ 32

/-! The valid records of the commit ring, in ascending number (R287, step 3). -/

def entriesOf (b : List Byte) : Nat → List CsEntry
  | 0 => []
  | n + 1 => ⟨wordOf b, wordOf (b.drop 4), wordOf (b.drop 8)⟩ :: entriesOf (b.drop 12) n

def commitOf (p : List Byte) : Commit :=
  { no := fieldAt p 0 4, mgmt := decide (fieldAt p 4 1 = 2), window := fieldAt p 6 2
    entries := entriesOf (p.drop 8) (fieldAt p 5 1) }

def byNumber (c : Commit) : List Commit → List Commit
  | [] => [c]
  | x :: rest => if c.no < x.no then c :: x :: rest else x :: byNumber c rest

def commits (k : Ks) : List Commit :=
  ((List.range rCommit.slots).filterMap fun i => (slotRecord k rCommit i).map fun e => commitOf e.2).foldl
    (fun l c => byNumber c l) []

/-- A pending key counts as valid when the commit ring holds its change (R287, step 2). -/
def keyCounts (cs : List Commit) (i : CtxImage) : Bool :=
  decide (i.key = 1) || (decide (i.key = 2) && cs.any fun c => decide (c.no = i.keyNo))

/-- A context as its image gives it (Table 10.7). -/
def tenantOf (cs : List Commit) (c : Ctx) (i : CtxImage) : Tenant :=
  { enable := decide (c = provider) || decide (i.cfg % 2 = 1)
    lock := lockOfCode (i.cfg / 2), base := BitVec.ofNat 20 i.base, size := BitVec.ofNat 20 i.size
    persist := decide (c = provider) || decide (i.mode % 2 = 1), tempo := tempoOf (BitVec.ofNat 2 (i.mode / 16))
    unlimited := decide (2 ^ 31 ≤ i.rate), rate := BitVec.ofNat 16 i.rate, cap := BitVec.ofNat 16 i.cap
    share := BitVec.ofNat 9 i.credit, shareEff := i.credit, quota := BitVec.ofNat 32 i.quota
    keyValid := keyCounts cs i, gen := BitVec.ofNat 16 i.gen, keyNo := i.keyNo, applied := i.applied
    metered := decide (c = provider) || decide (i.cfg % 2 = 1) }

/-- A context whose page has no valid half (R290); the provider keeps what Table 5.1 fixes. -/
def tenantLost (c : Ctx) : Tenant :=
  if c = provider then { enable := true, metered := true, share := 64, shareEff := 64 } else { lock := .sealed }

/-- Units load the contexts (R287); a page without a valid half is logged. -/
def loadTenants (cs : List Commit) (s : State) : State :=
  (indices 129).foldl (fun s (c : Ctx) => match contextImage s.ks c.val with
    | some (_, i) => modTenant c (fun _ => tenantOf cs c i) s
    | none => raise uKS cKS_CONTEXT_LOST noCtx (lo32 c.val) 0 0 (modTenant c (fun _ => tenantLost c) s)) s

/-- The half beside one with ERASE_COMMIT = 1 is zeroised (R287, step 4). -/
def finishWipes (k : Ks) : Ks :=
  (List.range 129).foldl (fun k c => match contextImage k c with
    | some (h, i) => if i.erase then
        let w := wordsOf (0x40 + c) ((at0 (zeros 128)).map fun e => (e.1 + 128 * (1 - h), e.2))
        { k with
            mem := program (0x40 + c) ((at0 (zeros 128)).map fun e => (e.1 + 128 * (1 - h), e.2)) k.mem
            damaged := k.damaged.filter fun a => !w.any fun b => decide (b = a)
            weak := k.weak.filter fun a => !w.any fun b => decide (b = a) }
      else k
    | none => k) k

/-! ### Changes whose apply is unfinished (R157, R287 step 3) -/

/-- A change restores factory values, or locks the sealed page. -/
def ksBit (c : Commit) (i : Nat) : Bool := c.entries.any fun e => decide (entryOff e = 0x3804) && bit (e.value &&& e.mask) i

/-- The contexts a change touches whose images do not hold its effect. -/
def missingCtx (s : State) (c : Commit) : List Ctx :=
  (indices 129).filter fun (x : Ctx) => decide ((s.tenant x).applied < c.no) && (contextImage s.ks x.val).isSome &&
    (ksBit c 9 || decide ((s.tenant x).keyNo = c.no) ||
      c.entries.any fun e => isTn (entryOff e) && decide (entryCtx e = x))

/-- The settings ring does not hold the change's effect. -/
def missingSettings (s : State) (c : Commit) : Bool :=
  decide (s.ks.settingsApplied < c.no) &&
    (ksBit c 9 || c.entries.any fun e => decide (entryOff e = 0x4814 ∨ entryOff e = 0x3004))

/-- An entry's effect on a context, without the side effects of acceptance. -/
def redoTn (s : State) (c : Commit) (x : Ctx) (t : Tenant) : Tenant :=
  let t := if ksBit c 9 then restoreTenant c.no x t else t
  c.entries.foldl (fun t e => if isTn (entryOff e) && decide (entryCtx e = x)
    then setTn (entryOff e) (entryValue s e) t else t) { t with applied := c.no }

/-- An entry's effect on the settings. -/
def redoSetting (s : State) (e : CsEntry) : State :=
  match entryOff e with
  | 0x4814 => { s with cs := { s.cs with window := BitVec.ofNat 9 (entryValue s e).toNat } }
  | 0x3004 => { s with hl := { s.hl with persNext := BitVec.ofNat 2 (entryValue s e).toNat } }
  | _ => s

/-- CS_APPLIED with RESTORED, for the change as its record gives it (R157). -/
def logRestored (c : Commit) (s : State) : State :=
  let cs := s.cs
  let s := { s with cs := { s.cs with
    chgNo := lo32 c.no, mgmt := c.mgmt, entries := c.entries, chgWindow := BitVec.ofNat 9 c.window } }
  let s := raiseChg cCS_APPLIED 1 0 { s with cs := { s.cs with digest := changeDigest s } }
  { s with cs := cs }

/-- The change's acceptance write ended in drain phase K, and no start has logged it yet. -/
def isLate (s : State) (c : Commit) : Bool := s.ks.late.any fun l => decide (l.no = c.no)

/-- The missing effects of one change are applied, and its missing apply writes formed (R287, step 3); it is logged where something
was missing, or where the change was accepted in phase K (R157). -/
def redoChange (s : State) (c : Commit) : State :=
  let no := lo32 c.no
  let ctxs := missingCtx s c
  let settings := missingSettings s c
  let lock := ksBit c 8 && !s.ks.fused
  if ctxs.isEmpty && !settings && !lock then (if isLate s c then logRestored c s else s)
  else
    let s0 := s
    let s := ctxs.foldl (fun s x => modTenant x (fun t => redoTn s0 c x t) s) s
    let s := ctxs.foldl (fun s (x : Ctx) =>
      formContext (.applyContext x.val) x (imageNow s x) no (ksBit c 9) s) s
    let s := if settings && ksBit c 9 then
        let s := { s with
          cs := { s.cs with window := 30 }
          hl := { s.hl with persNext := 0, slotLog2 := 35, shutdown := 0 }
          ks := { s.ks with restoreApply := some no } }
        let s := zeroPages no 48 0xD0 s
        if s.ks.fused || lock then s
        else formWrite { kind := .applySealed false, page := 0
                         bytes := (at0 (zeros 72)).map (fun e => (e.1 + 0x40, e.2)), chg := no, wipe := false } s
      else s
    let s := if settings then
        let s := c.entries.foldl redoSetting { s with ks := { s.ks with settingsApplied := c.no } }
        formSettings .applySettings no s
      else s
    let s := if lock then formWrite
        { kind := .applySealed true, page := 0, bytes := [(0x88, 0x4B), (0x89, 0x43), (0x8A, 0x4F), (0x8B, 0x4C)]
          chg := no, wipe := false } s
      else s
    logRestored c { s with ks := { s.ks with applying := s.ks.applying ++ [no] } }

/-! ### Changes accepted in drain phase K (R157, log 136) -/

/-- An entry that acts on no keep-store page: its effect waits for the part of the start that can have it. -/
def actsLater (e : CsEntry) : Bool :=
  decide (entryOff e = 0x0D04) || decide (entryOff e = 0x043C) || decide (entryOff e = 0x3C38)

/-- An erase accepted in phase K is logged: its context page holds the rest of its effect (R285). -/
def logErases (s : State) : State :=
  (s.ks.late.filter fun c => c.entries.any fun e => decide (entryOff e = 0x1034)).foldl (fun s c => logRestored c s) s

/-- The burns of the changes accepted in phase K are done, and what acts later is left. -/
def lateAtScan (s : State) : State :=
  let s := logErases s
  let burns := s.ks.late.any fun c => c.entries.any fun e => decide (entryOff e = 0x3C3C)
  let left := (s.ks.late.map fun c => { c with entries := c.entries.filter actsLater }).filter fun c => !c.entries.isEmpty
  let s := { s with ks := { s.ks with late := left } }
  if burns then burnFuses s else s

/-- The entries of a register among the changes accepted in phase K take effect now. -/
def actLate (off : Nat) (s : State) : State :=
  let mine := s.ks.late.flatMap fun c => c.entries.filter fun e => decide (entryOff e = off)
  let left := (s.ks.late.map fun c => { c with entries := c.entries.filter fun e => decide (entryOff e ≠ off) }).filter
    fun c => !c.entries.isEmpty
  mine.foldl acceptOther { s with ks := { s.ks with late := left } }

/-! ### Loading the units (R287) -/

def loadSettings (s : State) : State :=
  match newestRecord s.ks rSettings with
  | some (_, p) =>
    { s with
        cs := { s.cs with window := BitVec.ofNat 9 (fieldAt p 0 2), chgWindow := BitVec.ofNat 9 (fieldAt p 0 2) }
        hl := { s.hl with
          persNext := BitVec.ofNat 2 (fieldAt p 2 1), slotLog2 := BitVec.ofNat 6 (fieldAt p 3 1)
          shutdown := BitVec.ofNat 8 (fieldAt p 4 1) }
        ks := { s.ks with settingsApplied := fieldAt p 8 4 } }
  | none => ringLost rSettings s

def loadBoot (s : State) : State × Nat :=
  match newestRecord s.ks rBoot with
  | some (_, p) =>
    ({ s with
        ks := { s.ks with bootCount := lo32 (fieldAt p 0 4 + 1) }
        pc := { s.pc with dirtyCount := BitVec.ofNat 16 (fieldAt p 8 2), lastDrainOk := decide (fieldAt p 10 2 % 2 = 1) } },
     fieldAt p 4 4)
  | none => (ringLost rBoot { s with ks := { s.ks with bootCount := 1 }, pc := { s.pc with dirtyCount := 0 } }, 0)

/-- The binding record; without one no cartridge is BOUND and REPLAY ends in REST, HELD (R290). -/
def loadBinding (s : State) : State :=
  match newestRecord s.ks rBinding with
  | some (_, p) =>
    let f := fieldAt p 21 1
    { s with duet := { s.duet with
        gen := fieldAt p 0 4, serialA := BitVec.ofNat 64 (fieldAt p 4 8), serialB := BitVec.ofNat 64 (fieldAt p 12 8)
        state := duetOfCode (fieldAt p 20 1), inA := decide (f % 2 = 1), inB := decide (f / 2 % 2 = 1)
        source := if f / 4 % 2 = 1 then .b else .a, holdB := decide (f / 8 % 2 = 1) } }
  | none => addCause 17 true (ringLost rBinding s)

/-- The wear entries of a totals payload. -/
def wearOf (b : List Byte) : Nat → List (BitVec 64 × Nat)
  | 0 => []
  | n + 1 => (BitVec.ofNat 64 (fieldAt b 0 8), fieldAt b 8 4) :: wearOf (b.drop 12) n

/-- The totals record (R176); without one the cumulative totals restart and UNSYNCED is set (R290). -/
def loadTotals (s : State) : State :=
  match newestRecord s.ks rTotals with
  | some (_, p) =>
    let n := fun k => fieldAt p (8 * k) 8
    let k : Sums := Vector.ofFn fun i => BitVec.ofNat 64 (n i.val)
    { s with
        lg := { s.lg with
          cumul := k, sealedCumul := k, sealedMinute := lo32 (fieldAt p 80 4), epoch := fieldAt p 84 2
          sealedSeq := lo32 (fieldAt p 88 4), writeSeq := lo32 (fieldAt p 88 4), consumed := lo32 (fieldAt p 92 4)
          disc := (BitVec.ofNat 32 (fieldAt p 104 4)).toInt, lostNoTarget := fieldAt p 108 4
          unsynced := decide (fieldAt p 128 4 % 2 = 1) }
        ks := { s.ks with wear := wearOf (p.drop 132) (fieldAt p 128 4 / 256 % 16) } }
  | none => ringLost rTotals { s with lg := { s.lg with cumul := Vector.replicate 10 0, sealedCumul := Vector.replicate 10 0, unsynced := true } }

/-- The soft repair entries (R306). -/
def loadRepair (s : State) : State :=
  match newestRecord s.ks rRepair with
  | some (_, p) => { s with bt := { s.bt with soft := (List.range (fieldAt p 0 2)).map fun i => wordOf (p.drop (4 + 4 * i)) } }
  | none => s

/-- The sealed page: secrets and SET words, the lock (R276, R277), and the identity check (R275). -/
def loadSealed (s : State) : State :=
  let b := pageBytes s.ks.mem 0
  let s := loadSecrets s
  let s := if fieldAt b 0x88 4 = 0x4C4F434B then { s with ks := { s.ks with fused := true } } else s
  if idOf (b.take 64) = engineId then s else raise uKS cKS_IDENT_MISMATCH noCtx 0 0 0 s

/-- The numbers the keep store records: all of them, and those that count for CS_LAST_NO (R158, R287 step 5). -/
def numbersFound (k : Ks) (cs : List Commit) (all : Bool) : List Nat :=
  cs.map (fun c => c.no) ++ (newestRecord k rSettings).elim [] (fun e => [fieldAt e.2 8 4]) ++
    (List.range 129).flatMap fun c => match contextImage k c with
      | some (_, i) => [i.applied] ++ (if all || keyCounts cs i || decide (i.key = 0) then [i.keyNo] else [])
      | none => []

/-- The sequence numbers of the rings (R279). -/
def loadSeqs (s : State) : State :=
  { s with ks := { s.ks with
      seqSettings := nextSeq s.ks rSettings, seqBoot := nextSeq s.ks rBoot, seqBinding := nextSeq s.ks rBinding
      seqCommit := nextSeq s.ks rCommit, seqTotals := nextSeq s.ks rTotals, seqRepair := nextSeq s.ks rRepair } }

/-- The scan of R287 ends: records are found, changes applied, and units load their values. -/
def bootScan (s : State) : State :=
  if s.pw.state ≠ .boot ∨ s.ks.scanned then s
  else
    let s := sensePages 0xC8 8 (sensePages 4 0xBD (sensePages 0 1 s))
    let s := loadSeqs s
    let cs := commits s.ks
    let s := if cs.isEmpty then ringLost rCommit s else s
    let last := greatest id (numbersFound s.ks cs false)
    let s := loadRepair (loadTotals (loadBinding (loadSettings (loadTenants cs s))))
    let (s, base) := loadBoot s
    let top := greatest id (base :: numbersFound s.ks cs true)
    let chg := (top / 4096 + 1) * 4096
    let s := { s with cs := { s.cs with chgNo := lo32 chg, lastNo := lo32 last } }
    let s := { s with ks := finishWipes s.ks }
    let s := loadSealed s
    let s := lateAtScan (cs.foldl redoChange s)
    let cxl := decide (s.hl.persNext = 3) || (decide (s.hl.persNext ≠ 2) && s.gl.strapCxl)
    let s := { s with hl := { s.hl with effCxl := cxl, slotLog2Eff := s.hl.slotLog2 } }
    formBoot chg { s with ks := { s.ks with scanned := true } }

/-! ### Commands -/

/-- R287: the keep-store scan at BOOT ends. -/
def execKsBootScan (s : State) : Host.Outcome State Fault Refusal := act bootScan s

/-- R273: a fill expires. -/
def execKsBufExpired (s : State) : Host.Outcome State Fault Refusal := act fillExpires s

/-- R283: TN_MODE is persisted. -/
def execTnModePersist (c : Ctx) (s : State) : Host.Outcome State Fault Refusal := act (modePersist c) s

/-- R152: the digest is recomputed. -/
def execDigestRecompute (s : State) : Host.Outcome State Fault Refusal := act digestRecompute s

/-- R154: a change lapses with its window. -/
def execWindowLapse (s : State) : Host.Outcome State Fault Refusal := act windowLapse s

end Sys2Proof.Machine
end

