-- ==== Sys2Proof/Machine/Dma.lean ====
section
/-! DEFINITION. The DMA engine: descriptors, fetch checks, bursts, the channel arbiter, beats, barriers, codas, bus errors,
and the migrate pacer (chapter 07, R100, R101, R264). -/

namespace Sys2Proof.Machine

/-! ### Access checks shared with the host path, by the values that judge the cycle's requests (R135, R137, R138, R234, R303) -/

/-- The context is enabled and its lock permits the access (R137). -/
def lockAllows (s : State) (c : Ctx) (write : Bool) : Bool :=
  let t := s.judged c
  t.enable && match t.lock with
    | .opened => true
    | .writeLock => !write
    | .sealed => false

/-- A byte range lies within the partition in effect (R135). -/
def inBounds (s : State) (c : Ctx) (off len : Nat) : Bool := decide (off + len ≤ (s.judged c).size.toNat * 2 ^ 20)

/-- The media line of an offset line in a context's partition (R135). -/
def lineIn (s : State) (c : Ctx) (off : Nat) : Nat := (s.judged c).base.toNat * mibLines + off

/-- Media access is refused in REST: writes always, reads when HELD (Table 11.3). -/
def restRefuses (s : State) (write : Bool) : Bool := decide (s.pw.state = .rest) && (write || restHeld s)

/-! ### Address ranges of the engine itself (Table 7.6, check 4) -/

/-- Sizes of the BARs: PF BAR0, BAR2, BAR4, the VFs' BAR0 and BAR2 (R222, R224). -/
def barSizes (s : State) : List Nat :=
  let slot := 2 ^ s.hl.slotLog2Eff.toNat
  let vfs := if s.hl.vfEnable then s.hl.numVfs else 0
  [65536, if s.hl.effCxl then 0 else 256 * slot, 1048576, max 8192 s.hl.sysPage * vfs, if s.hl.effCxl then 0 else slot * vfs]

/-- A host range meets a BAR that the host has assigned. -/
def selfTarget (s : State) (addr len : Nat) : Bool :=
  (s.hl.bars.toList.zip (barSizes s)).any fun b =>
    decide (b.1 ≠ 0) && decide (addr < b.1.toNat + b.2) && decide (b.1.toNat < addr + len)

/-! ### Descriptors (R184–R187, Tables 7.1–7.4) -/

/-- A G7 descriptor's fields (Table 7.3). -/
def descG7 (b : List Byte) : Desc :=
  let n := fun lo len => ofLe ((b.drop lo).take len)
  let c := wordOf b
  { g5 := false, barrier := bit c 30, irq := bit c 29, last := bit c 28, srcSpace := fld c 24 4, dstSpace := fld c 20 4
    ctx := fld c 8 8, length := n 4 4, src := n 8 8, dst := n 16 8, next := BitVec.ofNat 64 (n 24 8), ctrl := c
    cookie := BitVec.ofNat 32 (n 32 4) }

/-- A G5 descriptor's fields (Table 7.4), with the channel's G5_BARRIER and high half of NEXT. -/
def descG5 (b : List Byte) (barrier : Bool) (hi : Word) : Desc :=
  let n := fun lo len => ofLe ((b.drop lo).take len)
  let c := wordOf b
  let toHost := bit c 28
  let media := n 4 4 * 64
  let host := n 8 8
  let next := n 16 4
  { g5 := true, barrier := barrier, irq := bit c 30, last := bit c 29, srcSpace := if toHost then 1 else 0
    dstSpace := if toHost then 0 else 1, ctx := n 20 1, length := fld c 0 24, src := if toHost then media else host
    dst := if toHost then host else media
    next := BitVec.ofNat 64 (if next % 2 = 1 then next else hi.toNat * 2 ^ 32 + next / 32 * 32), ctrl := c
    cookie := BitVec.ofNat 32 (n 28 4) }

/-- An address is in its space's form (Table 7.1). -/
def addressOk (space addr : Nat) : Bool :=
  match space with
  | 0 => true
  | 1 => decide (addr < 2 ^ 40)
  | 2 => decide (addr < 2 ^ 16)
  | 3 => decide (addr < 2 ^ 38) && decide (addr % 64 = 0)
  | 4 => decide (addr < 2 ^ 41) && decide (addr / 2 ^ 36 % 16 = 0) && decide (addr % 64 = 0)
  | 5 => decide (addr < 2)
  | _ => false

/-- The pair of spaces is legal for the context (Table 7.2); CART pairs only in an engine-built chain. -/
def pairOk (copy : Bool) (d : Desc) : Bool :=
  match d.srcSpace, d.dstSpace with
  | 0, 1 | 1, 0 => true
  | 1, 1 => !d.g5 && decide (d.src % 64 = 0) && decide (d.dst % 64 = 0) && decide (d.length % 64 = 0)
  | 0, 2 | 2, 0 | 3, 0 | 0, 5 | 5, 0 => !d.g5 && decide (d.ctx = 128)
  | 4, 4 => copy && decide (d.ctx = 128)
  | _, _ => false

/-- NEXT is well formed; LAST ignores it (Table 7.3). -/
def nextOk (d : Desc) : Bool := d.last || d.g5 || decide (fld d.next 1 5 = 0)

/-- Check 3 of Table 7.6 but for NEXT. -/
def shapeOk (copy : Bool) (b : List Byte) (d : Desc) : Bool :=
  let fields := if d.g5 then
      decide (fld d.ctrl 24 4 = 0) && decide (ofLe ((b.drop 21).take 3) = 0) && decide (d.length % 64 = 0)
        && decide (64 ≤ d.length) && decide (d.ctx ≤ 31 ∨ d.ctx = 128)
    else
      decide (fld d.ctrl 16 4 = 7) && decide (fld d.ctrl 0 8 = 0) && decide (ofLe ((b.drop 36).take 12) = 0)
        && decide (1 ≤ d.length) && decide (d.length ≤ 2 ^ 24) && decide (d.ctx ≤ 128)
  fields && addressOk d.srcSpace d.src && addressOk d.dstSpace d.dst && pairOk copy d

/-- The keep-store pages a range touches are open to DMA (Table 10.3). -/
def keepOpen (addr len : Nat) : Bool := decide (0xD000 ≤ addr) && decide (addr + len ≤ 0x10000)

/-- A ledger record lies at or above LG_CONSUMED_SEQ. -/
def notConsumed (s : State) (seq : Nat) : Bool := decide (0 ≤ (BitVec.ofNat 32 seq - s.lg.consumed).toInt)

/-- Checks 5 to 7 of Table 7.6: the code of the first that fails. -/
def fetchCode (s : State) (d : Desc) : Option (BitVec 8) :=
  let c := d.who
  let reads := d.srcSpace = 1
  let writes := d.dstSpace = 1
  let open5 := lockAllows s c false || !reads
  if !((s.judged c).enable && open5 && (!writes || lockAllows s c true)
      && (d.srcSpace ≠ 2 || keepOpen d.src d.length) && (d.dstSpace ≠ 2 || keepOpen d.dst d.length)) then some cPERMISSION
  else if (reads && !inBounds s c d.src d.length) || (writes && !inBounds s c d.dst d.length)
      || (decide (d.srcSpace = 3) && !notConsumed s (d.src / 64)) then some cRANGE
  else if (writes && decide (s.pw.state = .rest)) || (reads && restRefuses s false)
      || ((reads || writes) && decide (s.duet.state = .none)) then some cWRONG_STATE
  else none

/-! ### Channel bookkeeping -/

def addRead (k : Counters) : Counters := { k with read := k.read + 1 }
def addOp (k : Counters) : Counters := { k with ops := k.ops + 1 }

/-- The channel's vector is raised at a completion or at the end of a burst (R210). -/
def chIrq (n : Fin 32) (burst flag : Bool) (s : State) : State :=
  let i := s.dm.ch[n].irq
  if i = 3 || (!burst && (decide (i = 1) || (decide (i = 2) && flag))) then raiseDma n s else s

/-- The descriptor in progress has issued its final read. -/
def allRead (c : DmaCh) : Bool := match c.desc with
  | some d => decide (d.length ≤ c.issued)
  | none => false

/-- A beat's data are there: not those of an outstanding host read. -/
def Beat.arrived (b : Beat) : Bool := b.data.isSome || b.cell.isSome

/-- Buffer slots become empty; they can be filled again from the next cycle (R51, R192). -/
def freeBeats (n : Fin 32) (k : Nat) (s : State) : State :=
  modCh n (fun c => { c with relBeats := c.relBeats.add s.now k }) s

/-- A channel's first beat leaves its buffer. -/
def popBeat (n : Fin 32) (s : State) : State := freeBeats n 1 (modCh n (fun c => { c with beats := c.beats.drop 1 }) s)

/-- Beats of a channel are discarded: their slots and tags return at once where the data are there, else when the outstanding
read completes (R205, R207). -/
def discardBeats (n : Fin 32) (s : State) : State :=
  let gone := s.dm.ch[n].beats.filter fun b => b.arrived
  let s := gone.foldl (fun s b => dropTag? b.tag s) s
  freeBeats n gone.length (modCh n (fun c => { c with
    beats := (c.beats.filter fun b => !b.arrived).map fun b => { b with dropped := true } }) s)

/-- The descriptor ends early with a code: nothing more is issued (R201, R204). -/
def endDesc (n : Fin 32) (code : BitVec 8) : State → State :=
  modCh n fun c => { c with endCode := some (c.endCode.getD code), burstOpen := false, burstLeft := 0 }

/-- A refusal ends the descriptor, which is counted once for its context (R193, R201). -/
def refuseBeat (n : Fin 32) (code : BitVec 8) (s : State) : State :=
  let c := s.dm.ch[n]
  match c.desc with
  | some d => (if c.endCode.isSome then id else count d.who addRefused) (endDesc n code s)
  | none => s

/-- A fill that the channel has not completed is formed at its descriptor's end (R212). -/
def closeFill (n : Fin 32) (s : State) : State := if s.ks.owner = .dma n ∧ s.ks.formed = false then formFill s else s

/-- A descriptor whose beats are all written, or that ended early with an empty buffer, goes on to BARRIER or CODA. -/
def settleDesc (n : Fin 32) (s : State) : State :=
  let c := s.dm.ch[n]
  match c.desc with
  | none => s
  | some d =>
    if !c.beats.isEmpty then s
    else if c.endCode.isSome then chGo n .coda (closeFill n s)
    else if d.length ≤ c.written then chGo n (if d.barrier then .barrier else .coda) s
    else s

/-- START (R189): the chain begins at HEAD. -/
def startCh (n : Fin 32) (s : State) : State :=
  chGo n .fetch (modCh n (fun c => { c with
    cur := c.head, code := cOK, desc := none, beats := [], issued := 0, written := 0, remain := 0, burstOpen := false
    burstLeft := 0, endCode := none, pauseNext := false, haltNext := false, idleNext := false, fermataAt := none
    abortAt := none }) s)

/-! ### Group stop (R205) -/

/-- What a group stop does to one member; `n` met the error with its code. Beats whose data are there are written; an outstanding
read is discarded when it completes. -/
def stopMember (n m : Fin 32) (code : BitVec 8) (s : State) : State :=
  let c := s.dm.ch[m]
  match c.state with
  | .barrier | .coda => modCh m (fun c => { c with haltNext := true }) s
  | _ =>
    match c.desc with
    | none => chGo m .halted (modCh m (fun c => { c with code := if m = n then code else cBUS_ERROR }) s)
    | some _ =>
      let late := fun (b : Beat) => { b with dropped := b.dropped || !b.arrived }
      let s := modCh m (fun c => { c with
        beats := c.beats.map late, haltNext := true, groupStop := decide (m ≠ n)
        endCode := some (c.endCode.getD (if m = n then code else cBUS_ERROR)), burstOpen := false, burstLeft := 0 }) s
      settleDesc m (if (s.dm.ch[m]).beats.isEmpty then s else chGo m .active s)

/-- A bus error is registered for a group (R205). -/
def stopGroup (n : Fin 32) (code : BitVec 8) (s : State) : State :=
  let g := s.dm.ch[n].group
  let s := { s with dm := { s.dm with groupStop := s.dm.groupStop ||| BitVec.ofNat 4 (2 ^ (g.toNat - 1)) } }
  (indices 32).foldl (fun s (m : Fin 32) => if s.dm.ch[m].group = g then stopMember n m code s else s) s

/-- The channel stops without a coda (R204). -/
def haltCh (n : Fin 32) (code : BitVec 8) (s : State) : State :=
  chGo n .halted (modCh n (fun c => { c with code := code, desc := none }) s)

/-! ### Fetch (R189, R190, R204, Table 7.6) -/

/-- The fetched bytes: from the descriptor SRAM, or from the host (R186). -/
def descBytes (s : State) (c : DmaCh) (host : BitVec 512) : List Byte :=
  if bit c.cur 0 then memReadMany sramDefault s.dm.sram (c.cur.toNat % 65536 / 64 * 64) 64 else lineBytes host

/-- A descriptor rejected with BAD_DESCRIPTOR, by the channel's error mode (R203–R205). -/
def badDesc (n : Fin 32) (d : Desc) (badNext : Bool) (s : State) : State :=
  let c := s.dm.ch[n]
  if badNext then
    if c.group = 0 then haltCh n cBAD_DESCRIPTOR s else stopGroup n cBAD_DESCRIPTOR s
  else
    let s := modCh n (fun c => { c with desc := some d, endCode := some cBAD_DESCRIPTOR, remain := d.length }) s
    if c.group = 0 then settleDesc n s else stopGroup n cBAD_DESCRIPTOR s

/-- GL_STALL.SELF_TARGET and its event (Table 2.9, row 3). -/
def noteSelfTarget (n : Fin 32) (addr : Nat) (s : State) : State :=
  raise uGL cSELF_TARGET noCtx (lo32 n.val) (lo32 addr) (hi32 addr)
    { s with gl := { s.gl with stall := { s.gl.stall with selfTarget := true } } }

/-- The HOST addresses of a descriptor that meet a BAR of the engine: of its range, and of NEXT. -/
def selfRange (s : State) (d : Desc) : Option Nat :=
  if d.srcSpace = 0 ∧ selfTarget s d.src d.length then some d.src
  else if d.dstSpace = 0 ∧ selfTarget s d.dst d.length then some d.dst
  else none

def selfNext (s : State) (d : Desc) : Bool := !d.last && !bit d.next 0 && selfTarget s d.next.toNat (if d.g5 then 32 else 64)

/-- The accepted descriptor is in the channel (R192). -/
def acceptDesc (n : Fin 32) (d : Desc) (s : State) : State :=
  let s := modCh n (fun c => { c with
    desc := some d, src := BitVec.ofNat 64 d.src, dst := BitVec.ofNat 64 d.dst, remain := d.length, issued := 0, written := 0
    beats := [], poison := false, sawPwf := false, sawMerge := false, endCode := none, groupStop := false
    fermataLate := false, abortLate := false, fermataAt := none, abortAt := none, durable := false, burstOpen := !c.paced
    burstLeft := if c.paced then 0 else c.burst.toNat }) s
  chGo n (if s.dm.ch[n].paced then .wait else .active) s

/-- A descriptor arrives and is checked in the order of Table 7.6. A reserved channel takes G7 descriptors only (Table 2.8, cell
n7); the host has to return credits for the fetch of a descriptor in its memory. -/
def fetchDesc (n : Fin 32) (host : BitVec 512) (s : State) : State :=
  let c := s.dm.ch[n]
  if c.state ≠ .fetch ∨ s.pc.drain.isSome ∨ !(bit c.cur 0 || hasCredit s .nonPosted) then s
  else
    let b := descBytes s c host
    let d := if c.format || c.copy || reservedCh s n then descG7 b else descG5 b c.g5Barrier c.g5Hi
    let s := modCh n (fun c => { c with
      written := 0, issued := 0, poison := false, sawPwf := false, sawMerge := false, endCode := none, groupStop := false
      fermataLate := false, abortLate := false, fermataAt := none, abortAt := none, durable := false }) s
    if !bit d.ctrl 31 then chGo n .starved s
    else if !nextOk d then badDesc n d true s
    else if !shapeOk c.copy b d then badDesc n d false s
    else match selfRange s d with
    | some a => badDesc n d (selfNext s d) (noteSelfTarget n a s)
    | none =>
      if selfNext s d then badDesc n d true (noteSelfTarget n d.next.toNat s)
      else match fetchCode s d with
      | some code =>
        settleDesc n (count d.who addRefused (modCh n (fun c => { c with
          desc := some d, endCode := some code, remain := d.length }) s))
      | none => acceptDesc n d s

/-! ### Requests and bursts (R194–R197, R100, R264) -/

/-- Room in a port's transmit FIFO (R263). -/
def txRoom (p : Sp) : Nat := 256 - p.tx.length

/-- The port of an SPFIFO address. -/
def fifoPort (a : Nat) : Port := if a % 2 = 1 then .p1 else .p0

/-- A level line is asserted for a channel (Table 7.8, R264). -/
def levelOn (s : State) (c : DmaCh) (line : Nat) : Bool :=
  match line with
  | 3 | 4 =>
    let p := s.sp (if line = 3 then .p0 else .p1)
    match c.desc with
    | some d => if d.srcSpace = 5 then decide (p.rxThresh.toNat ≤ p.rx.length) else decide (p.txThresh.toNat ≤ txRoom p)
    | none => false
  | 5 => s.ks.busy.isNone && decide (s.ks.owner = .free) && !s.ks.energyWait
  | 7 => decide (dirty s ≤ s.pc.lowwater.toNat)
  | _ => false

/-- The line is a level line. -/
def isLevel (line : Nat) : Bool := decide (line = 3 ∨ line = 4 ∨ line = 5 ∨ line = 7)

/-- A channel waits for a burst to open (R195). -/
def wantsBurst (c : DmaCh) : Bool :=
  c.paced && c.desc.isSome && !c.burstOpen && c.endCode.isNone && !allRead c
    && (decide (c.state = .wait) || decide (c.state = .active))

/-- The copy channels in rotation from the next one, those that wait for a burst (R195, R213). -/
def copyTurn (s : State) : Option (Fin 32) :=
  let l := [(31 : Fin 32), 30, 29, 28]
  (l.drop (s.dm.migNext % 4) ++ l.take (s.dm.migNext % 4)).find? fun n => s.dm.ch[n].copy && wantsBurst s.dm.ch[n]

/-- The request of a paced channel is there (R195). -/
def requested (s : State) (n : Fin 32) : Bool :=
  let c := s.dm.ch[n]
  let line := c.reqSel.toNat
  if c.copy then decide (0 < s.dm.migCount) && decide (copyTurn s = some n)
  else if isLevel line then levelOn s c line
  else decide (0 < c.pending)

/-- The request is taken. -/
def takeRequest (n : Fin 32) (s : State) : State :=
  let c := s.dm.ch[n]
  if c.copy then { s with dm := { s.dm with migCount := s.dm.migCount - 1, migNext := (31 - n.val + 1) % 4 } }
  else if isLevel c.reqSel.toNat then s
  else modCh n (fun c => { c with pending := c.pending - 1 }) s

/-- The ledger record a channel reads next is not sealed yet (R197). -/
def unsealed (s : State) (c : DmaCh) : Bool :=
  match c.desc with
  | some d => decide (d.srcSpace = 3) && !decide (0 < (s.lg.sealedSeq - BitVec.ofNat 32 ((d.src + c.issued) / 64)).toInt)
  | none => false

/-- A burst ends: its last beat carries the mark, or the interrupt is due at once when none is left (R196, R197, R210). -/
def endBurst (n : Fin 32) (s : State) : State :=
  let c := s.dm.ch[n]
  let mark := fun (l : List Beat) => l.dropLast ++ l.getLast?.toList.map fun b => { b with burstEnd := true }
  let s := modCh n (fun c => { c with burstOpen := !c.paced, burstLeft := if c.paced then 0 else c.burst.toNat
                                      beats := mark c.beats }) s
  if c.beats.isEmpty then chIrq n true false s else s

/-- A burst opens (R195): a request is taken, and a burst with no sealed record to read ends at once (R197). -/
def openBurst (n : Fin 32) (s : State) : State :=
  let c := s.dm.ch[n]
  if !(wantsBurst c && requested s n) || s.pc.drain.isSome then s
  else
    let s := chGo n .active (modCh n (fun c => { c with burstOpen := true, burstLeft := c.burst.toNat }) (takeRequest n s))
    if unsealed s c then endBurst n s else s

/-- The migrate pacer adds a request once in a period, to at most 4 (R100). -/
def pace (s : State) : State :=
  let running := s.dm.ch.toList.any fun c => c.copy
  if !running || decide (s.now < s.duet.pacerAt + s.duet.period.toNat) then s
  else { s with duet := { s.duet with pacerAt := s.now }, dm := { s.dm with migCount := min 4 (s.dm.migCount + 1) } }

/-! ### Beat reads (R192, R193, R197–R201) -/

/-- The class of a channel's tags (R192). -/
def chClass (c : DmaCh) : TagClass := if c.copy then .duet else .dma

/-- Bytes in a channel's buffer that are still to be written. -/
def buffered (c : DmaCh) : Nat := total (fun b => b.len) c.beats

/-- The length of the next beat (R192, R264). -/
def beatLen (s : State) (c : DmaCh) (d : Desc) : Nat :=
  let left := d.length - c.issued
  let cut := fun (a : Nat) => min left (64 - (a + c.issued) % 64)
  if d.srcSpace = 5 then min (min 64 left) (s.sp (fifoPort d.src)).rx.length
  else if d.dstSpace = 5 then min (min 64 left) (txRoom (s.sp (fifoPort d.dst)) - buffered c)
  else if d.srcSpace = 0 then cut d.dst
  else cut d.src

/-- The slot whose ledger ring is read: a cartridge in service, the source of a copy while its ring may not be copied yet
(R197). -/
def ringSlot (s : State) : Option Slot :=
  let copying := s.duet.ringCopy.isSome || decide (s.duet.state = .mirrorResync) || decide (s.duet.state = .migrateCopy)
  if copying then (if (s.slot s.duet.source).serves then some s.duet.source else none) else (serving s).head?

/-- A cartridge line of a slot can be read now: over its link, from a bank that no line-write holds (R70, R105). -/
def cellReady (s : State) (x : Slot) (cline : Nat) : Bool := linkReady s x && !bankHeld s x (bankOf cline)

/-- The cartridge line of a record of the ledger ring (R168). -/
def ringLineOf (s : State) (x : Slot) (seq : Nat) : Nat :=
  (s.slot x).cart.elim 0 fun c => ringBase c.big + seq % 2 ^ 20

/-- The source can accept a read now (R57, R197, R198, R213, R271); a host read takes a non-posted credit. -/
def sourceReady (s : State) (c : DmaCh) (d : Desc) : Bool :=
  let a := d.src + c.issued
  match d.srcSpace with
  | 0 => hasCredit s .nonPosted
  | 1 =>
    let line := lineIn s d.who (a / 64)
    lineReady s line && !writeWaits s line
  | 2 => match s.ks.busy with
    | some w => decide (w.page ≠ a / 256)
    | none => true
  | 3 => !unsealed s c && match ringSlot s with
    | some x => cellReady s x (ringLineOf s x (a / 64))
    | none => false
  | 4 =>
    let cl := a % 2 ^ 36 / 64
    (s.slot s.duet.source).serves && cellReady s s.duet.source cl && !writeWaits s (mediaLine s s.duet.source cl)
  | _ => true

/-- A context's beat has its token: none where the context had no limit as the cycle began (R138, R141, R193). -/
def beatToken (s : State) (c : Ctx) : Bool := (s.judged c).unlimited || hasTokens s c 1

/-- The channel may be granted a beat read (R198). -/
def eligible (s : State) (c : DmaCh) : Bool :=
  match c.desc with
  | none => false
  | some d =>
    decide (c.state = .active) && c.burstOpen && decide (c.beats.length + c.relBeats.at s.now < 16) && c.endCode.isNone
      && !allRead c && tagFree s (chClass c) d.who && beatToken s d.who && sourceReady s c d && decide (0 < beatLen s c d)

/-- The first channel of a list of numbered measures with the smallest one. -/
def earliest : List (Nat × Fin 32) → Option (Fin 32)
  | [] => none
  | (t, n) :: rest => match earliest rest with
    | some m => if rest.any (fun e => decide (e.2 = m) && decide (e.1 < t)) then some m else some n
    | none => some n

/-- The channel the arbiter grants: round robin inside each level (R198, R60, R200). -/
def granted (s : State) : Option (Fin 32) :=
  let all := (indices 32).filter fun (n : Fin 32) => eligible s s.dm.ch[n]
  let lifted := all.filterMap fun (n : Fin 32) => s.dm.ch[n].liftedAt.map fun t => (t, n)
  match earliest lifted with
  | some n => some n
  | none =>
    let top := greatest (fun (n : Fin 32) => s.dm.ch[n].prio.toNat) all
    let last := s.dm.rr.toList.getD top 0
    let level := all.filter fun (n : Fin 32) => decide (s.dm.ch[n].prio.toNat = top)
    let aged := level.filterMap fun (n : Fin 32) => s.dm.ch[n].agedAt.map fun t => (t, n)
    match earliest aged with
    | some n => some n
    | none => (level.find? fun (n : Fin 32) => decide (last < n.val)) <|> level.head?

/-- A grant is counted by the other eligible channels, and by GL_ARB_MAXWAIT (R60, R200, Table 2.19). -/
def noteGrant (n : Fin 32) (s : State) : State :=
  let won := s.dm.ch[n]
  let waited := won.liftCount + won.age
  let ch := Vector.ofFn fun m : Fin 32 =>
    let c := s.dm.ch[m]
    if m = n then { c with liftCount := 0, age := 0, liftedAt := none, agedAt := none }
    else if !eligible s c then c
    else if c.prio < won.prio then
      { c with
          liftCount := c.liftCount + 1
          liftedAt := if c.liftedAt.isNone && decide (s.dm.lift.toNat ≤ c.liftCount + 1) then some s.now else c.liftedAt }
    else if c.prio = won.prio then
      { c with
          age := c.age + 1
          agedAt := if c.agedAt.isNone && decide (s.gl.ageLimit.toNat ≤ c.age + 1) then some s.now else c.agedAt }
    else c
  let rr := s.dm.rr.set won.prio.toNat n.val
  noteWait 3 waited { s with dm := { s.dm with ch := ch, rr := rr, granted := some s.now } }

/-- A beat no longer allowed, judged as it takes its tag (R201, R197, Table 11.3). -/
def beatCode (s : State) (c : DmaCh) (d : Desc) (len : Nat) : Option (BitVec 8) :=
  let w := d.who
  let reads := d.srcSpace = 1
  let writes := d.dstSpace = 1
  if (reads && !lockAllows s w false) || (writes && !lockAllows s w true) then some cPERMISSION
  else if (reads && !inBounds s w (d.src + c.issued) len) || (writes && !inBounds s w (d.dst + c.issued) len)
      || (decide (d.srcSpace = 3) && !notConsumed s ((d.src + c.issued) / 64)) then some cRANGE
  else if (reads && restRefuses s false) || (writes && restRefuses s true)
      || ((reads || writes) && decide (s.duet.state = .none)) then some cWRONG_STATE
  else none

/-- A line's bytes from a byte offset on, moved down to byte 0. -/
def shiftDown (l : Line) (k : Nat) : Line := l >>> (8 * k)
def shiftUp (l : Line) (k : Nat) : Line := l <<< (8 * k)

/-- The ledger record of a sequence number, as the ring on a cartridge in service reads (R197): none is poison. -/
def ledgerLine (s : State) (seq : Nat) (e : Sense) : State × Option Line :=
  match ringSlot s with
  | some x => reservedRead x (ringLineOf s x seq) ((s.slot x).cart.elim 0 fun c => (look (seq % 2 ^ 20) c.ring).getD 0) e s
  | none => (s, none)

/-- The keep-store bytes of a beat: their words are sensed, and some word may be uncorrectable (R203). -/
def keepBeat (s : State) (addr len : Nat) : State × Line × Bool :=
  let words := (List.range ((addr + len + 3) / 4 - addr / 4)).map fun i => addr / 4 + i
  let bad := words.any fun w => s.ks.damaged.any fun d => decide (d = w)
  let bytes := ((pageBytes s.ks.mem (addr / 256)).drop (addr % 256)).take len
  (words.foldl (fun s w => senseWord w s) s, lineOf bytes, bad)

/-- The source line of a copy, and whether it is uncorrectable: a read of the provider context (R101, R117), with a dirty slot's
bytes over it, since the copy reads what was written before it (Table 2.4). -/
def copySource (s : State) (x : Slot) (cline : Nat) (e : Sense) : State × StoredLine × Bool :=
  let l := lineOn s x cline
  let pz := injPoison s x cline
  let again := (injected s x cline e).again
  let (s, r) := senseLine x cline provider 0 e s
  let (l, bad) := match r with
    | .good _ w => ({ l.seen w with poison := (l.seen w).poison || pz }, false)
    | .bad _ => (l.poisoned (l.err ^^^ again), true)
  let cell := match dirtyOf s (mediaLine s x cline) with
    | some h =>
      let old := plain s l h.ctx h.off
      codeword s h (if h.mask = fullMask then h.data else mergeLine old h.data h.mask)
        (h.poison || (l.poison && decide (h.mask ≠ fullMask)))
    | none => l
  (s, cell, bad)

/-- A bus error on a channel's data, met by its first outstanding beat, by its error mode (R204, R205). -/
def dataError (n : Fin 32) (s : State) : State :=
  let c := s.dm.ch[n]
  let before := c.beats.takeWhile fun b => b.arrived
  let s := match (c.beats.drop before.length).head? with
    | some b => freeBeats n 1 (dropTag? b.tag s)
    | none => s
  let rest := (c.beats.drop (before.length + 1)).map fun b => { b with dropped := true }
  let s := modCh n (fun c => { c with beats := before ++ rest }) s
  if c.group = 0 then settleDesc n (endDesc n cBUS_ERROR s) else stopGroup n cBUS_ERROR s

/-- The next address of a side: an SPFIFO side has no next one (Table 7.1). -/
def sideAddr (space base off : Nat) : Nat := if space = 5 then base else base + off

/-- A beat as it takes its tag, with what its write is judged by (R20, R52, R58, R138). -/
def newBeat (s : State) (c : DmaCh) (d : Desc) (tag len : Nat) : Beat :=
  let dst := sideAddr d.dstSpace d.dst c.issued
  { tag := some tag, src := sideAddr d.srcSpace d.src c.issued, dst := dst, len := len, data := none, poison := false, cell := none
    bad := false, cycle := s.now, fence := s.gl.fences[d.who], line := lineIn s d.who (dst / 64)
    verified := c.persist || servedVerified s d.who, quota := (s.judged d.who).quota, dropped := false, burstEnd := false }

/-- What a beat's source gives at once, and whether a keep-store word of it is uncorrectable. -/
def fillBeat (d : Desc) (b : Beat) (e : Sense) (s : State) : State × Beat × Bool :=
  let w := d.who
  match d.srcSpace with
  | 1 =>
    let (s, l) := readLine w (b.src / 64) (lineIn s w (b.src / 64)) e s
    (s, { b with data := some (shiftDown (l.getD 0) (b.src % 64)), poison := l.isNone }, false)
  | 2 =>
    let (s, l, bad) := keepBeat s b.src b.len
    (s, { b with data := some l }, bad)
  | 3 =>
    let (s, l) := ledgerLine s (b.src / 64) e
    (s, { b with data := some (l.getD 0), poison := l.isNone }, false)
  | 4 =>
    let (s, cell, bad) := copySource s s.duet.source (b.src % 2 ^ 36 / 64) e
    (s, { b with cell := some cell, poison := cell.poison, bad := bad }, false)
  | 5 =>
    let p := fifoPort d.src
    let bytes := (s.sp p).rx.take b.len
    (modSp p (fun q => { q with rx := q.rx.drop b.len }) s, { b with data := some (lineOf bytes) }, false)
  | _ => (s, b, false)

/-- A beat read that is performed: its tag and token are taken, READ counts, and its data are fetched (R192, R193). -/
def readBeat (n : Fin 32) (d : Desc) (len : Nat) (e : Sense) (s : State) : State :=
  let c := s.dm.ch[n]
  let w := d.who
  let id := (newTag s (chClass c) w).id
  let s := if (s.judged w).unlimited then s else spendTokens w 1 s
  let s := takeTag (chClass c) w s
  let s := if d.srcSpace = 1 ∨ d.srcSpace = 3 then count w addRead s else s
  match fillBeat d (newBeat s c d id len) e s with
  | (s, _, true) => dataError n (dropTag id s)
  | (s, beat, false) =>
    let s := modCh n (fun c => { c with beats := c.beats ++ [beat], issued := c.issued + len, burstLeft := c.burstLeft - 1 }) s
    let c := s.dm.ch[n]
    if c.burstLeft = 0 ∨ allRead c ∨ unsealed s c then endBurst n s else s

/-- The granted channel's beat is judged and performed. -/
def grantBeat (n : Fin 32) (e : Sense) (s : State) : State :=
  let s := noteGrant n s
  let c := s.dm.ch[n]
  match c.desc with
  | none => s
  | some d =>
    let len := beatLen s c d
    match beatCode s c d len with
    | some code => settleDesc n (refuseBeat n code s)
    | none => readBeat n d len e s

/-- The arbiter grants one beat read in a cycle (R59, R198): the next cycle's where it has granted in this one, or where the
channel is eligible only from the next one on (R51). -/
def beatRead (e : Sense) (s : State) : State :=
  if s.pc.drain.isSome then s
  else
    let t := if s.dm.granted = some s.now then passCycle s else s
    match granted t with
    | some n => grantBeat n e t
    | none => match granted (passCycle t) with
      | some n => grantBeat n e (passCycle t)
      | none => s

/-! ### Beat writes (R192, R193, R201, R202, R212, R264) -/

/-- A beat is written: its slot is empty, and the position registers advance but for an SPFIFO side (R192, R206). -/
def beatOut (n : Fin 32) (b : Beat) (s : State) : State :=
  let s := popBeat n s
  let s := match s.dm.ch[n].desc with
    | some d => modCh n (fun c => { c with
        written := c.written + b.len, remain := c.remain - b.len, bytes := c.bytes + b.len, poison := c.poison || b.poison
        src := BitVec.ofNat 64 (sideAddr d.srcSpace b.src b.len), dst := BitVec.ofNat 64 (sideAddr d.dstSpace b.dst b.len) }) s
    | none => s
  settleDesc n (if b.burstEnd then chIrq n true false s else s)

/-- A beat is written and its tag retires (R53, R192). -/
def beatDone (n : Fin 32) (b : Beat) (s : State) : State := beatOut n b (dropTag? b.tag s)

/-- A refused beat, and the beats read after it, are discarded (R201). -/
def beatRefused (n : Fin 32) (code : BitVec 8) (s : State) : State :=
  settleDesc n (refuseBeat n code (discardBeats n s))

/-- A beat's bytes as a list. -/
def beatBytes (b : Beat) (data : Line) : List Byte := (lineBytes data).take b.len

/-- A media beat at the admission point (R193): it waits for the earlier requests that Table 2.4 puts before it. -/
def writeMediaBeat (n : Fin 32) (d : Desc) (b : Beat) (data : Line) (s : State) : State :=
  let w := d.who
  if beatHeld s n w b then s
  else if restRefuses s true then beatRefused n cWRONG_STATE s
  else
    let wr : Writer := { ctx := w, verified := b.verified, cycle := b.cycle, rank := dmaRank n, quota := b.quota, req := none
                         chan := some n }
    let (s, r) := admitWrite wr (b.dst / 64) b.line (shiftUp data (b.dst % 64)) (maskRange (b.dst % 64) b.len) b.poison s
    match r with
    | .wait => s
    | .refused code => beatRefused n code s
    | .done _ => beatDone n b s

/-- A keep-store beat enters the page buffer (R212, R268, R288). -/
def writeKeepBeat (n : Fin 32) (d : Desc) (b : Beat) (data : Line) (s : State) : State :=
  let page := b.dst / 256
  let takes := decide (s.ks.owner = .free) ||
    (decide (s.ks.owner = .dma n) && !s.ks.formed && decide (s.ks.page = page))
  if s.ks.restoreApply.isSome then beatRefused n cWRONG_STATE s
  else if !takes then s
  else
    let bytes := ((List.range b.len).zip (beatBytes b data)).map fun e => (b.dst % 256 + e.1, e.2)
    let s := if s.ks.owner = .free then
        { s with ks := { s.ks with fillDone := s.dm.ch[n].doneCount, fillBase := s.dm.ch[n].written } }
      else s
    let s := loadFill (.dma n) page bytes s
    let last := decide ((b.dst + b.len) % 256 = 0) || decide (d.dst + d.length ≤ b.dst + b.len)
    beatDone n b (if last then formFill s else s)

/-- A copy beat goes to the destination's bank at the tempo recorded in the source line (R86, R101); its tag goes with the
line-write until the verify (R53). -/
def writeCopyBeat (n : Fin 32) (b : Beat) (cell : StoredLine) (s : State) : State :=
  let x : Slot := if b.dst / 2 ^ 40 % 2 = 1 then .b else .a
  let cl := b.dst % 2 ^ 36 / 64
  if !(s.slot x).writable || inhibited s x || reverifying s x || !linkReady s x || !bankFree s x (bankOf cl) then s
  else
    let tempo := tempoOf cell.tempo
    let w : LineWrite :=
      { slot := x, cline := cl, kind := .copy n (b.src % 2 ^ 36 / 64), tempo := tempo, line := cell, used := 0, fired := false
        held := false, poisonMerge := b.bad, second := true, tag := b.tag }
    let s := modSlot x (fun t => { t with intransit := t.intransit + tempo.price }) (chargeSlot x tempo.price s)
    beatOut n b (touchBank x cl { s with md := { s.md with writes := s.md.writes ++ [w] } })

/-- A posted output can go out now: the host returns credits, and egress holds none before it (Table 2.9, row 1). -/
def postedReady (s : State) : Bool := hasCredit s .posted && !s.egress.any fun e => decide (e.1.credit = some .posted)

/-- A beat at its destination (R192). -/
def beatTo (n : Fin 32) (d : Desc) (b : Beat) (data : Line) (s : State) : State :=
  match d.dstSpace with
  | 0 =>
    if !postedReady s then s
    else beatDone n b (send (.hostWrite (BitVec.ofNat 64 b.dst) (beatBytes b data) s.hl.relaxed b.poison) none s)
  | 1 => writeMediaBeat n d b data s
  | 2 => writeKeepBeat n d b data s
  | 4 => writeCopyBeat n b (b.cell.getD {}) s
  | 5 =>
    let p := fifoPort d.dst
    if txRoom (s.sp p) < b.len then s
    else beatDone n b (modSp p (fun q => { q with tx := q.tx ++ beatBytes b data }) s)
  | _ => s

/-- The first beat of a channel is written at its destination (R192). A beat read from the host carries the data and the
poison that its completion brought; one that is to be discarded only returns its slot and tag (R205, R207). -/
def beatWrite (n : Fin 32) (host : Line) (poison : Bool) (s : State) : State :=
  let c := s.dm.ch[n]
  if s.pc.drain.isSome then s
  else match c.beats, c.desc with
  | b :: _, some d =>
    if b.dropped then settleDesc n (popBeat n (dropTag? b.tag s))
    else if !(c.state = .active ∨ c.state = .holding ∨ c.state = .wait) then s
    else
      let b := if b.arrived then b else { b with poison := poison }
      let s := if !b.arrived && poison then { s with hl := { s.hl with pfAer := { s.hl.pfAer with poisoned := true } } } else s
      beatTo n d b (b.data.getD host) s
  | _, _ => s

/-! ### Barrier and coda (R188, R207, R209–R211, R213) -/

/-- The barrier's durability point is reached (R211): of a media line, the one of the mode it was admitted under (R18, R20). -/
def barrierMet (s : State) (n : Fin 32) (d : Desc) : Bool :=
  match d.dstSpace with
  | 1 => !s.pc.slots.any fun h => h.verified && h.chans.any fun m => decide (m = n)
  | 2 => decide (s.ks.owner ≠ .dma n)
  | 4 => !s.md.writes.any fun w => match w.kind with
    | .copy m _ => decide (m = n)
    | .hold _ => false
  | _ => true

def barrierReached (n : Fin 32) (s : State) : State :=
  let c := s.dm.ch[n]
  match c.desc with
  | some d =>
    if c.state = .barrier ∧ s.pc.drain.isNone ∧ barrierMet s n d then
      chGo n .coda (modCh n (fun c => { c with durable := true }) s)
    else s
  | none => s

/-- CODE of the coda (R188). -/
def codaCode (c : DmaCh) : BitVec 8 :=
  match c.endCode with
  | some code => code
  | none => if c.sawPwf then cPWF else if c.sawMerge then cPOISON_MERGE else cOK

/-- The coda status word (Table 7.5). -/
def codaWord (c : DmaCh) (d : Desc) : Word :=
  put (codaCode c).toNat 24 ||| putB c.endCode.isNone 23 ||| putB c.abortLate 22 ||| putB c.fermataLate 21
    ||| putB c.groupStop 20 ||| putB c.poison 19 ||| putB c.durable 18 ||| (if d.g5 then put (c.written / 64) 0 else 0)

/-- GL_CYCLE (Table 2.12): cycles since the end of BOOT. -/
def glCycle (s : State) : Nat := s.now - s.gl.bootEnd.getD s.now

/-- The status area of a coda (R209): G7 bytes 48–63, or G5 bytes 24–27. -/
def codaBytes (s : State) (c : DmaCh) (d : Desc) : List Byte :=
  if d.g5 then wordBytes (codaWord c d)
  else wordBytes (codaWord c d) ++ leBytes 4 c.written ++ leBytes 4 s.lg.minute ++ leBytes 4 (glCycle s)

/-- A write to the descriptor's memory (R209): descriptor SRAM, or the host without Relaxed Ordering. -/
def writeBack (c : DmaCh) (off : Nat) (bs : List Byte) (s : State) : State :=
  if bit c.cur 0 then sramWrite (c.cur.toNat % 65536 / 64 * 64 + off) bs s
  else send (.hostWrite (c.cur + BitVec.ofNat 64 off) bs false false) none s

/-- The two writes of the coda (R209). -/
def writeCoda (c : DmaCh) (d : Desc) (s : State) : State :=
  if !c.codaEn then s
  else
    let s := writeBack c (if d.g5 then 24 else 48) (codaBytes s c d) s
    writeBack c 0 (wordBytes (d.ctrl &&& 0x7FFFFFFF)) s

/-- The channel goes on behind a completed descriptor (R189, R205–R207). -/
def afterCoda (n : Fin 32) (d : Desc) (s : State) : State :=
  let c := s.dm.ch[n]
  let s := modCh n (fun c => { c with
    desc := none, cur := if d.last then c.cur else d.next, burstOpen := false, burstLeft := 0, haltNext := false
    idleNext := false, pauseNext := false, fermataAt := none, abortAt := none, endCode := none, issued := 0, written := 0, copy := c.copy && !d.last }) s
  if c.haltNext then chGo n .halted s
  else if c.idleNext ∨ d.last then chGo n .idle s
  else if c.pauseNext then chGo n .paused s
  else chGo n .fetch s

/-- A reserved channel that is IDLE while a copy has extents left runs the copy (R213). -/
def takeUp (n : Fin 32) (s : State) : State :=
  if reservedCh s n ∧ s.dm.ch[n].state = .idle ∧ s.duet.plan ≠ [] ∧ s.duet.format.isNone then startCopyCh s n else s

/-- An abort of an earlier cycle met the descriptor before its coda; one of this cycle finds the coda issued (R50, R207). -/
def abortedAt (now : Nat) (c : DmaCh) : DmaCh :=
  if c.abortLate ∧ c.abortAt ≠ some now then { c with abortLate := false, endCode := some cABORTED } else c

/-- The host can take the coda's writes, where it has any there (R209). -/
def codaReady (s : State) (c : DmaCh) : Bool := !c.codaEn || bit c.cur 0 || postedReady s

/-- A copy entry's coda: the extent is done, or the entry is rewritten for it where the descriptor ended early (R213). -/
def copyCoda (c : DmaCh) (d : Desc) (s : State) : State :=
  if !c.copy then s
  else if c.endCode.isNone then extentDone d.cookie.toNat s
  else writeEntryOf d.cookie.toNat s

/-- The coda is issued (R209): the lines the descriptor wrote are no more its own. -/
def coda (n : Fin 32) (s : State) : State :=
  let c := s.dm.ch[n]
  match c.desc with
  | none => s
  | some d =>
    if c.state ≠ .coda ∨ s.pc.drain.isSome ∨ !codaReady s c then s
    else
      let s := modCh n (abortedAt s.now) s
      let c := s.dm.ch[n]
      let s := writeCoda c d s
      let s := modCh n (fun c => { c with doneCount := c.doneCount + 1, code := codaCode c }) s
      let own := fun (h : HoldSlot) => { h with chans := h.chans.filter fun m => decide (m ≠ n) }
      let s := { s with pc := { s.pc with slots := s.pc.slots.map own } }
      let s := chIrq n false d.irq (count d.who addOp s)
      takeUp n (copyCoda c d (afterCoda n d s))

/-! ### Bus errors (R203–R205, R239) -/

/-- A host read of the channel is outstanding: a fetch from the host, or a beat whose data have not arrived. -/
def hostReadOut (c : DmaCh) : Bool :=
  (decide (c.state = .fetch) && !bit c.cur 0) || c.beats.any fun b => !b.arrived

/-- A discarded beat's outstanding read ends: its slot and tag return (R205, R207). -/
def dropOutstanding (n : Fin 32) (s : State) : State :=
  let c := s.dm.ch[n]
  let before := c.beats.takeWhile fun b => b.arrived
  match c.beats.drop before.length with
  | b :: rest => settleDesc n (freeBeats n 1 (modCh n (fun c => { c with beats := before ++ rest }) (dropTag? b.tag s)))
  | [] => s

/-- A bus error of a channel (R204): of a read that is discarded already, only its end. -/
def busError (n : Fin 32) (s : State) : State :=
  let c := s.dm.ch[n]
  if !hostReadOut c || s.pc.drain.isSome then s
  else if c.state = .fetch then (if c.group = 0 then haltCh n cBUS_ERROR s else stopGroup n cBUS_ERROR s)
  else if (c.beats.find? fun b => !b.arrived).elim false fun b => b.dropped then dropOutstanding n s
  else dataError n s

/-- The completion timeout of an engine read (R239): a bus error, and the PF's Completion Timeout (Table 8.6). -/
def readTimeout (n : Fin 32) (s : State) : State :=
  if !hostReadOut s.dm.ch[n] || s.pc.drain.isSome then s
  else busError n { s with hl := { s.hl with pfAer := { s.hl.pfAer with timeout := true } } }

/-! ### Fermata, abort and their ends (R206–R208) -/

/-- FERMATA on a channel whose state permits it (Table 7.10); a descriptor that ends early in HOLDING is the last before
the pause. An abort of the cycle takes precedence (R208). -/
def fermataCh (n : Fin 32) (s : State) : State :=
  let c := s.dm.ch[n]
  let late := modCh n fun c => { c with fermataLate := true, pauseNext := true, fermataAt := some s.now }
  let hold := fun (s : State) => chGo n .holding (modCh n (fun c => { c with pauseNext := true, fermataAt := some s.now }) s)
  if c.abortAt = some s.now then s
  else match c.state with
  | .starved => chGo n .paused (modCh n (fun c => { c with desc := none }) s)
  | .barrier | .coda => late s
  | .wait | .active => if allRead c then late s else hold s
  | .fetch => hold s
  | _ => s

/-- A HOLDING channel whose buffer is empty enters PAUSED (R206). -/
def pauseReached (n : Fin 32) (s : State) : State :=
  let c := s.dm.ch[n]
  if c.state = .holding ∧ c.beats = [] then chGo n .paused (modCh n (fun c => { c with pauseNext := false }) s) else s

/-- RESUME (R206). -/
def resumeCh (n : Fin 32) (s : State) : State :=
  let c := s.dm.ch[n]
  if c.state ≠ .paused ∨ c.abortAt = some s.now then s
  else match c.desc with
  | none => chGo n .fetch s
  | some _ =>
    if c.burstOpen then chGo n .active s
    else if c.paced then chGo n (if c.issued = 0 then .wait else .active) s
    else chGo n .active (modCh n (fun c => { c with burstOpen := true, burstLeft := c.burst.toNat }) s)

/-- KICK of a STARVED channel (R190). -/
def kickCh (n : Fin 32) (s : State) : State := if s.dm.ch[n].state = .starved then chGo n .fetch s else s

/-- An abort is registered: a fermata of the cycle has no effect (R208). -/
def noteAbort (n : Fin 32) (s : State) : State :=
  modCh n (fun c =>
    let c := { c with abortAt := some s.now }
    if c.fermataAt = some s.now then { c with fermataLate := false, pauseNext := false } else c) s

/-- ABORT on a channel whose state permits it (R207): beats whose host reads are outstanding return as those complete. In CODA the
coda's command says whether it was issued in the abort's cycle or later (R50, log 139). -/
def abortCh (n : Fin 32) (s : State) : State :=
  let s := noteAbort n s
  let c := s.dm.ch[n]
  match c.state with
  | .halted | .fetch | .starved => takeUp n (chGo n .idle (modCh n (fun c => { c with desc := none, idleNext := false }) s))
  | .coda => modCh n (fun c => { c with abortLate := true, idleNext := true }) s
  | .wait | .active | .barrier | .holding | .paused =>
    match c.desc with
    | none => takeUp n (chGo n .idle s)
    | some _ =>
      let s := modCh n (fun c => { c with endCode := some cABORTED, idleNext := true, burstOpen := false, burstLeft := 0 })
        (discardBeats n s)
      settleDesc n (chGo n .aborting s)
  | .idle | .aborting => s

/-- DOORBELL (R195): COUNT requests on line 0, and a kick. -/
def ringBell (n : Fin 32) (k : Nat) (s : State) : State :=
  kickCh n (modCh n (fun c => if c.paced ∧ c.reqSel = 0 then { c with pending := sat 16 (c.pending + k) } else c) s)

/-- A GPIO pin's level changes: the request lines that select the edge pulse (R194, R358). -/
def gpioEdge (pin : Fin 16) (level : Bool) (s : State) : State :=
  let old := bit s.pw.gpioIn pin.val
  let m : BitVec 16 := BitVec.ofNat 16 (2 ^ pin.val)
  let s := { s with pw := { s.pw with gpioIn := if level then s.pw.gpioIn ||| m else s.pw.gpioIn &&& ~~~ m } }
  if old = level ∨ s.pw.state.clocked = false then s
  else (List.range 4).foldl (fun s k =>
    let f := fld s.dm.reqGpio (8 * k) 8
    if f / 128 % 2 = 1 ∧ f % 32 = pin.val ∧ (f / 64 % 2 = 1) = level then pulseLine (12 + k) 1 s else s) s

/-- Channels that a page write ended with UNCORR_TARGET: their later beats are discarded and the coda follows (R201, R212). -/
def settleFailed (s : State) : State :=
  (indices 32).foldl (fun s (n : Fin 32) =>
    let c := s.dm.ch[n]
    if c.endCode = some cUNCORR_TARGET ∧ c.desc.isSome ∧ c.state ≠ .coda then settleDesc n (discardBeats n s) else s) s

/-! ### Commands -/

/-- R269: a formed page write starts, in the order of R270. -/
def execPageWriteStart (s : State) : Host.Outcome State Fault Refusal := act (fun s => settleFailed (startWrite s)) s

/-- R206: a HOLDING channel reaches PAUSED. -/
def execPauseReached (n : Fin 32) (s : State) : Host.Outcome State Fault Refusal := act (pauseReached n) s

/-- R194: an edge on a GPIO pin. -/
def execGpioRequest (pin : Fin 16) (level : Bool) (s : State) : Host.Outcome State Fault Refusal := act (gpioEdge pin level) s

/-- R189: a descriptor is fetched and checked. -/
def execDescriptorFetch (n : Fin 32) (host : BitVec 512) (s : State) : Host.Outcome State Fault Refusal :=
  act (fetchDesc n host) s

/-- R195: a burst opens. -/
def execBurstOpen (n : Fin 32) (s : State) : Host.Outcome State Fault Refusal := act (openBurst n) s

/-- R211: a barrier's durability point is reached. -/
def execBarrierReached (n : Fin 32) (s : State) : Host.Outcome State Fault Refusal := act (barrierReached n) s

/-- R209: a coda is issued. -/
def execCoda (n : Fin 32) (s : State) : Host.Outcome State Fault Refusal := act (coda n) s

/-- R204: a bus error. -/
def execBusError (n : Fin 32) (s : State) : Host.Outcome State Fault Refusal := act (busError n) s

/-- R239: an engine read reaches its timeout. -/
def execCompletionTimeout (ch : Fin 32) (s : State) : Host.Outcome State Fault Refusal := act (readTimeout ch) s

/-- R238: a completion that matches no outstanding read. -/
def execUnexpectedCompletion (s : State) : Host.Outcome State Fault Refusal :=
  act (fun s => { s with hl := { s.hl with pfAer := { s.hl.pfAer with unexpected := true } } }) s

/-- R100: the migrate pacer. -/
def execMigratePacer (s : State) : Host.Outcome State Fault Refusal := act pace s

end Sys2Proof.Machine
end

