-- ==== Sys2Proof/Machine/SelfTest.lean ====
section
/-! DEFINITION. The built-in tests: their order, budget, ends and outcomes, the on-demand run, repair and array tests
(chapter 11). -/

namespace Sys2Proof.Machine

/-! ### The tests and their result bits (Tables 11.1, 11.7) -/

/-- The test index of a result bit, and its slot. -/
def testOf (i : Fin 16) : Nat := if i.val ≤ 10 then i.val else i.val - 5

def testSlot (i : Fin 16) : Option Slot := if i.val ≤ 5 then none else if i.val ≤ 10 then some .a else some .b

/-- The result bit of a test, for a slot where it is a slot test. -/
def testBit (t : Nat) (x : Slot) : Fin 16 :=
  ⟨(if t ≤ 5 then t else if x = .a then t else t + 5) % 16, by omega⟩

/-- Ascending index, slot A before slot B (R299). -/
def testOrder : List (Fin 16) := [0, 1, 2, 3, 4, 5, 6, 11, 7, 12, 8, 13, 9, 14, 10, 15]

/-- An analogue test (Table 11.1). -/
def analogue (i : Fin 16) : Bool := decide (testOf i ≠ 0) && decide (testOf i ≠ 10)

/-- Test power in mW (Table 11.1). -/
def testMw (i : Fin 16) : Nat := [1200, 50, 2400, 100, 20, 1500, 900, 1000, 1600, 800, 1500].getD (testOf i) 0

/-- Test power in use, with a fuse burn's (R299). -/
def powerMw (s : State) : Nat := total testMw s.bt.running + if s.bt.fuseBusy then 500 else 0

/-- BT_STATUS.ANALOG. -/
def analogRunning (s : State) : Nat := (s.bt.running.filter analogue).length

/-- A result bit as a mask. -/
def bitMask (i : Fin 16) : BitVec 16 := BitVec.ofNat 16 (2 ^ i.val)

/-! ### What waits, and what is ready (R295, R296, R299) -/

/-- The engine is in BOOT or REPLAY, where BOOT's tests run. -/
def booting (s : State) : Bool := decide (s.pw.state = .boot) || decide (s.pw.state = .replay)

/-- The tests of BOOT or of the run going on may start. -/
def runOpen (s : State) : Bool := booting s || s.bt.run = 2

/-- A slot's insertion tests hold a test. -/
def insWants (s : State) (i : Fin 16) : Bool :=
  let has := fun (x : Slot) => (s.slot x).insTests.any fun t => decide (t = testOf i)
  match testSlot i with
  | some x => has x
  | none => decide (i = 4) && (has .a || has .b)

/-- A test waits to start: of BOOT or the run, of an insertion, or HOLDUP under REMEASURE. -/
def testWaits (s : State) (i : Fin 16) : Bool :=
  !s.bt.running.any (fun j => decide (j = i)) &&
    ((runOpen s && s.bt.todo.any fun j => decide (j = i)) || insWants s i || (decide (i = 2) && s.pc.remeasure))

/-- The slot's link is up and a cartridge is identified. -/
def linkUp (t : CtSlot) : Bool := t.cart.isSome && t.identified && decide (t.link ≠ .down) && decide (t.link ≠ .train)

/-- Every other test of ARRAY's slot has ended, and MRAM_REF and WDRV have passed in this run or at the last BOOT (R299). -/
def arrayReady (s : State) (x : Slot) : Bool :=
  let open' := s.bt.todo ++ s.bt.running
  let clear := fun t => !open'.any fun j => decide (j = testBit t x)
  let passed := fun t => let b := (testBit t x).val
    (bit s.bt.done b && !bit s.bt.fail b) || (!bit s.bt.done b && bit s.bt.bootDone b && !bit s.bt.bootFail b)
  clear 6 && clear 7 && clear 8 && clear 9 && clear 4 && passed 7 && passed 8 && (s.slot x).serves

/-- A test's readiness conditions hold (R293, R295, R299). -/
def testReady (s : State) (i : Fin 16) : Bool :=
  match testSlot i with
  | none =>
    if i = 5 then !s.hl.dlUp
    else if i = 2 ∧ s.pc.remeasure then decide (rsvdNj s + s.pc.live10mv.toNat * 2000 ≤ s.pc.availNj)
    else true
  | some x =>
    let t := testOf i
    if t = 6 then decide ((s.slot x).link = .down)
    else if t = 10 then arrayReady s x
    else linkUp (s.slot x)

/-- The limits of three analogue tests and 6.0 W let the test start. -/
def testFits (s : State) (i : Fin 16) : Bool :=
  (!analogue i || decide (analogRunning s < 3)) && decide (powerMw s + testMw i ≤ 6000)

/-- The first waiting test that is ready: the only one that may start (R299). -/
def nextTest (s : State) : Option (Fin 16) := testOrder.find? fun i => testWaits s i && testReady s i

/-- A test starts (R299). -/
def testStart (i : Fin 16) (s : State) : State :=
  if nextTest s = some i ∧ testFits s i ∧ s.pw.state.clocked ∧ s.pc.drain.isNone then
    let s := { s with bt := { s.bt with running := s.bt.running ++ [i], todo := s.bt.todo.filter fun j => decide (j ≠ i) } }
    let s := { s with bt := { s.bt with peakMw := max s.bt.peakMw (powerMw s) } }
    let s := if i = 2 ∧ s.pc.remeasure then { s with pc := { s.pc with stepNj := s.pc.live10mv.toNat * 2000 } } else s
    if testOf i = 9 then { s with md := { s.md with coil := testSlot i } } else s
  else s

/-! ### Leaving TEST (R297, R304) -/

/-- The engine leaves TEST: for REST while a cause stands, else for ACTIVE or QUIET. -/
def leaveTest (s : State) : State :=
  let s := { s with bt := { s.bt with run := 0 } }
  if s.pw.state ≠ .test then s
  else match s.bt.causes.getLast? with
  | some c =>
    let i : Fin 16 := ⟨c.1 % 16, by omega⟩
    if s.bt.fromRest then goState .rest 0 s
    else enterRest c.1 (if c.1 < 16 then testOf i else 15) (decide (testSlot i = some .b)) c.2 cBT_FAIL s
  | none => if s.pc.replayPending then goState .rest 0 s else goState (activeOrQuiet s) 0 s

/-- Causes whose test passed in the run are removed (R304). -/
def clearPassed (s : State) : State :=
  { s with bt := { s.bt with causes := s.bt.causes.filter fun c =>
    !(decide (c.1 < 16) && bit s.bt.done c.1 && !bit s.bt.fail c.1) } }

/-- The last test of a run has ended (R297): BT_DONE, ARRAY's positions, the causes that passed, and the end of TEST. -/
def endRun (s : State) : State :=
  if s.bt.run ≠ 2 ∨ s.bt.todo ≠ [] ∨ s.bt.running ≠ [] then s
  else
    let advance := fun (x : Slot) (n : Nat) (s : State) =>
      if n = 128 then modCart x (fun c =>
        let windows := if c.big then 1795 else 899
        { c with arrayPos := if windows ≤ c.arrayPos.toNat + 1 then 0 else c.arrayPos + 1 }) s else s
    let s := advance .b s.bt.arrayB (advance .a s.bt.arrayA s)
    let s := clearPassed { s with bt := { s.bt with arrayA := 0, arrayB := 0 } }
    let s := raise uBT cBT_DONE noCtx (s.bt.done.setWidth 32) (s.bt.fail.setWidth 32) 0 s
    if s.bt.stay then { s with bt := { s.bt with run := 3 } } else leaveTest s

/-! ### Outcomes of a failure (R302, Table 11.2) -/

/-- The cartridge of a slot is needed (R302). -/
def neededSlot (s : State) (x : Slot) : Bool :=
  let named := s.duet.names x && (s.slot x).bound
  named && match s.duet.state with
  | .none => false
  | .soloA => decide (x = .a)
  | .soloB => decide (x = .b)
  | .span | .spanDegraded => true
  | .mirror => s.pc.replayPending && decide (areaSlot s = some x)
  | .mirrorDegraded | .mirrorResync | .migrateCopy | .migrateCut => decide (x = s.duet.source)

/-- A cause is registered: REST at once where the engine serves, else when BOOT and REPLAY, or the run, end. -/
def restCause (i : Fin 16) (held : Bool) (s : State) : State :=
  let slot := decide (testSlot i = some .b)
  match s.pw.state with
  | .active | .quiet | .fieldHold | .rest => enterRest i.val (testOf i) slot held cBT_FAIL s
  | _ => addCause i.val held { s with bt := { s.bt with restTest := BitVec.ofNat 4 (testOf i), restSlot := slot } }

/-- An inhibit of a slot is registered in a cycle (R127, R128): no pulse from then on, and the writes in progress form the re-verify
list. -/
def registerInhibit (x : Slot) (at' : Nat) (s : State) : State :=
  if (inhibitedAt s x).isSome ∨ (s.slot x).cart.isNone ∨ !s.pw.state.clocked then s
  else
    let hold := fun (w : LineWrite) => if w.slot = x then { w with held := true, fired := false } else w
    let s := { s with md := { s.md with writes := s.md.writes.map hold } }
    match x with
    | .a => { s with md := { s.md with inhA := some at', inhibitsA := s.md.inhibitsA + 1 } }
    | .b => { s with md := { s.md with inhB := some at', inhibitsB := s.md.inhibitsB + 1 } }

/-- The sampling of a slot's FLDINH_N starts: a level that is low already registers in the next cycle (R130). -/
def sampleField (x : Slot) (s : State) : State := if (s.slot x).fldLow then registerInhibit x (s.now + 1) s else s

/-- A slot's inhibit ends with its cartridge, its length kept; the last one in service ends FIELD_HOLD (R130). -/
def inhibitGone (x : Slot) (s : State) : State :=
  let msec := (inhibitedAt s x).elim 0 fun c => (s.now - c) / ms
  let s : State := match x with
    | .a => { s with md := { s.md with inhA := none, longestA := max s.md.longestA msec } }
    | .b => { s with md := { s.md with inhB := none, longestB := max s.md.longestB msec } }
  if s.pw.state = .fieldHold ∧ !((s.slot x.other).serves && inhibited s x.other) then goState (activeOrQuiet s) 0 s else s

/-- A slot becomes FAILED with PWREN off and its link down; a cartridge in service departs (R93, R296, R302). -/
def slotFailed (x : Slot) (s : State) : State :=
  let t := s.slot x
  let s := powerOff x (modSlot x (fun t => { t with state := .failed, insTests := [], kept := false }) s)
  let s := inhibitGone x s
  if t.serves then departure x t.serial true s
  else match s.duet.format with
    | some (.copy _ _) => if t.cart.isSome then departure x t.serial false s else s
    | _ => cancelFormat x s

/-- A slot test of an inserted or serving cartridge failed: MRAM_REF calls for HELD, WDRV and MAG for READ_ONLY. -/
def slotTestFails (i : Fin 16) (x : Slot) (s : State) : State :=
  let ins := (s.slot x).insTests ≠ [] && !booting s
  if neededSlot s x && !ins then
    restCause i (decide (testOf i = 7)) (modSlot x (fun t => { t with state := .failed, kept := true, tested := true }) s)
  else slotFailed x s

/-- The outcome of a failed test (Table 11.2). -/
def testFails (i : Fin 16) (s : State) : State :=
  match testSlot i with
  | none =>
    if i = 0 then restCause i true s
    else if i = 1 then { s with lg := { s.lg with discHold := true } }
    else if i = 2 ∨ i = 3 then
      let old := s.pc.sized
      let s := { s with pc := { s.pc with sized := 0, live := 0, refused := true } }
      if old = 0 then s else raise uPC cHOLD_SIZED noCtx 0 (lo32 old) 0 s
    else if i = 4 then { s with bt := { s.bt with tempBad := true } }
    else s
  | some x =>
    let t := testOf i
    if t = 6 then slotFailed x (modSlot x (fun t => { t with lbFail := true }) s)
    else if t = 10 then s
    else slotTestFails i x s

/-! ### The end of a test -/

/-- A test is dropped from what runs. -/
def testGone (i : Fin 16) (s : State) : State :=
  { s with bt := { s.bt with running := s.bt.running.filter fun j => decide (j ≠ i) } }

/-- D0 of BT_FAIL and BT_SKIPPED (Table 13.3). -/
def testD0 (i : Fin 16) : Word := put (testOf i) 0 ||| putB (decide (testSlot i = some .b)) 8

/-- Results of BOOT's tests and of the run's. -/
def recordTest (i : Fin 16) (pass : Bool) (s : State) : State :=
  let m := bitMask i
  let f := if pass then 0 else m
  if booting s then { s with bt := { s.bt with bootDone := s.bt.bootDone ||| m, bootFail := s.bt.bootFail ||| f } }
  else if s.bt.run = 2 then { s with bt := { s.bt with done := s.bt.done ||| m, fail := s.bt.fail ||| f } }
  else s

/-- A slot's insertion test has ended; with the last the slot is tested, and outside BOOT the duet takes its arrival (R296). -/
def insPassed (x : Slot) (t : Nat) (s : State) : State :=
  let c := s.slot x
  if c.insTests.any fun u => decide (u = t) then
    let rest := c.insTests.filter fun u => decide (u ≠ t)
    let s := modSlot x (fun c => { c with insTests := rest, tested := c.tested || (rest.isEmpty && decide (c.state ≠ .training)) }) s
    if rest.isEmpty && decide (c.state ≠ .training) && decide (s.pw.state ≠ .boot) then settleBind (arrival x s) else s
  else s

/-- BT_FAIL is logged, and LAST_RESULT takes the code of the failure (R302, Table 11.7). -/
def logFail (i : Fin 16) (code : BitVec 8) (d : Word × Word × Word × Word) (s : State) : State :=
  raise uBT cBT_FAIL noCtx (testD0 i) d.1 d.2.1 { s with bt := { s.bt with lastResult := code } }

/-- A test ends with its verdict and its detail words (R292, R302). -/
def endTest (i : Fin 16) (pass : Bool) (code : BitVec 8) (d : Word × Word × Word × Word) (s : State) : State :=
  if !s.bt.running.any fun j => decide (j = i) then s
  else
    let s := recordTest i pass (testGone i s)
    let s := { s with bt := { s.bt with details := s.bt.details.set i d } }
    let s := if testOf i = 9 then { s with md := { s.md with coil := none } } else s
    let s := if pass then (match testSlot i with
        | some x => insPassed x (testOf i) s
        | none => s)
      else testFails i (logFail i code d s)
    endRun s

/-- A test that runs is not judged: it is recorded as skipped (R294, Corners). -/
def skipTest (i : Fin 16) (s : State) : State :=
  let s := { s with bt := { s.bt with skip := if s.bt.run = 2 then s.bt.skip ||| bitMask i else s.bt.skip } }
  raise uBT cBT_SKIPPED noCtx (testD0 i) 0 0 (testGone i s)

/-- The tests of a slot whose cartridge leaves end unjudged (Corners). -/
def skipSlot (x : Slot) (s : State) : State :=
  let mine := s.bt.running.filter fun i => decide (testSlot i = some x)
  let s := mine.foldl (fun s i => skipTest i s) s
  let keep := fun (i : Fin 16) => decide (testSlot i ≠ some x) || (decide (testOf i = 6) && booting s)
  let s := { s with bt := { s.bt with todo := s.bt.todo.filter keep } }
  endRun (modSlot x (fun t => { t with insTests := [], tested := false }) s)

/-! ### SRAM_BIST and soft repair (R305, R306) -/

/-- An engine repair entry with its CHECK (R305). -/
def repairEntry (array row spare : Nat) : Word :=
  let v := array * 2 ^ 28 + row * 2 ^ 16 + spare * 2 ^ 8
  BitVec.ofNat 32 (v + crc8 [BitVec.ofNat 8 (v / 2 ^ 24), BitVec.ofNat 8 (v / 2 ^ 16), BitVec.ofNat 8 (v / 2 ^ 8)])

/-- An entry is valid, and its fields. -/
def entryValid (e : Word) : Bool := decide (e = repairEntry (fld e 28 4) (fld e 16 12) (fld e 8 8))

/-- Spare rows of an SRAM (Table 11.4). -/
def spareRows (array : Nat) : Nat := [0, 32, 8, 8, 4].getD array 0

/-- Valid entries of fuses and ring, the soft ones last: a later one supersedes (R306). -/
def repairEntries (s : State) : List Word := (s.bt.fuses ++ s.bt.soft).filter entryValid

/-- The lowest spare of an SRAM that no entry names. -/
def freeSpare (s : State) (array : Nat) : Option Nat :=
  (List.range (spareRows array)).find? fun k =>
    !(repairEntries s).any fun e => decide (fld e 28 4 = array) && decide (fld e 8 8 = k)

/-- One failing row, or a row whose spare fails: a new soft entry, or the row is left unrepaired. -/
def repairRow (array row : Nat) (s : State) : State × Bool :=
  match freeSpare s array with
  | none => (s, false)
  | some k =>
    let old := s.bt.soft.filter fun e => !(decide (fld e 28 4 = array) && decide (fld e 16 12 = row))
    if 56 ≤ old.length then (s, false)
    else
      let e := repairEntry array row k
      (raise uBT cBT_REPAIR noCtx e 0 0 { s with bt := { s.bt with soft := old ++ [e], repaired := true } }, true)

/-- Every failing row is repaired while spares last: the rows left. -/
def repairRows : List (Nat × Nat) → State → State × List (Nat × Nat)
  | [], s => (s, [])
  | (a, r) :: rest, s =>
    let (s, ok) := repairRow a r s
    let (s, left) := repairRows rest s
    (s, if ok then left else (a, r) :: left)

/-- Each step named once. -/
def distinct : List Nat → List Nat
  | [] => []
  | a :: rest => let l := distinct rest
                 if l.any (fun b => decide (b = a)) then l else a :: l

/-- LP_EXIT of the start (R334, Table 13.7). -/
def lpExit (s : State) : State :=
  let unknown := s.lg.islandLost || s.pw.lpUnknown
  let unplanned := !s.pw.planned && s.lg.retention.isSome
  let ticks := if unknown then 0 else s.pw.lpTicks % 2 ^ 48
  let lost := if unplanned then s.lg.retention.elim 0 fun h => min 4095 h.traceLost else 0
  traceRaw ⟨s.now, 0x08, BitVec.ofNat 8 ((if unknown then 1 else 0) + if unplanned then 2 else 0), lo32 ticks,
    put (ticks / 2 ^ 32) 0 ||| put s.pw.wakeCause.toNat 16 ||| put lost 20⟩ s

/-- SRAM_BIST ends (R306): rows are repaired, bad steps limit the hold buffer, and the log and the trace open. -/
def sramBist (failing : List (Nat × Nat)) (s : State) : State :=
  if !(s.bt.running.any fun j => decide (j = 0)) || !s.ks.scanned then s
  else
    let rows := failing.filter fun r => decide (1 ≤ r.1 ∧ r.1 ≤ 4 ∧ r.2 < 4096)
    let before := s.bt.soft
    let (s, left) := repairRows rows s
    let s := if s.bt.soft = before then s else formRepair s
    let bad := distinct ((left.filter fun r => decide (r.1 = 1)).map fun r => r.2 / 128)
    let others := left.any fun r => decide (r.1 ≠ 1)
    let s := { s with bt := { s.bt with badSteps := bad, sramDone := true } }
    let s := openLog lpExit s
    let d := (lo32 rows.length, lo32 ((left.head?.map fun r => r.2).getD 0), lo32 (rows.length - left.length), lo32 left.length)
    let s := endTest 0 left.isEmpty cBT_FAIL d s
    if others || left.isEmpty then s else { s with bt := { s.bt with causes := s.bt.causes.filter fun c => decide (c.1 ≠ 0) } }

/-! ### HOLDUP (R27, R293) -/

/-- The smallest of three readings, and the largest. -/
def least (l : List Nat) : Nat := l.foldl (fun m n => min m n) (l.headD 0)

/-- HOLDUP ends: C, ESR and V are set, and SIZED_STEPS with them (R27, R293). -/
def holdup (capUf esrMohm : List Nat) (vchg10mv : BitVec 16) (s : State) : State :=
  if !s.bt.running.any fun j => decide (j = 2) then s
  else
    let c := least capUf
    let esr := greatest id esrMohm
    let agree := decide (greatest id capUf * 100 ≤ c * 105) && decide (esr ≤ least esrMohm + 10)
    let pass := agree && decide (esr < 255)
    let old := s.pc.sized
    let was := s.pc.remeasure
    let s := { s with pc := { s.pc with capUf := c, esrMohm := esr, charge10mv := vchg10mv, measured := true, remeasure := false, stepNj := 0 } }
    let d := (lo32 c, lo32 esr, 0, 0)
    if !pass then endTest 2 false cBT_FAIL d s
    else
      let failed3 := bit s.bt.bootDone 3 && bit s.bt.bootFail 3 && !was
      let steps := if failed3 then 0 else min (stepsOf (energyNj c esr vchg10mv.toNat)) (32 - s.bt.badSteps.length)
      let s := { s with pc := { s.pc with sized := steps, refused := s.pc.refused || decide (steps = 0) } }
      let s := if steps = old then s else raise uPC cHOLD_SIZED noCtx (lo32 steps) (lo32 old) 0 s
      endTest 2 true cOK d (recompute vchg10mv s)

/-! ### The other tests (R292, R294, Table 11.1) -/

/-- CLK_METRO: cycles over 256 ticks within 500 ppm of 7 812 500. -/
def clkMetro (cycles : Nat) : State → State :=
  let dev := if cycles < 7812500 then 7812500 - cycles else cycles - 7812500
  endTest 1 (decide (dev ≤ 3906)) cBT_FAIL (lo32 (dev * 1000000 / 7812500), 0, 0, 0)

/-- VHOLD_CMP: both trips at 5.50 V within 55 mV. -/
def vholdCmp (rising falling : Nat) : State → State :=
  let off := fun v => if v < 5500 then 5500 - v else v - 5500
  endTest 3 (decide (off rising ≤ 55) && decide (off falling ≤ 55)) cBT_FAIL (lo32 (max (off rising) (off falling)), 0, 0, 0)

/-- The median of four readings, as their doubled middle sum. -/
def insertInt (v : Int) : List Int → List Int
  | [] => [v]
  | x :: rest => if v ≤ x then v :: x :: rest else x :: insertInt v rest

def median2 (l : List Int) : Int :=
  let o := l.foldl (fun a v => insertInt v a) []
  o.getD 1 0 + o.getD 2 0

/-- Doubled distances from the median. -/
def tempDist (l : List Int) : List Nat := l.map fun v => (2 * v - median2 l).natAbs

/-- The engine's own part of test 4 is still to end. -/
def engineTemp (s : State) : Bool :=
  (booting s && !bit s.bt.bootDone 4) || (decide (s.bt.run = 2) && bit s.bt.mask 4 && !bit s.bt.done 4)

/-- TEMP: the engine's two sensors agree within 3 °C, or a cartridge's are within 8 °C of their median. The cartridge part
belongs to the slot's insertion tests, or to the running test 4 (R295). -/
def tempTest (slot : Option Slot) (readings : List Int) (s : State) : State :=
  match slot with
  | none =>
    let worst := (readings.getD 0 0 - readings.getD 1 0).natAbs
    let pass := decide (worst ≤ 3) && !bit s.bt.fail 4
    endTest 4 pass cBT_FAIL (lo32 worst, 0, 0, 0) s
  | some x =>
    if !s.bt.running.any fun j => decide (j = 4) then s
    else
      let d := tempDist readings
      let worst := greatest id d
      let pass := decide (worst ≤ 16)
      let det := (lo32 (worst / 2), lo32 (d.takeWhile fun v => decide (v ≠ worst)).length, (0 : Word), (0 : Word))
      let mine := (s.slot x).insTests.any fun t => decide (t = 4)
      if mine then
        let s := { s with bt := { s.bt with details := s.bt.details.set 4 det } }
        let s := if engineTemp s then s else testGone 4 s
        if pass then insPassed x 4 s
        else
          let s := logFail 4 cBT_FAIL det { s with bt := { s.bt with tempBad := true } }
          if booting s then insPassed x 4 { s with bt := { s.bt with bootFail := s.bt.bootFail ||| 0x10 } } else slotFailed x s
      else if pass then s
      else logFail 4 cBT_FAIL det { s with bt := { s.bt with
        tempBad := true, fail := if s.bt.run = 2 then s.bt.fail ||| 0x10 else s.bt.fail, details := s.bt.details.set 4 det } }

/-- PHY_LB and ML_LB: no bit error, and for ML_LB an eye of 0.20 UI. -/
def phyLb (errors : Nat) : State → State := endTest 5 (decide (errors = 0)) cBT_FAIL (lo32 errors, 0, 0, 0)

def mlLb (x : Slot) (errors eyeMilliUi : Nat) (s : State) : State :=
  let pass := decide (errors = 0) && decide (200 ≤ eyeMilliUi)
  let i := testBit 6 x
  if !s.bt.running.any fun j => decide (j = i) then s
  else
    let s := if pass then modSlot x (fun t => { t with
        lbFail := false, state := if t.state = .failed && t.cart.isNone then .empty else t.state }) s else s
    endTest i pass cBT_FAIL (lo32 errors, 0, 0, 0) s

/-- MRAM_REF: offsets within 15 mV and a TMR of at least 80 %. -/
def mramRef (x : Slot) (offsetMv tmrPercent bank : Nat) : State → State :=
  endTest (testBit 7 x) (decide (offsetMv ≤ 15) && decide (80 ≤ tmrPercent)) cBT_FAIL (lo32 offsetMv, lo32 bank, 0, 0)

/-- WDRV: currents within 5 %. -/
def wdrv (x : Slot) (deviationPermille die : Nat) : State → State :=
  endTest (testBit 8 x) (decide (deviationPermille ≤ 50)) cBT_FAIL (lo32 deviationPermille, lo32 die, 0, 0)

/-- MAG, in 0.01 mT: sensors below 0.5 mT with coils off, else unjudged; 4.0 mT within 10 % with coils on; FLDINH_N
fell and rose (R294). -/
def mag (x : Slot) (offMax onMin onMax sensor : Nat) (inhibitSeen : Bool) (s : State) : State :=
  let i := testBit 9 x
  if !s.bt.running.any fun j => decide (j = i) then s
  else if 50 ≤ offMax then
    let s := { s with md := { s.md with coil := none } }
    endRun (insPassed x 9 (skipTest i s))
  else
    let dev := max (400 - onMin) (onMax - 400)
    endTest i (decide (360 ≤ onMin) && decide (onMax ≤ 440) && inhibitSeen) cBT_FAIL (lo32 dev, lo32 sensor, 0, 0) s

/-! ### ARRAY (R301, R307) -/

/-- Repair rows of a bank below the save area (R307). -/
def reserveRows (big : Bool) : Nat := if big then 16125 else 7933

/-- Repair rows used in a bank. -/
def rowsUsed (c : Cart) (bank : Nat) : Nat := (look bank c.repairRows).getD 0

/-- The cartridge line of a bank's physical line, if it is not the gap (R121). -/
def logicalLine (c : Cart) (bank p : Nat) : Option Nat :=
  let (start, gap) := bankLevel c bank
  let n := bankLines c.big
  if p = gap then none
  else
    let q := if gap < p then p - 1 else p
    some ((q + n - start % n) % n * 128 + bank)

/-- A line left unrepaired is relocated; one whose relocation finds no spare is poisoned on restore, as an engine-issued write
that failed (R110, R112, Table 11.2). -/
def arrayReloc (x : Slot) (bank p : Nat) (s : State) : State :=
  let (s, r) := relocate x bank p [] s
  if r.ok then s
  else match (s.slot x).cart with
  | none => s
  | some c => match logicalLine c bank p with
    | some cl => enginePwf uBT x cl .lento r.tried (poisonLine x cl ((lineAt c cl).poisoned 0) [] s)
    | none => s

/-- One bank of ARRAY ends: its wear, its repaired rows, and the lines left unrepaired; no pulse is issued while the slot is
inhibited (R127). -/
def arrayBank (x : Slot) (repaired unrepaired : Nat) (last : Bool) (s : State) : State :=
  let i := testBit 10 x
  if !(s.bt.running.any fun j => decide (j = i)) || inhibited s x then s
  else match (s.slot x).cart with
  | none => s
  | some c =>
    let bank := if x = .a then s.bt.arrayA else s.bt.arrayB
    let used := rowsUsed c bank
    let rows := min repaired (reserveRows c.big - used)
    let s := bumpGap x bank 24576 (engineWrites x .moderato 16384 (engineWrites x .lento 8192 s))
    let s := (List.range rows).foldl (fun s k =>
      raise uBT cBT_REPAIR noCtx (put bank 0 ||| put (reserveRows c.big - 1 - used - k) 16) 0 0 s) s
    let s := if rows = 0 then s else
      modCart x (fun c => { c with repairRows := bump bank rows c.repairRows }) { s with bt := { s.bt with repaired := true } }
    let lines := min 4096 (bankLines c.big + 1 - c.arrayPos.toNat * 4096)
    let s := (List.range (min unrepaired lines)).foldl (fun s k => arrayReloc x bank (c.arrayPos.toNat * 4096 + k) s) s
    let old : Word × Word × Word × Word := if bank = 0 then (0, 0, 0, 0) else s.bt.details[i]
    let d : Word × Word × Word × Word := (old.1 + lo32 unrepaired, if unrepaired = 0 then old.2.1 else lo32 bank,
      old.2.2.1 + lo32 rows, old.2.2.2 + lo32 unrepaired)
    let s := { s with bt := { s.bt with details := s.bt.details.set i d } }
    let s : State := if x = .a then { s with bt := { s.bt with arrayA := bank + 1 } } else { s with bt := { s.bt with arrayB := bank + 1 } }
    if bank + 1 = 128 ∨ (last ∧ s.bt.stopped) then endTest i (decide (d.2.2.2 = 0)) cBT_FAIL d s else s

/-- A save record found on a cartridge is acted on: its window's lines are restored (R301). -/
def restoreSaved (x : Slot) (s : State) : State :=
  match (s.slot x).cart with
  | some c =>
    let s := c.saved.foldl (fun s bank => bumpGap x bank 4096 s) (engineWrites x .lento (4096 * c.saved.length) s)
    modCart x (fun c => { c with saved := [] }) s
  | none => s

/-! ### The run (R297) -/

/-- The tests that BT_MASK selects, as result bits. -/
def maskTests (m : Word) : List (Fin 16) :=
  testOrder.filter fun i => bit m (testOf i) && match testSlot i with
    | none => true
    | some .a => bit m 16
    | some .b => bit m 17

/-- The mask is refused: it names test 0, 2 or 5, or a slot test without a slot (R297). -/
def maskBad (m : Word) : Bool :=
  bit m 0 || bit m 2 || bit m 5 || (decide (fld m 6 5 ≠ 0) && !bit m 16 && !bit m 17)

/-- The tests start to run in TEST: ML_LB of a slot whose link is not down is skipped, and so is a test of a slot
without a served cartridge. -/
def beginTests (s : State) : State :=
  let all := maskTests s.bt.mask
  let skips := fun (i : Fin 16) => match testSlot i with
    | none => false
    | some x => if testOf i = 6 then decide ((s.slot x).link ≠ .down) else !linkUp (s.slot x)
  let s' := { s with bt := { s.bt with
    run := 2, done := 0, fail := 0, skip := 0, todo := all.filter fun i => !skips i, arrayA := 0, arrayB := 0, stopped := false } }
  let s' := (all.filter skips).foldl (fun s i => skipTest i s) s'
  endRun s'

/-- No slot admitted as posted is dirty. -/
def noPosted (s : State) : Bool := s.pc.slots.all fun h => h.verified

/-- TEST is entered (R297): once no posted slot is dirty, or from REST at once. -/
def testEntry (s : State) : State :=
  if s.bt.run ≠ 1 ∨ s.pc.drain.isSome then s
  else match s.pw.state with
  | .active | .quiet => if noPosted s then beginTests (dropArm (goState .test 0 { s with bt := { s.bt with fromRest := false } })) else s
  | .rest => beginTests (goState .test 0 { s with bt := { s.bt with fromRest := true } })
  | _ => s

/-- BT_CTRL.RUN, judged and accepted (R297). -/
def runTests (s : State) : State :=
  let s := lapse 4 s
  match s.pw.state with
  | .test => beginTests s
  | .rest => testEntry { s with bt := { s.bt with run := 1 } }
  | _ => testEntry { s with bt := { s.bt with run := 1 } }

/-- STOP: every test not started is skipped (R297). -/
def stopTests (s : State) : State :=
  let waiting := s.bt.todo
  let s := { s with bt := { s.bt with todo := [], stopped := true } }
  endRun (waiting.foldl (fun s i => skipTest i s) s)

/-- EXIT leaves TEST (R297). -/
def exitTests (s : State) : State := if s.bt.run = 3 then leaveTest s else s

/-- A BOOT test still going 150 ms after cycle 0 fails with TIMEOUT (R295). -/
def bootTimeout (s : State) : State :=
  if !booting s ∨ s.now < 150 * ms then s
  else
    let l := testOrder.filter fun i => s.bt.running.any fun j => decide (j = i)
    l.foldl (fun s i => endTest i false cTIMEOUT s.bt.details[i] s) s

/-! ### Commands -/

/-- R299: a test starts. -/
def execTestStart (i : Fin 16) (s : State) : Host.Outcome State Fault Refusal := act (testStart i) s

/-- R297: TEST is entered. -/
def execTestEntry (s : State) : Host.Outcome State Fault Refusal := act testEntry s

/-- R295: a BOOT test times out. -/
def execBootTestTimeout (s : State) : Host.Outcome State Fault Refusal := act bootTimeout s

/-- R306: SRAM_BIST ends. -/
def execSramBist (failing : List (Nat × Nat)) (s : State) : Host.Outcome State Fault Refusal := act (sramBist failing) s

/-- R292: CLK_METRO ends. -/
def execClkMetro (cycles : Nat) (s : State) : Host.Outcome State Fault Refusal := act (clkMetro cycles) s

/-- R293: HOLDUP ends. -/
def execHoldup (capUf esrMohm : List Nat) (vchg10mv : BitVec 16) (s : State) : Host.Outcome State Fault Refusal :=
  act (holdup capUf esrMohm vchg10mv) s

/-- R292: VHOLD_CMP ends. -/
def execVholdCmp (risingMv fallingMv : Nat) (s : State) : Host.Outcome State Fault Refusal := act (vholdCmp risingMv fallingMv) s

/-- R292: TEMP ends. -/
def execTemp (slot : Option Slot) (readings : List Int) (s : State) : Host.Outcome State Fault Refusal :=
  act (tempTest slot readings) s

/-- R292: PHY_LB ends. -/
def execPhyLb (errors : Nat) (s : State) : Host.Outcome State Fault Refusal := act (phyLb errors) s

/-- R292: ML_LB ends. -/
def execMlLb (slot : Slot) (errors eyeMilliUi : Nat) (s : State) : Host.Outcome State Fault Refusal :=
  act (mlLb slot errors eyeMilliUi) s

/-- R292: MRAM_REF ends. -/
def execMramRef (slot : Slot) (offsetMv tmrPercent bank : Nat) (s : State) : Host.Outcome State Fault Refusal :=
  act (mramRef slot offsetMv tmrPercent bank) s

/-- R292: WDRV ends. -/
def execWdrv (slot : Slot) (deviationPermille die : Nat) (s : State) : Host.Outcome State Fault Refusal :=
  act (wdrv slot deviationPermille die) s

/-- R294: MAG ends. -/
def execMag (slot : Slot) (offMax onMin onMax sensor : Nat) (inhibitSeen : Bool) (s : State) : Host.Outcome State Fault Refusal :=
  act (mag slot offMax onMin onMax sensor inhibitSeen) s

/-- R301: ARRAY ends for a bank. -/
def execArray (slot : Slot) (repaired unrepaired : Nat) (last : Bool) (s : State) : Host.Outcome State Fault Refusal :=
  act (arrayBank slot repaired unrepaired last) s

end Sys2Proof.Machine
end

