-- ==== Sys2Proof/Machine/Supervisor.lean ====
section
/-! DEFINITION. The cartridges' supervisors: what they execute and answer, the transactions the engine runs with them, and what it
makes of the answers; authentication and exposure (R73–R89, Tables 3.4, 3.5). -/

namespace Sys2Proof.Machine

/-! ### What the supervisor executes (Table 3.4) -/

/-- The identity record (Table 3.5); a damaged record's CRC does not match (R78). -/
def identityRecord (c : Cart) : List Byte :=
  let b := leBytes 8 c.serial.toNat ++ [if c.big then 2 else 1, c.proto] ++ leBytes 2 (if c.big then 32 else 16)
    ++ leBytes 4 c.made.toNat ++ leBytes 8 (lifeBudget c.big) ++ leBytes 4 (userMib c.big)
  b ++ leBytes 4 (if c.identOk then crc32 b else (crc32 b) ^^^ 1)

/-- A page of EXPO_READ (R87): temperature bins, field bins with the peaks and the count, or a step record (log 20). -/
def expoPage (v : Sv) (page : Nat) : Option (List Byte) :=
  if page = 0 then some (v.tempBins.toList.flatMap fun n => leBytes 4 n)
  else if page = 1 then
    some ((v.fieldBins.toList.flatMap fun n => leBytes 4 n) ++ leBytes 4 (signed 32 v.peakTemp) ++ leBytes 4 v.peakField
      ++ leBytes 4 v.unpowered)
  else if page < 10 then
    some (match v.steps[page - 2]? with
      | some r => leBytes 8 r.1 ++ leBytes 8 r.2
      | none => [])
  else none

/-- CLOCK_SYNC (R89): the clock agrees, slews, or steps: the open exposure interval is closed with the DRIFT flag, and a step record
written. -/
def syncClock (v : Sv) (t : Nat) : Sv × Nat :=
  let d : Int := (t : Int) - v.clockMs
  if d = 0 then (v, 0)
  else if d.natAbs ≤ 250 then ({ v with slewMs := d }, 1)
  else
    ({ v with
        steps := lastN 8 (v.steps ++ [(v.clockMs, t)]), closed := v.closed ++ [(v.openMs, v.clockMs, true)], openMs := t
        clockMs := t, slewMs := 0 }, 2)

/-- A command executed by the supervisor: its state, the result code and the response. `extra` is the answer of a command
whose result comes from the cartridge's key or sensors (AUTH, FIELD_TEST). -/
def svExecute (c : Cart) (opc : BitVec 7) (payload extra : List Byte) : Sv × BitVec 8 × List Byte :=
  let v := c.sv
  match opc.toNat with
  | 1 => (v, cOK, identityRecord c)
  | 2 => (v, cOK, extra)
  | 3 => (v, cOK, leBytes 8 v.spent ++ leBytes 8 (lifeBudget c.big))
  | 4 =>
    let v := { v with spent := v.spent + ofLe payload }
    (v, cOK, leBytes 8 v.spent)
  | 5 => match expoPage v ((payload.headD 0).toNat) with
    | some b => (v, cOK, b)
    | none => (v, cRANGE, [])
  | 6 =>
    let before := v.clockMs
    let (v, a) := syncClock v (ofLe payload)
    (v, cOK, leBytes 8 before ++ leBytes 1 a)
  | 7 => (v, cOK, v.temps.toList ++ leBytes 2 v.field.toNat)
  | 8 => ({ v with lamp := BitVec.ofNat 2 (payload.headD 0).toNat }, cOK, [])
  | 9 => ({ v with alerts := 0 }, cOK, leBytes 2 v.alerts.toNat)
  | 10 => (v, cOK, extra)
  | 11 => ({ v with vcart := decide (payload.headD 0 ≠ 0) }, cOK, [])
  | _ => (v, cRANGE, [])

/-- Answer limits in ms (Table 3.4). -/
def svLimit (opc : BitVec 7) : Nat := [1, 1, 10, 1, 5, 2, 5, 1, 1, 1, 20, 1].getD opc.toNat 1

/-- Commands that pass-through refuses with PERMISSION (R77). -/
def engineOnly (opc : BitVec 7) : Bool := decide (opc.toNat = 4 ∨ opc.toNat = 6 ∨ opc.toNat = 10 ∨ opc.toNat = 11)

/-! ### Authentication's outcomes (R78–R80) -/

/-- The slot becomes AUTH_FAILED (R78, R79). -/
def authFail (x : Slot) (s : State) : State :=
  let serial := (s.slot x).serial
  raiseSer x cCART_AUTH_FAIL serial (modSlot x (fun t => { t with
    state := .authFailed, outstanding := none, svDue := [], link := .down, insTests := [] }) s)

/-- A new attempt's nonce (R79): a free value, the engine's random source. -/
def drawNonce (x : Slot) (s : State) : State :=
  nextFree (modSlot x (fun t => { t with nonce := freeOf 128 s }) s)

/-- The identity record is accepted: its registers, and the wear kept against its serial (R78, Table 3.15). -/
def identify (x : Slot) (b : List Byte) (s : State) : State :=
  let n := fun lo len => ofLe ((b.drop lo).take len)
  let good := decide (ofLe (b.drop 28) = crc32 (b.take 28)) && decide (n 9 1 = 1) && decide (n 8 1 = 1 ∨ n 8 1 = 2)
  let serial := BitVec.ofNat 64 (n 0 8)
  if !good then authFail x s
  else
    let kept := (look serial s.ks.wear).getD 0
    let s := { s with ks := { s.ks with wear := dropKey serial s.ks.wear } }
    drawNonce x (modSlot x (fun t => { t with
      identified := true, serial := serial, idType := BitVec.ofNat 8 (n 8 1), proto := BitVec.ofNat 8 (n 9 1)
      userGib := BitVec.ofNat 16 (n 24 4 / 1024), budget := n 16 8, uncharged := kept }) s)

/-- The tag that a cartridge with the vendor's key gives (R79); K_root is zeroised before scan. -/
def expectedTag (s : State) (t : CtSlot) : List Byte :=
  let serial := leBytes 8 t.serial.toNat
  let root : BitVec 256 := if s.bt.rootGone then 0 else Config.kRoot
  let key := hmac (leBytes 32 root.toNat) (serial ++ [t.idType])
  (hmac key (leBytes 16 t.nonce.toNat ++ serial)).take 16

/-- ML_LB of a slot stands before its link trains (R93, R295). -/
def loopBackFirst (s : State) (x : Slot) : Bool :=
  (s.slot x).insTests.any (fun t => decide (t = 6)) ||
    (booting s && (s.bt.todo ++ s.bt.running).any fun i => decide (i = testBit 6 x))

/-- Authentication passes (R79, R80): TYPE shows, and the link trains, behind ML_LB where it failed before (R93) or is still
to run in BOOT (R295). -/
def authPass (x : Slot) (s : State) : State :=
  let s := modSlot x (fun t => { t with
    state := .training, typeCode := BitVec.ofNat 4 t.idType.toNat, insTests := if t.lbFail then [6] else [] }) s
  let s := modSlot x (fun t => { t with link := if loopBackFirst s x then .down else .train }) s
  let s := wantSv x 0x06 (wantSv x 0x03 s)
  if (s.slot x).uncharged = 0 then s else wantSv x 0x04 s

/-- A tag arrives (R79). -/
def judgeTag (x : Slot) (tag : List Byte) (s : State) : State :=
  let t := s.slot x
  if t.state ≠ .auth then s
  else if tag = expectedTag s t then authPass x s
  else
    let s := drawNonce x (modSlot x (fun t => { t with authTries := t.authTries + 1 }) s)
    if 3 ≤ (s.slot x).authTries then authFail x s else s

/-! ### Answers (R76, R83, R88, R89) -/

/-- The first contact that shows EXPOSED: the background read of the cartridge's user capacity starts (R88). -/
def noteExposed (x : Slot) (s : State) : State :=
  let t := s.slot x
  if t.identified && !t.exposed && t.cart.elim false (fun c => c.sv.exposed) then
    raiseSer x cCART_EXPOSED t.serial (modSlot x (fun t => { t with exposed := true, expoLine := some 0 }) s)
  else s

/-- A command is no longer owed. -/
def paid (x : Slot) (opc : BitVec 7) : State → State :=
  modSlot x fun t => { t with svDue := t.svDue.filter fun o => decide (o ≠ opc) }

/-- The hottest of four signed temperatures. -/
def hottestOf (b : List Byte) : BitVec 8 :=
  b.foldl (fun m v => if m.toInt < v.toInt then v else m) (b.headD 0)

/-- What the engine makes of an answer to its own command. -/
def svEffect (x : Slot) (o : SvOut) (b : List Byte) (s : State) : State :=
  let s := paid x o.opc s
  match o.opc.toNat with
  | 1 => identify x b s
  | 2 => judgeTag x b s
  | 3 => chargeSlot x 0 (modSlot x (fun t => { t with svSpent := ofLe (b.take 8) }) s)
  | 4 =>
    let amount := ofLe o.payload
    modSlot x (fun t => { t with uncharged := t.uncharged - amount, svSpent := ofLe b }) s
  | 6 => modSlot x (fun t => { t with lastSync := s.now }) s
  | 7 => modSlot x (fun t => { t with envHot := hottestOf (b.take 4), envField := BitVec.ofNat 16 (ofLe (b.drop 4)) }) s
  | 9 => modSlot x (fun t => { t with alertPending := false }) s
  | _ => s

/-- An answer arrives (R76): the first that succeeds clears SV_FAULT; a pass-through's goes to CT_SV_DATA (Table 3.16), unless
software has had its TIMEOUT already. -/
def svAnswer (x : Slot) (o : SvOut) (res : BitVec 8) (b : List Byte) (s : State) : State :=
  let t := s.slot x
  let s := modSlot x (fun t => { t with outstanding := none, svFault := t.svFault && decide (res ≠ cOK) }) s
  let s := emit (.supervisor x res b) s
  let s := if o.soft then
      (if t.passthrough.isSome then modSlot x (fun t => { t with
        passthrough := none, svFifo := b, svLen := BitVec.ofNat 8 b.length, svRes := res, svBusy := false }) s else s)
    else if res = cOK then svEffect x o b s else s
  noteExposed x s

/-! ### Frames (R74, R75) -/

/-- A request frame: OPC with the toggle, LEN, the payload, CRC-8. -/
def requestFrame (o : SvOut) : List Byte :=
  let b := [BitVec.ofNat 8 (o.opc.toNat + if o.toggle then 128 else 0), BitVec.ofNat 8 o.payload.length] ++ o.payload
  b ++ [BitVec.ofNat 8 (crc8 b)]

/-- Why a supervisor rejects a request frame: its byte count does not match LEN, or its CRC fails (R75; of both, log 140). -/
def frameFault (f : List Byte) : Option (BitVec 8) :=
  if f.length ≠ (f.getD 1 0).toNat + 3 then some cFRAME_REJECT
  else if BitVec.ofNat 8 (crc8 f.dropLast) ≠ f.getLastD 0 then some cCRC
  else none

/-- A frame as the wire brings it. -/
def onWire (link : SvLink) (f : List Byte) : List Byte :=
  match link with
  | .badCrc => f.dropLast ++ [f.getLastD 0 ^^^ 1]
  | .badLength => f.dropLast
  | .answered | .lost => f

/-- The answer to a poll while the supervisor is not busy: STAT, RES, LEN, the payload, CRC-8. -/
def responseFrame (opc : BitVec 7) (res : BitVec 8) (payload : List Byte) : List Byte :=
  let b := [opc.setWidth 8, res, BitVec.ofNat 8 payload.length] ++ payload
  b ++ [BitVec.ofNat 8 (crc8 b)]

/-- What the engine reads in an answer to its request: RES and the payload, where the frame's CRC passes and STAT names the
command. -/
def readFrame (o : SvOut) (f : List Byte) : Option (BitVec 8 × List Byte) :=
  let n := (f.getD 2 0).toNat
  if f.length = n + 4 ∧ f.headD 0 = o.opc.setWidth 8 ∧ BitVec.ofNat 8 (crc8 f.dropLast) = f.getLastD 0 then
    some (f.getD 1 0, (f.drop 3).take n)
  else none

/-! ### Transactions (R74–R76) -/

/-- The CT sequencer can run a transaction with the slot's supervisor. -/
def svFree (s : State) (x : Slot) : Bool :=
  let t := s.slot x
  s.pw.state.clocked && t.cart.isSome && t.svReady && !t.svSoft && s.sp1.txn.isNone

/-- The response the supervisor has saved for a request, when it is the last it executed (R75). -/
def savedFor (c : Cart) (o : SvOut) : Option (List Byte) :=
  match c.sv.done with
  | some d => if d.toggle = o.toggle ∧ d.opc = o.opc ∧ d.payload = o.payload then some d.response else none
  | none => none

/-- A frame reaches the supervisor: it rejects it, or executes its request, or has a repeat's answer saved already (R75).
The saved response's first byte is RES. -/
def svReceive (x : Slot) (o : SvOut) (frame : List Byte) : State → State :=
  modCart x fun c =>
    match frameFault frame with
    | some code => { c with sv := { c.sv with rejected := some code } }
    | none => match savedFor c o with
      | some _ => { c with sv := { c.sv with rejected := none } }
      | none =>
        let (v, res, b) := svExecute c o.opc o.payload o.extra
        { c with sv := { v with done := some ⟨o.toggle, o.opc, o.payload, res :: b⟩, rejected := none } }

/-- The frame that the supervisor answers a poll with: the code of a rejected frame, or the saved response (R74, R75). -/
def polled (s : State) (x : Slot) (o : SvOut) : Option (List Byte) :=
  (s.slot x).cart.bind fun c => match c.sv.rejected with
    | some code => some (responseFrame o.opc code [])
    | none => match savedFor c o with
      | some (res :: b) => some (responseFrame o.opc res b)
      | _ => none

/-- A request frame is shifted out; with SP1 a slave none is (R245). -/
def sendRequest (x : Slot) (o : SvOut) (link : SvLink) (s : State) : State :=
  if !s.sp1.master then s
  else svReceive x o (onWire link (requestFrame o)) (emit (.sdo .p1 ((requestFrame o).flatMap byteBits)) s)

/-- The unanswered request is repeated with its toggle (R75, R76). -/
def repeatRequest (x : Slot) (o : SvOut) (link : SvLink) (s : State) : State :=
  let o := { o with repeats := o.repeats + 1, cycle := s.now }
  sendRequest x o link (modSlot x (fun t => { t with outstanding := some o }) s)

/-- The poll that finds an answer (R74): a rejected frame is repeated, up to three times (R75, R76). -/
def svCollect (x : Slot) (o : SvOut) (s : State) : State :=
  let rejected := (s.slot x).cart.elim false fun c => c.sv.rejected.isSome
  match (polled s x o).bind (readFrame o) with
  | none => s
  | some (res, b) =>
    if rejected then
      let s := modSv x (fun v => { v with rejected := none }) s
      if o.repeats < 3 then repeatRequest x o .answered s else s
    else svAnswer x o res b s

/-- One transaction of a command: a new request flips the toggle, a repeat keeps it (R75, R76). -/
def exchange (x : Slot) (opc : BitVec 7) (payload extra : List Byte) (link : SvLink) (s : State) : State :=
  let t := s.slot x
  let next : Option SvOut := match t.outstanding with
    | some o => if o.opc = opc ∧ o.repeats < 3 then some { o with repeats := o.repeats + 1, cycle := s.now } else none
    | none =>
      let soft := t.passthrough.filter fun p => decide (p.1 = opc)
      some { opc := opc, payload := soft.elim payload fun p => p.2, toggle := !t.toggle, repeats := 0, cycle := s.now
             extra := extra, soft := soft.isSome }
  match next with
  | none => s
  | some o =>
    let s := modSlot x (fun t => { t with outstanding := some o, toggle := o.toggle }) s
    let s := sendRequest x o link s
    if link = .answered then svCollect x o s else s

/-- No dirty slot and no line-write is bound to a slot (R91, step 2). -/
def slotClean (s : State) (x : Slot) : Bool :=
  !s.pc.slots.any (fun h => h.left.any fun l => decide (l.1 = x)) && !s.md.writes.any fun w => decide (w.slot = x)

/-- The engine owes the slot a command, during a release in the order of its list once the slot is clean (R91), or software passes it
through. -/
def svOwed (s : State) (x : Slot) (opc : BitVec 7) : Bool :=
  let t := s.slot x
  let mine := t.svDue.any fun o => decide (o = opc)
  let first := decide (t.svDue.head? = some opc)
  let pass := t.passthrough.elim false fun p => decide (p.1 = opc)
  let repeated := t.outstanding.elim false fun o => decide (o.opc = opc)
  let due := decide (t.state ≠ .releasing) || (first && slotClean s x)
  repeated || (t.outstanding.isNone && (pass || (mine && due)))

/-- The lamp the engine wants (R84, R91, Table 3.11). -/
def wantLamp (t : CtSlot) : BitVec 2 :=
  if t.indicator = 0 then (if t.state = .safeToRemove then 1 else if t.eolWarn then 2 else 0) else t.indicator - 1

/-- The slot's supervisor is past authentication. -/
def authed (t : CtSlot) : Bool :=
  match t.state with
  | .training | .spare | .inService | .releasing | .safeToRemove | .failed => t.identified
  | _ => false

/-- A transaction where its cause stands. -/
def exchangeIf (p : Bool) (x : Slot) (opc : BitVec 7) (payload extra : List Byte) (link : SvLink) (s : State) : State :=
  if svFree s x && (p || svOwed s x opc) && ((s.slot x).outstanding.elim true fun o => decide (o.opc = opc)) then
    exchange x opc payload extra link s
  else s

/-- Authentication runs one slot at a time, slot A first (Table 12.8). -/
def authTurn (s : State) (x : Slot) : Bool :=
  decide ((s.slot x).state = .auth) && (decide (x = .a) || decide (s.ct.a.state ≠ .auth))

/-! ### Commands: the supervisor's rows -/

/-- The engine's time for CLOCK_SYNC (R89). -/
def syncPayload (s : State) : List Byte := leBytes 8 (lgtMs s.lg.lgt)

/-- Every 60 s a clock sync is due (R89); a release has its own (R91). -/
def syncDue (s : State) (x : Slot) : Bool :=
  authed (s.slot x) && decide ((s.slot x).state ≠ .releasing) && decide ((s.slot x).lastSync + 60 * sec ≤ s.now)

/-- POWER_NOTICE's argument is 0 while the slot is released. -/
def noticeFits (s : State) (x : Slot) (on : Bool) : Bool :=
  decide (on = decide ((s.slot x).state ≠ .releasing)) || s.pw.entering

/-- One poll (R76): the answer is taken, or a command past its limit is repeated, up to three times. -/
def svPoll (x : Slot) (busy : Bool) (s : State) : State :=
  match (s.slot x).outstanding with
  | none => s
  | some o =>
    if !svFree s x then s
    else if !busy && (polled s x o).isSome then svCollect x o s
    else if s.now < o.cycle + svLimit o.opc * ms ∨ 3 ≤ o.repeats then s
    else repeatRequest x o .answered s

/-- The third repeat stays unanswered (R76): SV_FAULT; a CLOCK_SYNC is dropped, and a pass-through reads TIMEOUT while its request
waits for the retries as every other does (DEDUCED, log 140). During authentication R79 decides instead. -/
def svTimeout (x : Slot) (s : State) : State :=
  let t := s.slot x
  match t.outstanding with
  | none => s
  | some o =>
    if o.repeats < 3 ∨ s.now < o.cycle + svLimit o.opc * ms ∨ t.state = .auth then s
    else
      let pass := o.soft && t.passthrough.isSome
      let was := t.svFault
      let s := modSlot x (fun t => { t with
        svFault := true, outstanding := if o.opc.toNat = 6 then none else t.outstanding
        passthrough := if pass then none else t.passthrough
        svBusy := t.svBusy && !pass, svRes := if pass then cTIMEOUT else t.svRes, svLen := if pass then 0 else t.svLen }) s
      if was then s else raise (uCT x) cSV_TIMEOUT noCtx (lo32 x.num) (o.opc.setWidth 32) 0 s

/-- A retry of a faulted supervisor after 10 s (R76): the unanswered request with its toggle. -/
def svRetry (x : Slot) (answered : Bool) (s : State) : State :=
  let t := s.slot x
  match t.outstanding with
  | none => s
  | some o =>
    if !t.svFault ∨ t.state = .authFailed ∨ s.now < o.cycle + 10 * sec ∨ !svFree s x then s
    else
      let o := { o with cycle := s.now }
      let s := sendRequest x o .answered (modSlot x (fun t => { t with outstanding := some o }) s)
      if answered then svCollect x o s else s

/-- Authentication has not passed in its 40 ms (R79, R80). -/
def authTimeout (x : Slot) (s : State) : State :=
  let t := s.slot x
  if t.state ≠ .auth ∨ s.now < t.authStart + 40 * ms then s
  else if t.outstanding.isSome || !t.identified then
    let opc := t.outstanding.elim (if t.identified then (2 : BitVec 7) else 1) fun o => o.opc
    let s := modSlot x (fun t => { t with svFault := true }) s
    authFail x (raise (uCT x) cSV_TIMEOUT noCtx (lo32 x.num) (opc.setWidth 32) 0 s)
  else authFail x s

/-- One second of exposure on VAUX (R87, R88): hottest sensor in °C, strongest field in 0.1 mT. -/
def exposure (hottest : BitVec 8) (field : BitVec 16) (v : Sv) : Sv :=
  let t := hottest.toInt
  let f := field.toNat
  let tb : Nat := if t < 0 then 0 else if 70 ≤ t then 15 else t.toNat / 5 + 1
  let fb : Nat := if f < 5 then 0 else if f < 10 then 1 else if f < 20 then 2 else if f < 35 then 3 else if f < 50 then 4
    else if f < 80 then 5 else if f < 250 then 6 else 7
  let above := if 80 < f then v.above8 + 1 else 0
  let step : Int := max (-1) (min 1 v.slewMs)
  { v with
      tempBins := modAt v.tempBins ⟨tb % 16, by omega⟩ (· + 1), fieldBins := modAt v.fieldBins ⟨fb % 8, by omega⟩ (· + 1)
      peakTemp := max v.peakTemp t, peakField := max v.peakField f, above8 := above
      exposed := v.exposed || decide (250 ≤ f) || decide (2 ≤ above)
      clockMs := (v.clockMs + 1000 + step).toNat, slewMs := v.slewMs - step
      temps := Vector.replicate 4 hottest, field := field }

/-- R78: ID_READ. -/
def execIdRead (slot : Slot) (link : SvLink) (s : State) : Host.Outcome State Fault Refusal :=
  act (fun s => exchangeIf (authTurn s slot && !(s.slot slot).identified) slot 0x01 [] [] link s) s

/-- R79: AUTH. -/
def execAuth (slot : Slot) (link : SvLink) (tag : BitVec 128) (s : State) : Host.Outcome State Fault Refusal :=
  act (fun s => exchangeIf (authTurn s slot && (s.slot slot).identified) slot 0x02 (leBytes 16 (s.slot slot).nonce.toNat)
    (leBytes 16 tag.toNat) link s) s

/-- R77: WEAR_READ. -/
def execWearRead (slot : Slot) (link : SvLink) (s : State) : Host.Outcome State Fault Refusal :=
  act (exchangeIf false slot 0x03 [] [] link) s

/-- R83: WEAR_CHARGE. -/
def execWearCharge (slot : Slot) (link : SvLink) (s : State) : Host.Outcome State Fault Refusal :=
  act (fun s => exchangeIf false slot 0x04 (leBytes 8 (s.slot slot).uncharged) [] link s) s

/-- R87: EXPO_READ. -/
def execExpoRead (slot : Slot) (link : SvLink) (page : Byte) (s : State) : Host.Outcome State Fault Refusal :=
  act (exchangeIf false slot 0x05 [page] [] link) s

/-- R89: CLOCK_SYNC. -/
def execClockSync (slot : Slot) (link : SvLink) (s : State) : Host.Outcome State Fault Refusal :=
  act (fun s => exchangeIf (syncDue s slot) slot 0x06 (syncPayload s) [] link s) s

/-- R77: SENSOR_READ, which keeps CT_ENV. -/
def execSensorRead (slot : Slot) (link : SvLink) (s : State) : Host.Outcome State Fault Refusal :=
  act (fun s => exchangeIf (authed (s.slot slot)) slot 0x07 [] [] link s) s

/-- R77: INDICATOR. -/
def execIndicator (slot : Slot) (link : SvLink) (mode : Fin 3) (s : State) : Host.Outcome State Fault Refusal :=
  act (fun s => exchangeIf (authed (s.slot slot) && decide (wantLamp (s.slot slot) = BitVec.ofNat 2 mode.val)) slot 0x08
    (leBytes 1 mode.val) [] link s) s

/-- R77: ALERT_READ, not before REPLAY has ended (R331). -/
def execAlertRead (slot : Slot) (link : SvLink) (s : State) : Host.Outcome State Fault Refusal :=
  act (fun s => exchangeIf ((s.slot slot).alertPending && !booting s) slot 0x09 [] [] link s) s

/-- R294: FIELD_TEST, by MAG. -/
def execFieldTest (slot : Slot) (link : SvLink) (pattern : Byte) (results : BitVec 64) (s : State) :
    Host.Outcome State Fault Refusal :=
  act (fun s => exchangeIf (s.bt.running.any fun i => decide (i = testBit 9 slot)) slot 0x0A [pattern]
    (leBytes 8 results.toNat) link s) s

/-- R77: POWER_NOTICE. -/
def execPowerNotice (slot : Slot) (link : SvLink) (on : Bool) (s : State) : Host.Outcome State Fault Refusal :=
  act (fun s => if noticeFits s slot on then exchangeIf false slot 0x0B [if on then 1 else 0] [] link s else s) s

/-- R76: a poll. -/
def execSupervisorPoll (slot : Slot) (busy : Bool) (s : State) : Host.Outcome State Fault Refusal := act (svPoll slot busy) s

/-- R76: the supervisor times out. -/
def execSvTimeout (slot : Slot) (s : State) : Host.Outcome State Fault Refusal := act (svTimeout slot) s

/-- R76: a faulted supervisor is retried. -/
def execSupervisorRetry (slot : Slot) (answered : Bool) (s : State) : Host.Outcome State Fault Refusal :=
  act (svRetry slot answered) s

/-- R80: authentication times out. -/
def execAuthTimeout (slot : Slot) (s : State) : Host.Outcome State Fault Refusal := act (authTimeout slot) s

/-- R331: a supervisor pulls SVALERT_N. -/
def execSvalert (slot : Slot) (s : State) : Host.Outcome State Fault Refusal :=
  act (modSlot slot fun t => { t with alertPending := t.alertPending || t.cart.isSome }) s

/-- R87: a second of exposure. -/
def execExposureSecond (slot : Slot) (hottest : BitVec 8) (field : BitVec 16) (s : State) : Host.Outcome State Fault Refusal :=
  act (modSv slot (exposure hottest field)) s

end Sys2Proof.Machine
end

