-- ==== Sys2Proof/Machine/Cartridge.lean ====
section
/-! DEFINITION. Insertion, binding, release and removal of cartridges, their media links, and the end of a format
(R66–R71, R79–R82, R90–R93, R97, R388). -/

namespace Sys2Proof.Machine

/-! ### Insertion (R90, Table 3.6) -/

/-- The cartridge a seating brings, and the shelf without it. -/
def takeCard (s : State) (card : Card) : Option (Cart × List Cart) :=
  match card with
  | .shelf i => match s.shelf[i]? with
    | some c => some ({ c with sv := { c.sv with unpowered := c.sv.unpowered + 1 } }, s.shelf.eraseIdx i)
    | none => none
  | .made serial big => some ({ serial := serial, big := big }, s.shelf)

/-- The registers that a slot keeps across cartridges: its control bits, its sticky bit and LB_FAIL (Tables 3.10, 3.11). -/
def emptySlot (t : CtSlot) : CtSlot :=
  { selLevel := t.selLevel, indicator := t.indicator, svSoft := t.svSoft, softSince := t.softSince, wrongState := t.wrongState
    lbFail := t.lbFail, replays := t.replays, retrains := t.retrains, toggle := t.toggle, spentHi := t.spentHi, fldLow := t.fldLow
    svRes := t.svRes, svLen := t.svLen, svFifo := t.svFifo }

/-- Presence falls: the debounce of step I1 starts. -/
def presenceFall (x : Slot) (card : Card) (s : State) : State :=
  let t := s.slot x
  if t.cart.isSome ∨ !(t.state = .empty ∨ t.state = .failed) then s
  else match takeCard s card with
  | none => s
  | some (c, shelf) =>
    modSlot x (fun t => { emptySlot t with
      state := .debounce, cart := some c, fallAt := s.now, wasFailed := decide (t.state = .failed) }) { s with shelf := shelf }

/-- Step I2, with PWREN of I3. -/
def debounceEnd (x : Slot) (s : State) : State :=
  let t := s.slot x
  if t.state ≠ .debounce ∨ s.now < t.fallAt + 10 * ms ∨ !s.pw.state.clocked then s
  else sampleField x (raiseSer x cCART_SEATED 0 (modSlot x (fun t => { t with
    state := .powering, present := true, typeCode := 0xF, pwren := true }) s))

/-- The supervisor is ready (R73), and authentication starts (step I4). After R93's 20 ms, PWREN is asserted again first. -/
def supervisorReady (x : Slot) (s : State) : State :=
  let t := s.slot x
  let ready := t.svReady || decide (t.fallAt + 50 * ms ≤ s.now)
  let powered := t.powerAt.elim t.pwren fun c => decide (c ≤ s.now)
  if t.state ≠ .powering ∨ !ready ∨ !powered ∨ !s.pw.state.clocked then s
  else wantSv x 0x0B (modSlot x (fun t => { t with
    svReady := true, pwren := true, powerAt := none, state := .auth, authStart := s.now, authTries := 0 }) s)

/-- Step I5: PWRGD and the link's training (R69, R71, Table 3.2). -/
def linkTraining (x : Slot) (pwrgd : Bool) (width : Nat) (s : State) : State :=
  let t := s.slot x
  if t.state ≠ .training ∨ !(t.link = .train ∨ t.link = .down) ∨ loopBackFirst s x then s
  else if pwrgd ∧ (width = 8 ∨ width = 4) then
    let s := modSlot x (fun t => { t with
      link := .active, width := BitVec.ofNat 4 width, linkUse := s.now, linkDegraded := decide (width = 4)
      insTests := if booting s then [4, 7, 8, 9] else [] }) s
    if width = 4 then
      let s := { s with hl := { s.hl with pfAer := { s.hl.pfAer with corrInternal := true } } }
      raise (uCT x) cCART_LINK_DEGRADED noCtx (lo32 x.num) 4 0 s
    else s
  else slotFailed x s

/-! ### Classing (R81, R82) -/

/-- The binding record's slot of a serial. -/
def recordSlot (d : DuetUnit) (serial : BitVec 64) : Option Slot :=
  if d.inA ∧ d.serialA = serial then some .a else if d.inB ∧ d.serialB = serial then some .b else none

/-- The duet's slots exchanged: a bound cartridge was found in the other slot. -/
def swapSlots (d : DuetUnit) : DuetUnit :=
  { d with
      serialA := d.serialB, serialB := d.serialA, inA := d.inB, inB := d.inA, source := d.source.other, holdB := !d.holdB
      state := if d.state = .soloA then .soloB else if d.state = .soloB then .soloA else d.state }

/-- A cartridge's class (R81), with the tag one generation ahead of R82. -/
def isBound (s : State) (c : Cart) (serial : BitVec 64) : Bool :=
  (recordSlot s.duet serial).isSome && c.header && decide (c.tagEngine = engineId)
    && (decide (c.tagGen = s.duet.gen) || decide (c.tagGen = (s.duet.gen + 1) % 2 ^ 32))

/-- The record is rewritten for a cartridge found in the other slot; during BOOT that waits for its end. -/
def slotMoved (x : Slot) (serial : BitVec 64) (s : State) : State :=
  let s := raiseSer x cCART_SLOT_MOVED serial { s with duet := swapSlots s.duet }
  if s.pw.state = .boot then { s with duet := { s.duet with moved := true } }
  else rebind s.duet.state (modSlot x (fun t => { t with bound := true }) s)

/-- Step I6: save records are restored, and the cartridge is classed and placed (R81, R90, R301). What it writes waits for a field to
clear (R127). -/
def headerClassify (x : Slot) (s : State) : State :=
  let t := s.slot x
  let due := decide (t.state = .training) || (decide (t.state = .failed) && t.kept && !t.bound && !t.foreign)
  match t.cart with
  | none => s
  | some c =>
    let bound := isBound s c t.serial
    let writes := decide (c.saved ≠ []) || (bound && decide (c.tagGen ≠ s.duet.gen))
    if !due ∨ !linkUp t ∨ (writes && inhibited s x) then s
    else
      let s := restoreSaved x s
      let s := if bound && decide (c.tagGen ≠ s.duet.gen) then writeTag x s else s
      let s := if bound && decide (recordSlot s.duet t.serial ≠ some x) then slotMoved x t.serial s else s
      let place : SlotState := if t.state = .failed then .failed else if bound && needed s x then .inService else .spare
      let tests := if booting s then t.insTests else [4, 7, 8, 9]
      (if bound then noteMib x else id) (modSlot x (fun t => { t with
        state := place, bound := bound, foreign := !bound && c.header, insTests := tests, tested := tests.isEmpty }) s)

/-! ### Removal (R92, R93) -/

/-- REST's causes that name a slot are removed with its cartridge (R304). -/
def dropSlotCauses (x : Slot) (s : State) : State :=
  let mine := fun (c : Nat × Bool) => decide (6 ≤ c.1) && decide (c.1 < 16) && decide (testSlot ⟨c.1 % 16, by omega⟩ = some x)
  leaveRest { s with bt := { s.bt with causes := s.bt.causes.filter fun c => !mine c } }

/-- The slot is empty; the cartridge lies outside with its contents, its lamp and its supervisor as they are. A slot that was FAILED
while empty leaves FAILED with a seated cartridge only, not with a bounce of the contacts (R93). -/
def leaveSlot (x : Slot) (s : State) : State :=
  let t := s.slot x
  let s := { s with shelf := s.shelf ++ t.cart.toList }
  let back : SlotState := if t.state = .debounce ∧ t.wasFailed then .failed else .empty
  modSlot x (fun t => { emptySlot t with state := back }) s

/-- Uncharged wear goes to the totals ring against the serial (R92, Table 10.6). -/
def keepSlotWear (x : Slot) (s : State) : State :=
  let t := s.slot x
  if t.identified ∧ t.uncharged ≠ 0 then
    keepWear t.serial t.uncharged (modSlot x (fun t => { t with uncharged := 0 }) s)
  else s

/-- Presence opens (R92, R93). -/
def presenceOpen (x : Slot) (s : State) : State :=
  let t := s.slot x
  if t.cart.isNone then s
  else if t.state = .debounce then leaveSlot x s
  else
    let s := keepSlotWear x (powerOff x s)
    let quiet := decide (t.state = .safeToRemove) || decide (t.state = .authFailed) || (decide (t.state = .failed) && !t.kept)
    let s := modSlot x (fun t => { t with kept := false, state := if t.state = .inService then .releasing else t.state }) s
    let s := if quiet then dropWrites x s else departure x t.serial t.serves s
    let s := inhibitGone x (skipSlot x (leaveSlot x s))
    dropSlotCauses x s

/-! ### Release (R91) -/

/-- RELEASE is accepted (Table 3.8, R91): the cartridge is SPARE, and no format or copy has begun on it. -/
def releaseOk (s : State) (x : Slot) : Bool :=
  decide ((s.slot x).state = .spare) && match s.duet.format with
    | some (.copy d _) => decide (d ≠ x)
    | some (.solo d) => decide (d ≠ x)
    | some .span => false
    | none => true

/-- The final commands are answered, or the supervisor is faulted (R91, Corners). -/
def finalDone (t : CtSlot) : Bool :=
  t.svFault || (t.outstanding.isNone && !t.svDue.any fun o => decide (o.toNat = 4 ∨ o.toNat = 6 ∨ o.toNat = 11))

/-- Steps 4 and 5 of R91. -/
def releaseComplete (x : Slot) (s : State) : State :=
  let t := s.slot x
  if t.state ≠ .releasing ∨ t.cart.isNone ∨ !slotClean s x ∨ !finalDone t then s
  else
    let s := modSv x (fun v => { v with lamp := 1 }) (powerOff x (modSlot x (fun t => { t with state := .safeToRemove }) s))
    raiseSer x cCART_SAFE t.serial (keepSlotWear x s)

/-! ### REAUTH (R79, R93) -/

/-- REAUTH is accepted on a SPARE, AUTH_FAILED or seated FAILED slot (Table 3.9); a format of a SPARE cartridge waits for its
authentication (log 122). -/
def reauthOk (s : State) (x : Slot) : Bool :=
  let t := s.slot x
  t.cart.isSome && (decide (t.state = .spare) || decide (t.state = .authFailed) || decide (t.state = .failed))

/-- REAUTH: from step I4, or from step I3 after 20 ms without PWREN for a FAILED slot. A WEAR_CHARGE that stands unanswered is
dropped with the other requests, and the whole uncharged amount is charged again, as a new request (DESIGN CHOICE, log 141). -/
def reauth (x : Slot) (s : State) : State :=
  let t := s.slot x
  let s := skipSlot x (keepSlotWear x s)
  let fresh := fun (t : CtSlot) => { t with
    link := .down, width := 0, typeCode := 0xF, identified := false, bound := false, foreign := false, kept := false
    outstanding := none, svDue := [], authTries := 0, authStart := s.now, failedRetrains := [], linkDegraded := false }
  if t.state = .failed then
    modSlot x (fun t => { fresh t with state := .powering, powerAt := some (s.now + 20 * ms) }) (powerOff x s)
  else modSlot x (fun t => { fresh t with state := .auth }) s

/-! ### The media link (R69, R70) -/

/-- A flit with an LCRC error (R70). -/
def flitError (x : Slot) (s : State) : State :=
  let t := s.slot x
  if !(t.link = .active ∨ t.link = .idle) then s
  else if t.flitFails < 4 then modSlot x (fun t => { t with flitFails := t.flitFails + 1, replays := t.replays + 1 }) s
  else modSlot x (fun t => { t with flitFails := 0, link := .retrain, retrains := t.retrains + 1 }) s

/-- An ACTIVE link without traffic for 10 000 cycles (Table 3.2). -/
def linkIdle (x : Slot) (s : State) : State :=
  let t := s.slot x
  if t.link = .active ∧ t.linkUse + 10000 ≤ s.now then modSlot x (fun t => { t with link := .idle }) s else s

/-- A retrain ends: three that fail within 1 s make the slot FAILED, which keeps PWREN on and SLOT_x_TYPE shown until a removal or
REAUTH (R70; DEDUCED, log 142). A link that a failed retrain left DOWN is retrained again. -/
def retrainEnd (x : Slot) (up : Bool) (s : State) : State :=
  let t := s.slot x
  let again := decide (t.link = .down) && t.serves && decide (t.failedRetrains ≠ [])
  if !(t.link = .retrain ∨ again) then s
  else
    let s := if again then modSlot x (fun t => { t with retrains := t.retrains + 1 }) s else s
    if up then
      modSlot x (fun t => { t with
        link := .active, width := if t.linkDegraded then 4 else 8, linkUse := s.now, flitFails := 0 }) s
    else
      let fails := (t.failedRetrains.filter fun c => decide (s.now < c + sec)) ++ [s.now]
      let s := modSlot x (fun t => { t with link := .down, width := 0, failedRetrains := fails }) s
      if 3 ≤ fails.length then
        let s := modSlot x (fun t => { t with state := .failed, kept := false, insTests := [] }) s
        departure x t.serial t.serves (inhibitGone x s)
      else s

/-- SV_SOFT held for 100 ms (R262). -/
def softTimeout (x : Slot) (s : State) : State :=
  let t := s.slot x
  if t.svSoft ∧ t.softSince + 100 * ms ≤ s.now ∧ s.sp1.txn.isNone then
    raise (uCT x) cSV_SOFT_TIMEOUT noCtx (lo32 x.num) 0 0 (modSlot x (fun t => { t with svSoft := false }) s)
  else s

/-! ### Commands -/

/-- R90: presence falls. -/
def execPrsntNFall (slot : Slot) (card : Card) (s : State) : Host.Outcome State Fault Refusal := act (presenceFall slot card) s

/-- R90: step I2. -/
def execDebounceEnd (slot : Slot) (s : State) : Host.Outcome State Fault Refusal := act (debounceEnd slot) s

/-- R73: the supervisor is ready. -/
def execSupervisorReady (slot : Slot) (s : State) : Host.Outcome State Fault Refusal := act (supervisorReady slot) s

/-- R69: step I5. -/
def execLinkTraining (slot : Slot) (pwrgd : Bool) (width : Fin 9) (s : State) : Host.Outcome State Fault Refusal :=
  act (linkTraining slot pwrgd width.val) s

/-- R81: step I6. -/
def execHeaderClassify (slot : Slot) (s : State) : Host.Outcome State Fault Refusal := act (headerClassify slot) s

/-- R92: presence opens. -/
def execPrsntNOpen (slot : Slot) (s : State) : Host.Outcome State Fault Refusal := act (presenceOpen slot) s

/-- R91: a release ends. -/
def execReleaseComplete (slot : Slot) (s : State) : Host.Outcome State Fault Refusal := act (releaseComplete slot) s

/-- R262: the engine takes the select back. -/
def execSvSoftTimeout (slot : Slot) (s : State) : Host.Outcome State Fault Refusal := act (softTimeout slot) s

/-- R70: a flit error. -/
def execFlitLcrcError (slot : Slot) (s : State) : Host.Outcome State Fault Refusal := act (flitError slot) s

/-- R69: a link idles. -/
def execLinkIdleTimeout (slot : Slot) (s : State) : Host.Outcome State Fault Refusal := act (linkIdle slot) s

/-- R69: a retrain ends. -/
def execRetrainEnd (slot : Slot) (up : Bool) (s : State) : Host.Outcome State Fault Refusal := act (retrainEnd slot up) s

/-- R388: a format ends. -/
def execFormatDone (s : State) (failed : List (Nat × Tries) := []) : Host.Outcome State Fault Refusal := act (formatDone failed) s

end Sys2Proof.Machine
end

