-- ==== Sys2Proof/Machine/Field.lean ====
section
/-! DEFINITION. Write-back and line-write events, rewrites, gap moves, scrub, and the magnetic field (R25, R30, R105–R112, R117,
R121–R130). -/

namespace Sys2Proof.Machine

/-! ### Rewrites (R117) -/

/-- A write-back tag taken for an operation that is over in its cycle. -/
def touchTag (s : State) : State :=
  let t := newTag s .wbk provider
  dropTag t.id (takeTag .wbk provider s)

/-- The engine's own reads and writes reach the cartridge: it serves, or is a SPARE one whose background read runs (R88). -/
def reached (s : State) (x : Slot) : Bool :=
  (s.slot x).serves || ((s.slot x).cart.isSome && decide ((s.slot x).state = .spare) && (s.slot x).exposed)

/-- The slot takes engine writes now: it is not inhibited or re-verifying, its link carries requests, and its bank is free. -/
def takesWrite (s : State) (x : Slot) (cline : Nat) : Bool :=
  reached s x && !inhibited s x && !reverifying s x && bankFree s x (bankOf cline) && linkReady s x && writesRun s

/-- The first queued rewrite of a kind that can be issued. -/
def nextRewrite (s : State) (poison : Bool) : Option Rewrite :=
  s.md.rewrites.find? fun r => decide (r.poison = poison) && takesWrite s r.slot r.cline && decide (s.pw.state ≠ .rest)

/-- A rewrite reads the line again and acts on that reading (R117, R133). -/
def rewriteLine (poison : Bool) (e : Sense) (w : Tries) (s : State) : State :=
  match nextRewrite s poison with
  | none => s
  | some r =>
    if !tagFree s .wbk provider then s
    else
      let x := r.slot
      let s := touchTag { s with md := { s.md with rewrites := s.md.rewrites.erase r } }
      let l := lineOn s x r.cline
      let pz := injPoison s x r.cline
      let e := injected s x r.cline e
      let s := touchBank x r.cline (disarmRead x r.cline s)
      match readLineCells l e with
      | .good n wrong =>
        if n = 0 ∨ n < s.md.rewrite then s
        else
          let (s, r') := engineLine uMD x r.cline .lento w s
          let l := l.seen wrong
          if r'.ok then writeLine x r.cline { l with poison := l.poison || pz } s else s
      | .bad _ => poisonLine x r.cline (l.poisoned (l.err ^^^ e.again)) w s

/-! ### Gap moves (R121, R122) -/

/-- The bank's levels after its next gap move, with the physical lines it copies from and to. -/
def nextLevel (c : Cart) (bank : Nat) : (Nat × Nat) × Nat × Nat :=
  let (start, gap) := bankLevel c bank
  let n := bankLines c.big
  if gap = 0 then (((start + 1) % n, n), n, 0) else ((start, gap - 1), gap - 1, gap)

/-- START and GAP of a bank recorded. -/
def setLevel (bank : Nat) (v : Nat × Nat) (c : Cart) : Cart :=
  { c with levels := (c.levels.filter fun e => decide (e.1 ≠ bank)) ++ [(bank, v)] }

/-- The record of a gap move at lento in the header; where it passes, the move takes effect. -/
def recordMove (x : Slot) (bank : Nat) (level : Nat × Nat) (w : Tries) (s : State) : State × Bool :=
  let line := (s.slot x).cart.elim 0 fun c => levelLine c.big bank
  let (s, r) := engineLine uMD x line .lento w s
  if r.ok then (modCart x (setLevel bank level) s, true) else (s, false)

/-- A gap move whose copy failed does not take effect (R112). -/
def moveFailed (x : Slot) (cline : Nat) (tempo : Tempo) (tried : Bool) (s : State) : State :=
  mediaEvent (mediaLine s x cline * 64) cPWF (enginePwf uMD x cline tempo tried s)

/-- The line that a gap move copies, as its read finds it: of an uncorrectable line the raw data with POISON = 1 (R122, R133). -/
def movedLine (s : State) (x : Slot) (cl : Nat) (e : Sense) : State × StoredLine :=
  let l := lineOn s x cl
  let pz := injPoison s x cl
  let again := (injected s x cl e).again
  match senseLine x cl provider 0 e s with
  | (s, .good _ w) => (s, { l.seen w with poison := (l.seen w).poison || pz })
  | (s, .bad _) => (s, l.poisoned (l.err ^^^ again))

/-- One gap move of a bank whose count has reached PERIOD: the copy at the line's tempo, then its record at lento. The count
is carried on with the writes of the move that pass. -/
def gapMove (x : Slot) (bank : Fin 128) (e : Sense) (w : Tries) (s : State) : State :=
  let i := bankNo x bank
  match (s.slot x).cart with
  | none => s
  | some c =>
    if s.md.gapCount[i] < s.md.wlPeriod ∨ !takesWrite s x bank.val ∨ !tagFree s .wbk provider then s
    else
      let (level, src, dst) := nextLevel c bank.val
      let s := touchTag { s with md := { s.md with gapCount := modAt s.md.gapCount i (fun n => n - s.md.wlPeriod) } }
      match logicalLine c bank.val src with
      | none => (recordMove x bank.val level w s).1
      | some cl =>
        let old := lineOn s x cl
        let (s, l) := movedLine s x cl e
        let tempo := if l.tempo = 0 then .moderato else tempoOf l.tempo
        let (s, r) := wholeWrite x cl dst w (engineWrites x tempo 1 s)
        if !r.ok then moveFailed x cl tempo r.tried s
        else
          let (s, done) := recordMove x bank.val level r.rest s
          if done && (decide (l ≠ old) || injNames s x cl) then writeLine x cl l s else s

/-! ### Scrub (R125) -/

/-- The scrub position of a slot. -/
def scrubPos (s : State) : Slot → Nat
  | .a => s.md.scrubA
  | .b => s.md.scrubB

def setScrub (x : Slot) (n : Nat) (s : State) : State :=
  match x with
  | .a => { s with md := { s.md with scrubA := n } }
  | .b => { s with md := { s.md with scrubB := n } }

/-- Lines that a pass reads in a bank: its gap region and its recorded spares. -/
def sweepLen (c : Cart) (bank : Nat) : Nat := bankLines c.big + 1 + sparesUsed c bank

/-- Lines of a whole pass. -/
def sweepTotal (c : Cart) : Nat := total (sweepLen c) (List.range 128)

/-- The bank of a pass's n-th line, and the line's place in the bank's sweep. -/
def sweepAt (c : Cart) : Nat → Nat → Nat → Nat × Nat
  | 0, bank, n => (bank, n)
  | k + 1, bank, n => if n < sweepLen c bank then (bank, n) else sweepAt c k (bank + 1) (n - sweepLen c bank)

/-- The logical line that a place of a bank's sweep serves: none of a gap, of a physical line that is relocated, and of a retired
spare. -/
def sweepLine (c : Cart) (bank j : Nat) : Option Nat :=
  let n := bankLines c.big
  let mine := c.relocs.filter fun r => decide (r.bank = bank)
  if j ≤ n then
    if mine.any fun r => decide (r.pline = j) && !r.retired then none else logicalLine c bank j
  else match mine.find? fun r => decide (r.spare = j - (n + 1)) with
    | some r => if r.retired then none else logicalLine c bank r.pline
    | none => none

/-- A line that serves no address is read: it holds no data, and its errors are counted for the provider (R117, R125; log 68). -/
def senseIdle (x : Slot) (bank : Nat) (e : Sense) (s : State) : State :=
  let s := touchBank x bank s
  match readLineCells {} e with
  | .good n _ => if n = 0 then s else count provider addCorr { s with md := { s.md with errCorr := s.md.errCorr + 1 } }
  | .bad _ => count provider addHard { s with md := { s.md with errUncorr := s.md.errUncorr + 1 } }

/-- Scrub reads in the engine's state (Tables 11.3, 12.1). -/
def scrubRuns (s : State) : Bool :=
  s.pw.state.clocked && s.pc.drain.isNone && !booting s && !s.md.scrubPause && !(decide (s.pw.state = .rest) && restHeld s)

/-- The next line of a slot is scrubbed: read for the provider, unless it has a dirty slot. The last line ends the pass. -/
def scrubNext (x : Slot) (c : Cart) (e : Sense) (s : State) : State :=
  let n := scrubPos s x
  let (bank, j) := sweepAt c 128 0 n
  let s := match sweepLine c bank j with
    | none => senseIdle x bank e s
    | some cl => if (dirtyOf s (mediaLine s x cl)).isSome then s else (senseLine x cl provider 0 e s).1
  let whole := sweepTotal c
  let s := { s with md := { s.md with scrubActive := true, progress := BitVec.ofNat 16 ((n + 1) * 65536 / whole) } }
  if n + 1 < whole then setScrub x (n + 1) s
  else
    let other := decide (scrubPos s x.other ≠ 0) && (s.slot x.other).serves
    setScrub x 0 { s with md := { s.md with passes := s.md.passes + 1, progress := 0, scrubActive := other } }

/-- The next user line of an exposed cartridge's background read (R88); SCRUB_PAUSE is not for it. -/
def exposedNext (x : Slot) (c : Cart) (n : Nat) (e : Sense) (s : State) : State :=
  let s := if (s.slot x).serves && (dirtyOf s (mediaLine s x n)).isSome then s else (senseLine x n provider 0 e s).1
  modSlot x (fun t => { t with expoLine := if n + 1 < userLines c.big then some (n + 1) else none }) s

/-- A read at the lowest bank weight: of an exposed cartridge's background read, else of the scrub; it waits for its bank and its
link (R88, R105, R125). -/
def scrub (x : Slot) (e : Sense) (s : State) : State :=
  match (s.slot x).cart with
  | none => s
  | some c =>
    if !s.pw.state.clocked ∨ s.pc.drain.isSome ∨ booting s ∨ !linkReady s x then s
    else match (s.slot x).expoLine with
    | some n => if reached s x && !bankHeld s x (bankOf n) then exposedNext x c n e s else s
    | none =>
      let bank : Fin 128 := bankOf (sweepAt c 128 0 (scrubPos s x)).1
      if !(s.slot x).serves ∨ !scrubRuns s ∨ bankHeld s x bank then s else scrubNext x c e s

/-- A full scrub pass of one slot begins (R125). -/
def scrubSlot (x : Slot) (s : State) : State := setScrub x 0 { s with md := { s.md with scrubActive := true } }

/-- SCRUB_NOW: a full pass of every cartridge in service starts (Table 4.13). -/
def scrubNow (s : State) : State := (serving s).foldl (fun s x => scrubSlot x s) s

/-! ### The field (R126–R130, R64) -/

/-- A slot in service whose inhibit is registered. -/
def heldSlots (s : State) : List Slot := bothSlots.filter fun x => (s.slot x).serves && inhibited s x

/-- The strongest field now at the inhibited slots, in 0.1 mT. -/
def fieldNow (s : State) : Nat :=
  greatest (fun x => (s.slot x).cart.elim 0 fun c => c.sv.field.toNat) (bothSlots.filter fun x => inhibited s x)

/-- FLDINH_N's fall is registered (R127, R128). -/
def inhibit (x : Slot) (s : State) : State := registerInhibit x s.now (modSlot x (fun t => { t with fldLow := true }) s)

/-- The inhibit of a slot is no longer registered; its length is kept (Table 4.20). -/
def endInhibit (x : Slot) (msec : Nat) (s : State) : State :=
  match x with
  | .a => { s with md := { s.md with inhA := none, longestA := max s.md.longestA msec } }
  | .b => { s with md := { s.md with inhB := none, longestB := max s.md.longestB msec } }

/-- The coils' own inhibit is not logged, unless a stronger field appeared (R294, chapter 11, Corners). -/
def coilOnly (s : State) (x : Slot) (peak : BitVec 16) : Bool := decide (s.md.coil = some x) && decide (peak.toNat ≤ 44)

/-- FLDINH_N's rise is registered (R129, R130); a change of the binding record that waited for it is made. -/
def clearInhibit (x : Slot) (peak : BitVec 16) (s : State) : State :=
  let s := modSlot x (fun t => { t with fldLow := false }) s
  match inhibitedAt s x with
  | none => s
  | some since =>
    let msec := (s.now - since) / ms
    let served := (s.slot x).serves
    let coil := coilOnly s x peak
    let s := endInhibit x msec s
    let s := if coil then s else raise uMD cFIELD_INHIBIT noCtx (lo32 x.num) (lo32 msec) (peak.setWidth 32) s
    let s := if served && (heldSlots s).isEmpty then pulseLine 6 1 s else s
    settleBind (if s.pw.state = .fieldHold ∧ (heldSlots s).isEmpty then goState (activeOrQuiet s) 0 s else s)

/-- The cycle of the first registration among the inhibited slots in service. -/
def firstInhibit (s : State) : Nat := least ((heldSlots s).filterMap fun x => inhibitedAt s x)

/-- FIELD (Table 13.3). -/
def logField (flags : BitVec 4) (s : State) : State :=
  let m := total (fun x => 2 ^ x.num) (heldSlots s)
  raiseF uMD cFIELD noCtx flags (lo32 m) (lo32 ((s.now - firstInhibit s) / ms)) (lo32 (fieldNow s))
    { s with md := { s.md with lastField := s.now } }

/-- An inhibit of a slot in service has lasted 50 ms (R130). -/
def fieldHold (s : State) : State :=
  let long := (heldSlots s).any fun x => (inhibitedAt s x).elim false fun c => decide (c + 50 * ms ≤ s.now)
  if (s.pw.state = .active ∨ s.pw.state = .quiet) ∧ long ∧ s.pc.drain.isNone then
    logField 0 (dropArm (goState .fieldHold cFIELD s))
  else s

/-- FIELD_HOLD persists: FIELD every 60 s, and GL_STALL.FIELD_PERSIST (Table 2.9, row 4). -/
def fieldRepeat (s : State) : State :=
  if s.pw.state = .fieldHold ∧ s.md.lastField + 60 * sec ≤ s.now then
    logField 1 { s with gl := { s.gl with stall := { s.gl.stall with fieldPersist := true } } }
  else s

/-! ### Energy (R30, R293) -/

/-- The live energy is computed again, but not while a HOLDUP step distorts VHOLD (R293). -/
def recomputeLive (v : BitVec 16) (s : State) : State :=
  if !s.pw.state.clocked || s.bt.running.any (fun i => decide (i = 2)) then s else recompute v s

/-- WRITEBACK_ALL ends when no slot is dirty (R45). -/
def backAll (s : State) : State :=
  if s.pc.slots.isEmpty then { s with pc := { s.pc with writebackAll := false } } else s

/-! ### Commands -/

/-- R30: the live energy. -/
def execEnergyRecompute (vhold10mv : BitVec 16) (s : State) : Host.Outcome State Fault Refusal := act (recomputeLive vhold10mv) s

/-- R109: a pulse. -/
def execLineWrite (slot : Slot) (bank : Fin 128) (s : State) : Host.Outcome State Fault Refusal := act (pulse slot bank) s

/-- R109: the sense of a try returns. -/
def execTrySenseResult (slot : Slot) (bank : Fin 128) (differ : Nat) (next : Option (Fin 8)) (rest : Tries) (s : State) :
    Host.Outcome State Fault Refusal :=
  act (fun s => backAll (senseResult slot bank differ (next :: rest) s)) s

/-- R117: a correction rewrite. -/
def execCorrectionRewrite (sense : Sense) (s : State) (writes : Tries := []) : Host.Outcome State Fault Refusal :=
  act (rewriteLine false sense writes) s

/-- R117: a poison rewrite. -/
def execPoisonRewrite (sense : Sense) (s : State) (writes : Tries := []) : Host.Outcome State Fault Refusal :=
  act (rewriteLine true sense writes) s

/-- R122: a gap move. -/
def execGapMove (slot : Slot) (bank : Fin 128) (sense : Sense) (first second : Option (Fin 8)) (rest : Tries) (s : State) :
    Host.Outcome State Fault Refusal :=
  act (gapMove slot bank sense (first :: second :: rest)) s

/-- R125: scrub. -/
def execScrub (slot : Slot) (sense : Sense) (s : State) : Host.Outcome State Fault Refusal := act (scrub slot sense) s

/-- R127: the write inhibit. -/
def execWriteInhibit (slot : Slot) (s : State) : Host.Outcome State Fault Refusal := act (inhibit slot) s

/-- R129: the clear. -/
def execInhibitClear (slot : Slot) (peak : BitVec 16) (s : State) : Host.Outcome State Fault Refusal := act (clearInhibit slot peak) s

/-- R130: FIELD_HOLD. -/
def execFieldHoldEntry (s : State) : Host.Outcome State Fault Refusal := act fieldHold s

/-- R64: FIELD repeats. -/
def execFieldRepeat (s : State) : Host.Outcome State Fault Refusal := act fieldRepeat s

end Sys2Proof.Machine
end

