-- ==== Sys2Proof/Machine/Trace.lean ====
section
/-! DEFINITION. The spill of the trace to the cartridges, and the search for its end after a start (R353, R354, R334). -/

namespace Sys2Proof.Machine

/-- The lines of the trace area that the next trace line goes to: on every cartridge in service, and on a copy's destination once the
line is copied (R353). -/
def spillHomes (s : State) : List (Slot × Nat) :=
  let home := fun x => (x, (s.slot x).cart.elim 0 fun c => traceBase c.big + s.ev.spillSeq % 65536)
  let both := (serving s).map home
  match s.duet.state with
  | .mirrorResync | .migrateCopy => both.filter fun h => decide (h.1 = s.duet.source) || !uncopied s (home s.duet.source).2
  | _ => both

/-- Those that take it now: their cartridges are not inhibited (R354). -/
def spillTo (s : State) : List (Slot × Nat) := (spillHomes s).filter fun h => !inhibited s h.1

/-- Spilling waits (EV_STATUS.SPILL_WAIT). -/
def spillWaits (s : State) : Bool := (spillTo s).isEmpty || (decide (s.pw.state = .rest) && restHeld s)

/-- The bytes of a trace entry (Table 13.6). -/
def trBytes (e : TrEntry) : List Byte := (List.range 4).flatMap fun k => wordBytes (trWord e k)

/-- A trace line: its header with the CRC over bytes 0–11 and 16–63, and three entries (R353). -/
def traceLine (seq boot : Nat) (entries : List TrEntry) : Line :=
  let head := leBytes 4 seq ++ leBytes 4 boot ++ zeros 4
  let body := entries.flatMap trBytes
  lineOf (head ++ leBytes 4 (crc32 (head ++ body)) ++ body)

/-- The SPILL_SEQ of a trace-area line that is valid. -/
def spillSeqOf (l : Line) : Option Nat :=
  let b := lineBytes l
  if ofLe ((b.drop 12).take 4) = crc32 (b.take 12 ++ b.drop 16) then some (ofLe (b.take 4)) else none

/-- The newest of two sequence numbers. -/
def newestSeq (m : Option Nat) (n : Nat) : Option Nat :=
  match m with
  | none => some n
  | some k => if newer n k then some n else some k

/-- The search for the newest valid line ends, and spilling resumes after it (R353). -/
def traceSearch (s : State) : State :=
  let area := (serving s).findSome? fun x => (s.slot x).cart.map fun c => c.trace
  let found := (area.getD []).foldl (fun m e => match spillSeqOf e.2 with
    | some n => newestSeq m n
    | none => m) none
  { s with ev := { s.ev with traceScan := false, spillSeq := (found.elim 0 fun n => n + 1) % 2 ^ 32 } }

/-- A trace line is written to the trace area of one cartridge after the other, at moderato (R112, R353). -/
def putTrace (seq : Nat) (l : Line) : List (Slot × Nat) → Tries → State → State
  | [], _, s => s
  | (x, cl) :: rest, w, s =>
    let (s, r) := engineLine uEV x cl .moderato w (touchBank x cl s)
    let key := seq % 65536
    let s := if r.ok then reservedPassed x cl l (modCart x (fun c => { c with trace := insertKey key l c.trace }) s)
      else modCart x (fun c => { c with trace := dropKey key c.trace }) s
    putTrace seq l rest r.rest s

/-- One line is written to every cartridge that takes it. -/
def spillLine (entries : List TrEntry) (w : Tries) (s : State) : State :=
  let seq := s.ev.spillSeq
  let l := traceLine seq s.ks.bootCount.toNat entries
  let t := newTag s .int provider
  let s := putTrace seq l (spillTo s) w (dropTag t.id (takeTag .int provider s))
  { s with ev := { s.ev with spillSeq := (seq + 1) % 2 ^ 32 } }

/-- Entries lost while spilling waited come first: a TRACE_LOST entry and its event (R354). -/
def spillLoss (s : State) : State :=
  if s.ev.spillLost = 0 then s
  else
    let n := s.ev.spillLost
    let e : TrEntry := ⟨s.now, 0x0B, 0, lo32 n, 0⟩
    raise uEV cTRACE_LOST noCtx (lo32 n) 0 0 { s with ev := { s.ev with
      spillLost := 0, unspilled := e :: s.ev.unspilled.drop (s.ev.unspilled.length - 4095), trace := lastN 4096 (s.ev.trace ++ [e])
      trPos := (s.ev.trPos + 1) % 4096 } }

/-- Three unspilled entries become a line (R353), once the banks it goes to are free and their links carry requests. -/
def traceSpill (w : Tries) (s : State) : State :=
  if booting s ∨ !s.pw.state.clocked ∨ s.pc.drain.isSome ∨ !s.ev.logOpen then s
  else if s.ev.traceScan then traceSearch s
  else if spillWaits s || !tagFree s .int provider || !(spillTo s).all (ringReady s) then s
  else
    let s := spillLoss s
    if s.ev.unspilled.length < 3 then s
    else
      let e := s.ev.unspilled.take 3
      spillLine e w { s with ev := { s.ev with unspilled := s.ev.unspilled.drop 3 } }

/-- An EMPTY entry (Table 13.7). -/
def emptyEntry : TrEntry := ⟨0, 0, 0, 0, 0⟩

/-- The lines that the unspilled entries fill, the last completed with EMPTY entries (Table 12.6, H3). -/
def spillRest : Nat → State → State
  | 0, s => s
  | n + 1, s =>
    if s.ev.unspilled.isEmpty then s
    else
      let e := (s.ev.unspilled ++ [emptyEntry, emptyEntry]).take 3
      spillRest n (spillLine e [] { s with ev := { s.ev with unspilled := s.ev.unspilled.drop 3 } })

/-- The whole trace SRAM is spilled (Table 12.6, H3). -/
def spillAll (s : State) : State :=
  if spillWaits s then s
  else
    let s := spillLoss (if s.ev.traceScan then traceSearch s else s)
    spillRest (s.ev.unspilled.length + 1) s

end Sys2Proof.Machine
end

