-- ==== Sys2Proof/Machine/Power.lean ====
section
/-! DEFINITION. Power, start-up, replay, low power and wake (chapters 12, 01; R366, R370, R374). -/

namespace Sys2Proof.Machine

/-! ### Start (R314, R327) -/

/-- Elapsed ledger ticks of the low-power interval (R334). -/
def ticksSince (s : State) : Nat :=
  match s.pw.lpEnter, s.lg.retention with
  | some e, _ => (s.lg.lgt - e.1) / tick1
  | none, some h => (s.lg.lgt - h.lgt) / tick1
  | none, none => 0

/-- A slot at cycle 0: a seated cartridge starts its debounce; its supervisor has been ready on VAUX (R327, log 21). -/
def startSlot (t : CtSlot) (card : Option Cart) : CtSlot :=
  let c := t.cart <|> card
  { cart := c, state := if c.isSome then .debounce else .empty, svReady := c.isSome, toggle := t.toggle, fldLow := t.fldLow }

/-- A card offered for a slot at the start. -/
def offered (s : State) (card : Option Card) (taken : Bool) : Option Cart × List Cart :=
  if taken then (none, s.shelf)
  else match card.bind fun c => takeCard s c with
  | some (c, shelf) => (some c, shelf)
  | none => (none, s.shelf)

/-- Cycle 0 of a start: every unit at its reset values, with what the keep store, the fuses, the island, the cartridges and
the host's link partner outside keep. A FLDINH_N that is low then registers in cycle 1 (R130). -/
def newStart (hlsel : Bool) (cardA cardB : Option Card) (cause : BitVec 4) (s : State) : State :=
  let (ca, shelf) := offered s cardA s.ct.a.cart.isSome
  let s := { s with shelf := shelf }
  let (cb, shelf) := offered s cardB s.ct.b.cart.isSome
  let n : State :=
    { gl := { strapCxl := hlsel }
      ct := { a := startSlot s.ct.a ca, b := startSlot s.ct.b cb }
      lg := { lgt := s.lg.lgt, disc := s.lg.disc, retention := s.lg.retention, islandLost := s.lg.islandLost }
      ks := { mem := s.ks.mem, weak := s.ks.weak, damaged := s.ks.damaged, late := s.ks.late }
      bt := { fuses := s.bt.fuses }
      pw := { wakeCause := cause, fromVbat := s.pw.fromVbat, vbat := s.pw.vbat, vbatLow := s.pw.vbatLow, vbat10mv := s.pw.vbat10mv
              thermTrip := s.pw.thermTrip, tj := s.pw.tj, lpTicks := ticksSince s, lpUnknown := s.lg.islandLost
              planned := s.pw.planned, lpEnter := s.pw.lpEnter, gpioIn := s.pw.gpioIn }
      shelf := shelf, freeCtr := s.freeCtr, out := s.out, pending := s.pending }
  let n := sampleField .b (sampleField .a (trace 0x02 3 (lo32 s.pw.state.code) 0 n))
  if s.pw.vbatLow then raise uPW cVBAT_LOW noCtx (s.pw.vbat10mv.setWidth 32) 0 0 n else n

/-- A PERST_N release (R314): from OFF and HIBERNATE, with main power and lock. Its cause is the wake that raised CORE_ON,
or code 1 (Table 12.5). -/
def perstRelease (hlsel : Bool) (cardA cardB : Option Card) (s : State) : State :=
  match s.pw.state with
  | .off | .hibernate =>
    if !s.pw.mainPower || !s.gl.refOk then { s with pw := { s.pw with perstLow := false } }
    else newStart hlsel cardA cardB (if s.pw.coreOn then s.pw.wakeCause else if s.pw.state = .off then 0 else 1) s
  | _ => { s with pw := { s.pw with perstLow := false } }

/-! ### Events that end service (R31, R310, R326, Table 12.7) -/

/-- Scan is left without a further drain (R310). -/
def leaveScan (s : State) : State := powerDown { s with bt := { s.bt with scan := false, run := 0 } }

/-- The minute of LGT after a low-power interval (R175), with a SLEEP marker: type 1 STANDBY, 2 HIBERNATE. -/
def sleepMarker (entered : Nat) (type : Nat) (s : State) (minute : Nat) : Line :=
  markerRecord minute 3 s.lg.epoch (lgtMs entered) (lgtMs s.lg.lgt) type 0 0

/-- STANDBY ends (R322): the reference is present but for a PFAIL_N fall, CORE_CLK runs, LP_EXIT is the first trace entry, FLDINH_N
is sampled again (R130), and the ledger goes on (R175, R334). -/
def leaveStandby (code : BitVec 4) (s : State) : State :=
  let entered := s.pw.lpEnter.elim s.lg.lgt fun e => e.1
  let s := { s with
    pw := { s.pw with wakeCause := code, lpTicks := ticksSince s, lpEnter := none }
    gl := { s.gl with refOk := s.gl.refOk || decide (code ≠ 7) } }
  let ticks := s.pw.lpTicks % 2 ^ 48
  let s := traceRaw ⟨s.now, 0x08, 0, lo32 ticks, put (ticks / 2 ^ 32) 0 ||| put code.toNat 16⟩ s
  let s := sampleField .b (sampleField .a (goState s.pw.standbyFrom 0 s))
  resumeMinute 0x08 (fun m => [markerUnit m (sleepMarker entered 1 s m)]) s

/-- PFAIL_N falls. -/
def pfail (s : State) : State :=
  let s := { s with pw := { s.pw with mainPower := false } }
  match s.pw.state with
  | .off => s
  | .hibernate =>
    if s.pw.vbat then { s with pw := { s.pw with fromVbat := true, coreOn := false } }
    else { s with pw := { s.pw with state := .off, coreOn := false }, lg := { s.lg with islandLost := true } }
  | .standby => startDrain 0 (leaveStandby 7 { s with gl := { s.gl with holdover := !s.gl.refOk } })
  | _ => if s.bt.scan then leaveScan s else startDrain 0 s

/-- HL_RESET with its trace entry (R240, Table 13.7). -/
def logReset (type fn : Nat) (s : State) : State :=
  raise uHL cHL_RESET noCtx (lo32 type) (lo32 fn) 0 (trace 0x05 (BitVec.ofNat 8 type) (lo32 fn) 0 s)

/-- PERST_N is asserted, or counts as asserted (R240, R314). -/
def perstAssert (s : State) : State :=
  match s.pw.state with
  | .off | .hibernate => s
  | .standby => startDrain 1 (logReset 1 0 (leaveStandby 8 s))
  | _ => if s.bt.scan then leaveScan s else if s.pc.drain.isSome then s else startDrain 1 (logReset 1 0 s)

/-- Loss of reference lock (R326): CLK_LOST, and the drain runs in holdover. -/
def lockLost (s : State) : State :=
  if !s.pw.state.clocked then { s with gl := { s.gl with refOk := false } }
  else
    let s := { s with gl := { s.gl with refOk := false, lock := false, holdover := true } }
    if s.bt.scan then leaveScan s
    else if s.pc.drain.isSome then s
    else startDrain 2 (raise uGL cCLK_LOST noCtx 0 0 0 s)

/-- The reference returns: after a clock-loss drain the engine starts from BOOT (R326). -/
def lockBack (s : State) : State :=
  let was := s.gl.lock
  let s := { s with gl := { s.gl with refOk := true } }
  if s.pw.state = .hibernate ∧ was = false ∧ s.pw.mainPower ∧ s.pw.perstLow = false then
    newStart s.gl.strapCxl none none s.pw.wakeCause s
  else if s.pw.state.clocked then { s with gl := { s.gl with lock := true, holdover := false } }
  else s

/-- A thermal trip (R374): a drain on main power, and THERM_TRIP. -/
def tripped (tj : BitVec 8) (s : State) : State :=
  let s := { s with pw := { s.pw with tj := tj, tjPeak := if s.pw.tjPeak.toNat < tj.toNat then tj else s.pw.tjPeak } }
  if tj.toNat < 125 ∨ 128 ≤ tj.toNat ∨ !s.pw.state.clocked then s
  else
    let s := { s with pw := { s.pw with thermTrip := true, tripWake := true } }
    if s.bt.scan then leaveScan s else startDrain 3 s

/-- The drain in progress ends; a PFAIL_N that rose again meanwhile wakes the engine at once (R33, R325). -/
def drainEnds (fails : List (Slot × Fin 128)) (damaged : List Nat) (s : State) : State :=
  match s.pc.drain with
  | none => s
  | some d =>
    let s := endDrain fails damaged s
    if d.cause = 0 ∧ s.pw.state = .hibernate ∧ s.pw.mainPower then
      { s with pw := { s.pw with coreOn := true, wakeCause := 2, wakeN := !s.pw.perstLow } }
    else s

/-! ### Wake (R313, R322, R325, R366, R374) -/

/-- A HIBERNATE engine wakes while main power is present. -/
def wakeUp (code : BitVec 4) (s : State) : State :=
  if s.pw.state = .hibernate ∧ s.pw.mainPower ∧ s.pw.coreOn = false then
    { s with pw := { s.pw with coreOn := true, wakeCause := code, wakeN := !s.pw.perstLow } }
  else s

/-- PFAIL_N rises: wake code 2 in HIBERNATE. -/
def pfailRise (s : State) : State := wakeUp 2 { s with pw := { s.pw with mainPower := true } }

/-- The codes enabled for a state's exit (Table 12.5, R374). -/
def wakeEnabled (s : State) (en after : Word) : BitVec 9 :=
  let low := (if bit en 0 then 0x008 else 0) ||| (if bit en 1 && decide (after ≠ 0) then 0x010 else 0)
    ||| (if bit en 2 then 0x020 else 0)
  if s.pw.state = .standby then low ||| 0x1C0
  else (if s.pw.tripWake then 0 else low) ||| 0x006

/-- The lowest code of a set. -/
def lowestCode (v : BitVec 9) : Option Nat := (List.range 9).find? fun k => bit v k

/-- Wake sources are registered: the lowest enabled code ends the low-power state, and a PFAIL_N fall or a PERST_N
assertion among them has its drain. -/
def wake (sources : BitVec 9) (s : State) : State :=
  match s.pw.state with
  | .standby =>
    match lowestCode (sources &&& wakeEnabled s s.pw.wakeEn s.pw.wakeAfter) with
    | some c =>
      let s := if c < 7 then leaveStandby (BitVec.ofNat 4 c) s else s
      let s := if bit sources 7 then pfail s else s
      if bit sources 8 then perstAssert { s with pw := { s.pw with perstLow := true } } else s
    | none => s
  | .hibernate =>
    match lowestCode (sources &&& wakeEnabled s s.pw.islandEn s.pw.islandAfter) with
    | some c => wakeUp (BitVec.ofNat 4 c) (if c = 2 then { s with pw := { s.pw with mainPower := true } } else s)
    | none => s
  | _ => s

/-- The alarm of PW_WAKE_AFTER has come (Table 12.5). -/
def alarmDue (s : State) : Bool :=
  let after := if s.pw.state = .standby then s.pw.wakeAfter else s.pw.islandAfter
  decide (after ≠ 0) && decide (after.toNat * 32768 ≤ ticksSince s)

def wakeAlarm (s : State) : State := if alarmDue s then wake 0x010 s else s

/-- VBAT is measured (R313): below 2.4 V, VBAT_LOW and its event while the core runs. -/
def vbatMeasured (v : BitVec 16) (s : State) : State :=
  let low := decide (v.toNat < 240)
  let was := s.pw.vbatLow
  let s := { s with pw := { s.pw with vbat10mv := v, vbatLow := low } }
  if low && !was && s.pw.state.clocked then raise uPW cVBAT_LOW noCtx (v.setWidth 32) 0 0 s else s

/-- VBAT is lost: without main power the island stops (R312, R313). -/
def vbatLost (s : State) : State :=
  let s := { s with pw := { s.pw with vbat := false } }
  if s.pw.state = .hibernate ∧ s.pw.mainPower = false then
    { s with pw := { s.pw with state := .off, coreOn := false }, lg := { s.lg with islandLost := true } }
  else s

/-- The island first powers from VAON (R315, R366). -/
def fromOff (s : State) : State :=
  if s.pw.state ≠ .off then s
  else { s with pw := { s.pw with mainPower := true, coreOn := true, wakeCause := 0, wakeN := !s.pw.perstLow }
                lg := { s.lg with islandLost := true } }

/-! ### The end of BOOT (R328) -/

/-- A slot's start is over (R328, items 3 and 4). -/
def slotSettled (s : State) (x : Slot) : Bool :=
  let t := s.slot x
  match t.state with
  | .empty | .spare | .authFailed | .failed | .safeToRemove => true
  | .inService => t.insTests.isEmpty
  | _ => false

/-- Marked regions on a seated member. -/
def hasMarks (s : State) (x : Slot) : Bool := (s.slot x).cart.elim false fun c => !c.resync.isEmpty

/-- The duet as the cartridges found make it: a mirror or span short of a member is degraded, a member whose survivor holds
marked regions is stale (Table 3.7), and a missing last cartridge shows as MISSING (R97). -/
def settleDuet (s : State) : State :=
  let a := (s.slot .a).serves
  let b := (s.slot .b).serves
  let src := fun (x : Slot) (d : Duet) (s : State) => goDuet d { s with duet := { s.duet with source := x } }
  let miss := fun (s : State) => { s with duet := { s.duet with missing := true } }
  match s.duet.state with
  | .none => s
  | .soloA => if a then s else miss s
  | .soloB => if b then s else miss s
  | .mirror | .mirrorDegraded =>
    if a && b then
      if hasMarks s .a then src .a .mirrorResync s else if hasMarks s .b then src .b .mirrorResync s
      else if s.duet.state = .mirror then s else goDuet .mirror s
    else if a then src .a .mirrorDegraded s
    else if b then src .b .mirrorDegraded s
    else miss (if hasMarks s .b then src .b .mirrorDegraded s else src .a .mirrorDegraded s)
  | .span | .spanDegraded =>
    if a && b then (if s.duet.state = .span then s else goDuet .span s)
    else if a then src .a .spanDegraded s
    else if b then src .b .spanDegraded s
    else miss (src .a .spanDegraded s)
  | .mirrorResync =>
    if a && b then s
    else if (s.slot s.duet.source).serves then goDuet .mirrorDegraded s else miss (goDuet .mirrorDegraded s)
  | .migrateCopy | .migrateCut => if (s.slot s.duet.source).serves then s else miss s

/-- The greatest sequence number among the records of a cartridge's ring. -/
def ringNewest (c : Cart) : Option Nat :=
  c.ring.foldl (fun m e =>
    let n := ofLe ((lineBytes e.2).drop 8 |>.take 4)
    if (ringRecordAt c n).isSome then some (max n (m.getD 0)) else m) none

/-- The member in service whose ring ends before its partner's, as a start finds them: it was away (R179). -/
def ringBehind (s : State) : Option Slot :=
  match s.duet.state, s.ct.a.cart, s.ct.b.cart with
  | .mirror, some a, some b | .span, some a, some b | .mirrorResync, some a, some b =>
    let a := (ringNewest a).getD 0
    let b := (ringNewest b).getD 0
    if !s.ct.a.serves || !s.ct.b.serves || a = b then none else if a < b then some .a else some .b
  | _, _, _ => none

/-- A port at the end of BOOT: page 0, TOGGLE 0, CODE OK and an empty replay copy (R249, R253, R257). -/
def freshPort (q : Sp) : Sp := { q with page := 0, copy := none, toggle := false, status := 0 }

/-- BOOT ends in the first cycle in which R328's conditions hold. A DISCARD_HOLD accepted in phase K acts on the area found
(log 136), and a member whose ring ends early is noted for its copy (R179). -/
def bootEnds (s : State) : State :=
  let settled := slotSettled s .a && slotSettled s .b
  if s.pw.state ≠ .boot ∨ !s.ks.scanned ∨ !s.bt.sramDone ∨ !settled ∨ s.pc.drain.isSome then s
  else
    let s := if s.duet.moved then rebind s.duet.state { s with duet := { s.duet with moved := false } } else s
    let keep := fun (i : Fin 16) => match testSlot i with
      | some x => decide (testOf i = 6) || linkUp (s.slot x)
      | none => true
    let s := { s with
      bt := { s.bt with todo := s.bt.todo.filter keep }
      gl := { s.gl with bootEnd := some s.now }
      pw := { s.pw with tBoot := lo32 (s.now / us) }
      sp0 := freshPort s.sp0, sp1 := freshPort s.sp1 }
    let s := actLate 0x043C (settleDuet (goState .replay 0 s))
    { s with duet := { s.duet with ringCopy := ringBehind s } }

/-! ### Replay (R35–R37) -/

/-- Replay goes on in REPLAY, and in REST while a hold area is all that keeps it there (R304, R329). -/
def replaying (s : State) : Bool :=
  s.pc.drain.isNone && (decide (s.pw.state = .replay) ||
    (decide (s.pw.state = .rest) && s.pc.replayPending && s.bt.causes.all fun c => decide (c.1 = 16)))

/-- The hold area that is read (R35). -/
def pendingArea (s : State) : Option HoldArea := (areaSlot s).bind fun x => (s.slot x).cart.map fun c => c.hold

/-- An entry belongs to the drain of a header (R37). -/
def belongs (h : HoldHdr) (pos : Nat) (e : HoldEntry) : Bool :=
  !e.damaged && decide (e.boot = h.boot) && decide (e.index = pos)

/-- The first position from `k` on whose entry belongs. -/
def nextEntry (a : HoldArea) (k : Nat) : Option (Nat × HoldEntry) :=
  match a.header0 with
  | none => none
  | some h => ((List.range h.total).drop k).findSome? fun p =>
      a.entries[p]?.bind fun e => if belongs h p e then some (p, e) else none

/-- Every entry has been examined (R35). -/
def replayDone (s : State) : Bool :=
  match pendingArea s with
  | some a => (nextEntry a s.pc.replayIdx).isNone
  | none => true

/-- Replay writes go to the home line: to the source only while a copy is pending (chapter 03, Corners). -/
def replayHomes (s : State) (line : Nat) : List (Slot × Nat) :=
  match s.duet.state with
  | .mirrorResync | .migrateCopy | .migrateCut => [(s.duet.source, line)]
  | _ => homesServed s line

/-- POISON_MERGE or PWF of a replayed line, and the failure its tenant's record counts (R112, R120). -/
def replayFailure (code : BitVec 8) (e : HoldEntry) (tries : Nat) (tried : Bool) (x : Slot) (cl : Nat) (s : State) : State :=
  let s := raiseAddr uMD code (ctxByte e.ctx) 0 x cl e.off tries e.tempo.bits tried (count e.ctx addHard s)
  mediaEvent (e.media * 64) code (noteError x cl code (ctxByte e.ctx) 0xF s)

/-- One entry is written to one home, at its tempo, with verify (R35), on the front of the operation's tries. A write that fails is
quarantined and poisoned; a mirror's second write that fails is poisoned (R112). In MIRROR_DEGRADED its region is marked (Table 3.7). -/
def replayWrite (e : HoldEntry) (first : Slot) (acc : State × Tries) (h : Slot × Nat) : State × Tries :=
  let (s, w) := acc
  let (x, cl) := h
  let s := touchBank x cl (engineWrites x e.tempo 1 s)
  let (s, data, pm) := if e.mask = fullMask then (s, e.data, false)
    else let (s, d, p) := mergeBase x cl e.ctx e.off {} s
         (s, mergeLine d e.data e.mask, p)
  let l : StoredLine :=
    { data := data, keyCtx := e.ctx.val, keyGen := e.keyGen, tweak := e.off, poison := e.poison || pm, tempo := e.tempo.bits
      fresh := false }
  let used := (firstTry w).elim 8 fun k => k.val + 1
  let (s, r) := wholeWrite x cl (physOf s x cl) w s
  let s := markResync x cl s
  if r.ok then
    let s := writeLine x cl l s
    (if pm && decide (x = first) then replayFailure cPOISON_MERGE e used r.tried x cl s else s, r.rest)
  else if x = first then
    let (s, w) := quarantineEntry x ⟨e.ctx, cl, l⟩ (r.rest.length + 1) r.rest s
    (replayFailure cPWF e 8 r.tried x cl (poisonLine x cl (l.poisoned 0) w s), w.tail)
  else
    (raiseAddr (uCT x) cCART_COPY_POISON noCtx 0 x cl 0 8 e.tempo.bits r.tried (poisonLine x cl (l.poisoned 0) r.rest s), r.rest.tail)

/-- The homes of a replayed line take a write now: no inhibit, a free bank, and a link that carries requests (R70, R105, R127). -/
def replayReady (s : State) (homes : List (Slot × Nat)) : Bool :=
  !homes.isEmpty && homes.all fun h => !inhibited s h.1 && bankFree s h.1 (bankOf h.2) && linkReady s h.1

/-- The next entry that belongs, with its position and homes, while it can be replayed now. -/
def nextReplay (s : State) : Option (Nat × HoldEntry × List (Slot × Nat)) :=
  if !replaying s then none
  else match (pendingArea s).bind fun a => nextEntry a s.pc.replayIdx with
    | none => none
    | some (p, e) =>
      let homes := replayHomes s e.media
      if replayReady s homes && tagFree s .wbk e.ctx then some (p, e, homes) else none

/-- The next entry that belongs is replayed under a write-back tag, which returns with the verify (R35, R53). -/
def replayEntry (w : Tries) (s : State) : State :=
  match nextReplay s with
  | none => s
  | some (p, e, homes) =>
    let t := newTag s .wbk e.ctx
    let first := (homes.head?.map fun h => h.1).getD .a
    let (s, _) := homes.foldl (replayWrite e first) (takeTag .wbk e.ctx s, w)
    let s := dropTag t.id s
    { s with pc := { s.pc with
      replayIdx := p + 1, replayCount := s.pc.replayCount + 1, replayed := bump e.ctx.val 1 s.pc.replayed } }

/-- Short drains that a start finds: a header without its commit record, and a drain that had no hold target while lines were dirty
(R37, R97). -/
def shortDrains (s : State) : Nat :=
  let a := pendingArea s
  let short := fun (h : Option HoldHdr) => if h.any fun h => !h.commit then 1 else 0
  short (a.bind fun a => a.header0) + short (a.bind fun a => a.header1) + if s.lg.lostNoTarget = 0 then 0 else 1

/-- PC_DIRTY_COUNT and LAST_DRAIN_OK after the replay (R37, Table 1.7), recorded in the boot ring where they changed (Table 10.6). -/
def noteDrains (s : State) : State :=
  let n := shortDrains s
  let changed := decide (n ≠ 0) || !s.pc.lastDrainOk
  let s := { s with pc := { s.pc with dirtyCount := s.pc.dirtyCount + BitVec.ofNat 16 n, lastDrainOk := decide (n = 0) } }
  if changed then formBoot s.cs.chgNo.toNat s else s

/-- What the drain lost, against the header's counts (R37), and the lines a drain without a target lost (R97). -/
def countLost (s : State) : State :=
  let header := (pendingArea s).bind fun a => a.header0
  let s := noteDrains s
  let lost := (header.elim [] fun h => h.counts).filterMap fun e =>
    let n := e.2 - (look e.1 s.pc.replayed).getD 0
    if n = 0 then none else some (e.1, n)
  let s := lost.foldl (fun s e => raise uPC cDRAIN_SHORT (BitVec.ofNat 8 e.1) (lo32 e.2) (lo32 s.pc.dirtyCount.toNat) 0
    { s with pc := { s.pc with replayLost := s.pc.replayLost + e.2 } }) s
  let n := s.lg.lostNoTarget
  if n = 0 then s
  else raiseF uPC cDRAIN_SHORT (ctxByte provider) 1 (lo32 n) (lo32 s.pc.dirtyCount.toNat) 0
    { s with pc := { s.pc with replayLost := s.pc.replayLost + n }, lg := { s.lg with lostNoTarget := 0 } }

/-- The cartridge whose hold area and ring the start reads is absent (R35). -/
def areaAbsent (s : State) : Bool := decide (s.duet.state ≠ .none) && (areaSlot s).isNone

/-- The ledger is reconciled after the last entry (R178). -/
def reconcileNow (w : Tries) (s : State) : State :=
  if !replaying s ∨ !replayDone s ∨ s.pc.reconciled ∨ areaAbsent s then s
  else reconcile (areaSlot s) s.pc.replayCount w (countLost s)

/-- BOOT's tests have ended (R329). -/
def testsOver (s : State) : Bool := s.bt.todo.isEmpty && s.bt.running.isEmpty

/-- The keep-store writes of reconciliation and of the boot ring are over. -/
def startWritesOver (s : State) : Bool :=
  let mine := fun (w : PageWrite) => decide (w.kind = .bootRing) || decide (w.kind = .totals)
  !s.ks.queue.any mine && !s.ks.busy.toList.any mine

/-- A hold area that was read still holds a record of a drain. -/
def areaPending (s : State) (x : Slot) : Bool :=
  (s.slot x).cart.any fun c => c.hold.header0.isSome || c.hold.header1.isSome

/-- The hold area is erased once every entry has been replayed (R36): its headers with one lento line, once its cartridge takes
writes (R127). -/
def eraseArea (x : Slot) (s : State) : State :=
  match (s.slot x).cart with
  | some c =>
    if !areaPending s x then s
    else modCart x (fun c => { c with hold := { c.hold with header0 := none, header1 := none, ledger := none } })
      (bumpGap x (holdBase c.big) 1 (engineWrites x .lento 1 s))
  | none => s

/-- The erase of the area that was read waits for its cartridge. -/
def eraseWaits (s : State) : Bool := (areaSlot s).any fun x => areaPending s x && (inhibited s x || !linkReady s x)

/-- A copy that a start interrupted begins again from its first line (chapter 03, Corners), and a member that was away gets the ring
records it lacks (R179). -/
def resumeCopy (s : State) : State :=
  let both := (s.slot .a).serves && (s.slot .b).serves
  match s.duet.state with
  | .migrateCopy => if both then startCopy (planCopy (copyAreas s) s) else s
  | .mirrorResync =>
    if !both then s
    else
      let dst := s.duet.source.other
      let marks := (s.slot s.duet.source).cart.elim [] fun c => c.resync
      let part := (s.slot s.duet.source).cart.elim [] fun c => ringAreas dst s ++ markedAreas c
      let areas := if marks.isEmpty then copyAreas s else part
      let s := settleRing (planCopy areas { s with duet := { s.duet with ringCopy := some dst } })
      if areas.isEmpty then copyDone s else startCopy s
  | _ => match s.duet.ringCopy with
    | some x => startRing x s
    | none => s

/-- The newest SWAP marker of a ring is of reason 2 and names the serial as leaving (Table 6.5): its departure is on record. -/
def departureKnown (c : Cart) (serial : BitVec 64) : Bool :=
  let swaps := (c.ring.map fun e => lineBytes e.2).filter fun b => decide (b.getD 4 0 = 0xFD) && decide (b.getD 5 0 = 4)
  let seq := fun (b : List Byte) => ofLe ((b.drop 8).take 4)
  let newest := swaps.foldl (fun m b => if m.any fun (n : List Byte) => seq b < seq n then m else some b) none
  newest.any fun b => decide (b.getD 28 0 = 2) && decide (ofLe ((b.drop 36).take 8) = serial.toNat)

/-- A member that a start finds gone was removed while the engine was off: the SWAP marker of reason 2 follows (R179, DEDUCED, log
137). -/
def noteGone (s : State) : State :=
  let gone := bothSlots.filter fun x => s.duet.names x && !(s.slot x).serves && (s.slot x.other).serves
  match s.duet.state with
  | .mirrorDegraded | .spanDegraded =>
    gone.foldl (fun s x =>
      let serial := s.duet.serialOf x
      if (s.slot x.other).cart.any fun c => departureKnown c serial then s
      else swapMarker 2 serial (s.slot x.other).serial s) s
  | _ => s

/-- TARGET and SCAN changes that phase K accepted act as service begins (log 136). -/
def actLast (s : State) : State :=
  let scan := s.ks.late.any fun c => c.entries.any fun e => decide (entryOff e = 0x3C38)
  let s := actLate 0x0D04 s
  if scan then actLate 0x3C38 { goState .test 0 s with bt := { s.bt with run := 3 } } else s

/-- Replay is over: the area is erased, and service begins. -/
def openService (s : State) : State :=
  let s := (areaSlot s).elim s fun x => eraseArea x s
  let s := { s with
    pc := { s.pc with replayPending := false }
    pw := { s.pw with tReplay := if s.pw.state = .replay then lo32 (s.now / us) else s.pw.tReplay }
    hl := { s.hl with memActive := s.hl.effCxl }
    ev := { s.ev with traceScan := true }
    bt := { s.bt with causes := s.bt.causes.filter fun c => decide (c.1 ≠ 16) } }
  settleBind (resumeCopy (noteGone s))

/-- The engine leaves REPLAY for REST, HELD, with the hold area pending (R329). -/
def holdPending (code : BitVec 8) (s : State) : State :=
  enterRest 16 15 false true code { s with
    pc := { s.pc with replayPending := true }, pw := { s.pw with tReplay := lo32 (s.now / us) }
    hl := { s.hl with memActive := s.hl.effCxl }, ev := { s.ev with traceScan := true } }

/-- HOLD_ABSENT names the hold target of the binding record (Table 13.3). -/
def holdAbsent (s : State) : State :=
  let x := soughtSlot s
  let serial := (s.duet.serialOf x).toNat
  holdPending cHOLD_ABSENT (raise uPC cHOLD_ABSENT noCtx (lo32 x.num) (lo32 serial) (hi32 serial) s)

/-- The state after REPLAY: REST for the causes that stand, else ACTIVE or QUIET. -/
def serveAfterReplay (s : State) : State :=
  match s.bt.causes.getLast? with
  | some c =>
    let i : Fin 16 := ⟨c.1 % 16, by omega⟩
    let code := if c.1 = 17 then cKS_RING_LOST else cBT_FAIL
    enterRest c.1 (if c.1 < 16 then testOf i else 15) (c.1 < 16 && decide (testSlot i = some .b)) c.2 code s
  | none => goState (activeOrQuiet s) 0 s

/-- REPLAY ends (R329): in ACTIVE or QUIET, or in REST for the causes that stand; without the cartridge that holds the area, in REST
with HOLD_ABSENT. A replay resumed from REST ends there. -/
def replayEnds (s : State) : State :=
  if s.pc.drain.isSome then s
  else if s.pw.state = .replay ∧ areaAbsent s then (if testsOver s then holdAbsent s else s)
  else if !replaying s ∨ !s.pc.reconciled ∨ !replayDone s ∨ !startWritesOver s ∨ eraseWaits s then s
  else if s.pw.state = .rest then actLast (leaveRest (openService s))
  else if !testsOver s then s
  else actLast (serveAfterReplay (openService s))

/-- Entries not yet replayed. -/
def entriesLeft (s : State) : Nat :=
  match (pendingArea s).bind fun a => a.header0 with
  | some h => h.total - s.pc.replayIdx
  | none => 0

/-- REPLAY not ended by 750 ms (R329). -/
def replayLate (s : State) : State :=
  if s.pw.state ≠ .replay ∨ s.now < 750 * ms ∨ s.pc.drain.isSome then s
  else holdPending cREPLAY_LATE (raise uPW cREPLAY_LATE noCtx (lo32 (entriesLeft s)) 0 0 s)

/-- A hold-target inhibit of 500 ms in REPLAY (chapter 04, Corners). -/
def replayInhibit (s : State) : State :=
  let long := (areaSlot s).elim false fun x => (inhibitedAt s x).elim false fun c => decide (c + 500 * ms ≤ s.now)
  if s.pw.state = .replay ∧ long ∧ s.pc.drain.isNone then holdPending cFIELD (logField 0 s) else s

/-! ### Low power (R319–R323) -/

/-- Table 12.4. -/
def lowPowerOk (s : State) : Bool :=
  s.pc.slots.isEmpty && !sealing s && s.lg.closing.isNone && !framePending s && !s.lg.merging && !dmActive s && s.duet.format.isNone
    && (match s.duet.state with
      | .mirrorResync | .migrateCopy | .migrateCut => false
      | _ => true)
    && s.ks.busy.isNone && s.ks.queue.isEmpty && !s.ks.energyWait && s.ks.applying.isEmpty && decide (s.ks.owner = .free)
    && decide (s.cs.state ≠ .committing) && s.sp0.txn.isNone && s.sp1.txn.isNone && decide (s.bt.run = 0) && !s.bt.fuseBusy
    && s.md.inhA.isNone && s.md.inhB.isNone && !s.md.writes.any fun w => w.held

/-- PW_CTRL.STANDBY, accepted (R320). -/
def armStandby (s : State) : State := { lapse 4 s with pw := { s.pw with armed := some s.now } }

/-- DISARM (R320). -/
def disarm (s : State) : State :=
  if s.pw.armed.isSome then { s with pw := { s.pw with armed := none, lastResult := cOK } } else s

/-- LP_ENTER is written with LGT and the state entered (R334). -/
def lpEnter (p : Power) (s : State) : State :=
  let t := lgtMs s.lg.lgt
  traceRaw ⟨s.now, 0x07, if p = .hibernate then 1 else 2, lo32 t, hi32 t⟩ { s with pw := { s.pw with lpEnter := some (s.lg.lgt, p) } }

/-- STANDBY is entered: the arm is set, Table 12.4 holds, and the host link has reached L1.2 (R320). -/
def enterStandby (s : State) : State :=
  let idle := fun (t : CtSlot) => if t.link = .active then { t with link := .idle } else t
  match s.pw.state with
  | .active | .quiet =>
    if s.pw.armed.isNone || !lowPowerOk s || s.sp0.inFrame || s.pc.drain.isSome then s
    else
      let s := lpEnter .standby { s with pw := { s.pw with armed := none, standbyFrom := s.pw.state } }
      goState .standby 0 (modSlot .b idle (modSlot .a idle s))
  | _ => s

/-- The arm clears after 1 s (R320). -/
def armTimeout (s : State) : State :=
  match s.pw.armed with
  | some c => if c + sec ≤ s.now then { s with pw := { s.pw with armed := none, lastResult := cTIMEOUT } } else s
  | none => s

/-- The last commands of a slot before HIBERNATE (Table 12.6, H2): each answered by its supervisor. -/
def finalSv (s : State) (x : Slot) : State :=
  let t := s.slot x
  if !authed t || !svFree s x || t.outstanding.isSome then s
  else
    let s := exchange x 0x04 (leBytes 8 t.uncharged) [] .answered s
    let s := exchange x 0x06 (syncPayload s) [] .answered s
    exchange x 0x0B [0] [] .answered s

/-- PW_CTRL.HIBERNATE, accepted (Table 12.6): H1 to H3, and the start of H4's drain, whose end is H5 and H6. -/
def hibernate (s : State) : State :=
  let s := lapse 4 s
  let s := { s with pw := { s.pw with entering := true, armed := none, islandEn := s.pw.wakeEn, islandAfter := s.pw.wakeAfter } }
  let s := bothSlots.foldl finalSv s
  startDrain 4 (spillAll (lpEnter .hibernate s))

/-! ### Commands -/

/-- R314: PERST_N is released. -/
def execPerstNRelease (hlselCxl : Bool) (cardA cardB : Option Card) (s : State) : Host.Outcome State Fault Refusal :=
  act (perstRelease hlselCxl cardA cardB) s

/-- R240: PERST_N is asserted. -/
def execPerstNAssertion (s : State) : Host.Outcome State Fault Refusal :=
  act (fun s => perstAssert { s with pw := { s.pw with perstLow := true } }) s

/-- R31: PFAIL_N falls. -/
def execPfailNFall (s : State) : Host.Outcome State Fault Refusal := act pfail s

/-- R31: the drain ends. -/
def execDrainEnd (fails : List (Slot × Fin 128)) (s : State) (damaged : List Nat := []) : Host.Outcome State Fault Refusal :=
  act (drainEnds fails damaged) s

/-- R325: PFAIL_N rises. -/
def execPfailNRise (s : State) : Host.Outcome State Fault Refusal := act pfailRise s

/-- R326: loss of lock. -/
def execLossOfLock (s : State) : Host.Outcome State Fault Refusal := act lockLost s

/-- R326: the reference returns. -/
def execReferenceReturn (s : State) : Host.Outcome State Fault Refusal := act lockBack s

/-- R314: a rail leaves its window. -/
def execRailOutOfRange (rail : Fin 5) (s : State) : Host.Outcome State Fault Refusal :=
  act (fun s => perstAssert { s with pw := { s.pw with rails := s.pw.rails.set rail false } }) s

/-- R374: a thermal trip. -/
def execThermalTrip (tj : BitVec 8) (s : State) : Host.Outcome State Fault Refusal := act (tripped tj) s

/-- R313: VBAT is low. -/
def execVbatLow (v10mv : BitVec 16) (s : State) : Host.Outcome State Fault Refusal := act (vbatMeasured v10mv) s

/-- R328: BOOT ends. -/
def execBootEnd (s : State) : Host.Outcome State Fault Refusal := act bootEnds s

/-- R178: the ledger is reconciled. -/
def execLedgerReconcile (s : State) (writes : Tries := []) : Host.Outcome State Fault Refusal := act (reconcileNow writes) s

/-- R329: REPLAY ends. -/
def execReplayEnd (s : State) : Host.Outcome State Fault Refusal := act replayEnds s

/-- R329: REPLAY is late. -/
def execReplayLate (s : State) : Host.Outcome State Fault Refusal := act replayLate s

/-- R329: the hold target is inhibited in REPLAY. -/
def execReplayInhibitTimeout (s : State) : Host.Outcome State Fault Refusal := act replayInhibit s

/-- R320: STANDBY is entered. -/
def execStandbyEntry (s : State) : Host.Outcome State Fault Refusal := act enterStandby s

/-- R320: the STANDBY arm times out. -/
def execStandbyArmTimeout (s : State) : Host.Outcome State Fault Refusal := act armTimeout s

/-- R325: wake sources. -/
def execWake (sources : BitVec 9) (s : State) : Host.Outcome State Fault Refusal := act (wake sources) s

/-- R325: the alarm. -/
def execWakeAlarm (s : State) : Host.Outcome State Fault Refusal := act wakeAlarm s

/-- R34: a short drain. -/
def execShortDrain (steps : Nat) (s : State) (pages : Fin 2 := 0) (fails : List (Slot × Fin 128) := []) (damaged : List Nat := []) :
    Host.Outcome State Fault Refusal :=
  act (shortDrain fails damaged steps pages) s

/-- R312: VBAT is lost. -/
def execLossOfVbat (s : State) : Host.Outcome State Fault Refusal := act vbatLost s

/-- R366: the island powers from VAON. -/
def execStartFromOff (s : State) : Host.Outcome State Fault Refusal := act fromOff s

end Sys2Proof.Machine
end

