-- ==== Sys2Proof/Machine/Operands.lean ====
section
/-! DEFINITION. The operand forms of a register access: the register map's blocks, the instances of a channel, the G5 window,
the tenant window, the serial pages and the splitting of a wide access (15, R231, R249, R379–R384). -/

namespace Sys2Proof.Machine

/-! ### Blocks of the map (Tables 15.2 to 15.9) -/

/-- The unit blocks of the G7 map. -/
inductive Block where
  | gl | pc | md
  | ct (x : Slot)
  | duet
  | tn | lg | dm
  | ch (n : Fin 32)
  | hl
  | sp (p : Port)
  | ks | bt | pw | ev | cs
  deriving DecidableEq, Repr

/-- Registers of a range: the offsets `lo, lo + 4, …, hi`. -/
def inRange (off lo hi : Nat) : Bool := decide (lo ≤ off) && decide (off ≤ hi) && decide (off % 4 = 0)

/-- The registers of CT_*, TN_*, … that the map lists, block by block; any other offset is reserved (R377). -/
def blockOf (off : Nat) : Option Block :=
  let at' := fun (l : List Nat) => l.any fun o => decide (o = off)
  if at' [0x0000, 0x0004, 0x0008, 0x0010, 0x0014, 0x0018] || inRange off 0x0020 0x005C then some .gl
  else if inRange off 0x0400 0x0440 then some .pc
  else if inRange off 0x0800 0x0840 then some .md
  else if inRange off 0x0C00 0x0C3C then some (.ct .a)
  else if inRange off 0x0D00 0x0D14 then some .duet
  else if inRange off 0x0E00 0x0E3C then some (.ct .b)
  else if inRange off 0x1000 0x1038 then some .tn
  else if inRange off 0x1400 0x1448 || inRange off 0x1450 0x149C || inRange off 0x14C0 0x150C then some .lg
  else if inRange off 0x1800 0x1814 then some .dm
  else if inRange off 0x2000 0x2FFC then
    (if off % 0x80 ≤ 0x48 then some (.ch ⟨(off - 0x2000) / 0x80 % 32, Nat.mod_lt _ (by decide)⟩) else none)
  else if inRange off 0x3000 0x3020 then some .hl
  else if inRange off 0x3400 0x3428 then some (.sp .p0)
  else if inRange off 0x3500 0x3528 then some (.sp .p1)
  else if inRange off 0x3800 0x3824 then some .ks
  else if inRange off 0x3C00 0x3C50 then some .bt
  else if inRange off 0x4000 0x402C || inRange off 0x4040 0x4050 then some .pw
  else if inRange off 0x4400 0x4444 || inRange off 0x4460 0x447C then some .ev
  else if inRange off 0x4800 0x482C || inRange off 0x4840 0x485C || (inRange off 0x4880 0x497C && decide (off % 16 ≠ 12)) then some .cs
  else none

/-- The unit of a block, as an event names it (Table 13.2). -/
def Block.unit : Block → BitVec 5
  | .gl => uGL | .pc => uPC | .md => uMD | .ct x => uCT x | .duet => uCT .a | .tn => uTN | .lg => uLG
  | .dm | .ch _ => uDM | .hl => uHL | .sp .p0 => uSP0 | .sp .p1 => uSP1 | .ks => uKS | .bt => uBT | .pw => uPW
  | .ev => uEV | .cs => uCS

/-- First offset of a slot's block (Table 15.3). -/
def slotBase (x : Slot) : Nat := 0x0C00 + 0x200 * x.num
/-- First offset of a channel's block (Table 15.5). -/
def chBase (n : Fin 32) : Nat := 0x2000 + 0x80 * n.val
/-- First offset of a port's block (Table 15.6). -/
def spBase (p : Port) : Nat := match p with
  | .p0 => 0x3400
  | .p1 => 0x3500

/-! ### Instances of a channel (R379) -/

/-- TN_INDEX of a channel; SP1 as a slave reads 0x80 (R245). -/
def tnIndex (s : State) : Chan → Ctx
  | .sp0 => toCtx s.tn.indexMgmt.toNat
  | .sp1 => provider
  | .bar0 | .g5 => toCtx s.tn.indexHost.toNat

/-- The view of the log that a channel uses (R342). -/
def evView (s : State) (ch : Chan) : EvView := if ch.mgmt then s.ev.mgmt else s.ev.host

/-- A channel's view changed. -/
def modView (ch : Chan) (f : EvView → EvView) (s : State) : State :=
  if ch.mgmt then { s with ev := { s.ev with mgmt := f s.ev.mgmt } } else { s with ev := { s.ev with host := f s.ev.host } }

/-! ### What a channel can do now -/

/-- A register access of the channel can arrive in the engine's state: the host's in the states after REPLAY (R45, R241),
a slave port's also in BOOT and REPLAY (R260); none during a drain. -/
def reaches (s : State) (ch : Chan) : Bool :=
  s.pc.drain.isNone && (match s.pw.state, ch with
    | .off, _ | .hibernate, _ | .standby, _ => false
    | .boot, .bar0 | .boot, .g5 | .replay, .bar0 | .replay, .g5 => false
    | _, .bar0 | _, .g5 => !s.bt.scan
    | _, .sp0 => !s.sp0.master
    | _, .sp1 => !s.sp1.master)

/-! ### Register operands -/

/-- A register of the G7 map as an access reaches it: its offset, its context where the access names it by position, and the
fields the access shows. -/
structure RegOp where
  off   : Nat
  ctx   : Option Ctx := none
  shown : Word := 0xFFFFFFFF
  deriving DecidableEq, Repr

/-- The TN registers of the G5 layout (Table 15.10). -/
def tnLayout (k : Nat) : Nat := [0x1004, 0x1008, 0x100C, 0x1010, 0x1014, 0x1018, 0x1024, 0x1034].getD (k % 8) 0x1004

/-- A TN register of the G5 layout: TN_MODE shows bits 1:0 only (n6). -/
def tnOp (c : Ctx) (k : Nat) : RegOp :=
  { off := tnLayout k, ctx := some c, shown := if tnLayout k = 0x1014 then 0x3 else 0xFFFFFFFF }

/-- The G5 window's translation of a word (Table 15.10, R382); none for G5_IDENT and for reserved offsets. -/
def g5Op (off : Nat) : Option RegOp :=
  match off with
  | 0x8004 => some { off := 0x0004 }
  | 0x8008 => some { off := 0x0008 }
  | 0x8010 => some { off := 0x0400 }
  | 0x8014 => some { off := 0x040C }
  | 0x8018 => some { off := 0x0428 }
  | 0x801C => some { off := 0x0050 }
  | 0x8020 => some { off := 0x1800 }
  | 0x8024 => some { off := 0x1814, shown := 0xFFFF }
  | 0x8028 => some { off := 0x0D00, shown := 0xF }
  | _ =>
    if inRange off 0x8080 0x809C then some (tnOp provider ((off - 0x8080) / 4))
    else if inRange off 0x8100 0x8110 then some { off := off - 0x8100 + 0x4400 }
    else if inRange off 0x8114 0x8118 then some { off := off - 0x8114 + 0x4414 }
    else if inRange off 0x8120 0x813C then some { off := off - 0x8120 + 0x4460 }
    else if inRange off 0x8400 0x87FC then some (tnOp (toCtx ((off - 0x8400) / 32)) ((off - 0x8400) / 4))
    else if inRange off 0x8800 0x8FFC then some { off := off - 0x8800 + 0x2000 }
    else if inRange off 0x9000 0x90FC then some { off := off - 0x9000 + 0x1400 }
    else if inRange off 0x9400 0x94FC then some { off := off - 0x9400 + 0x4800 }
    else none

/-- The register that a channel's access to an offset reaches; an offset below 0x8000 is the G7 map's (R230, R382). -/
def regOp (ch : Chan) (off : Nat) : Option RegOp :=
  let w := off / 4 * 4
  if w < 0x8000 then (if ch = .g5 then none else some { off := w })
  else if ch = .g5 ∨ ch = .bar0 then g5Op w
  else none

/-- An offset of the G7 map is reached by some G5 offset, the TN registers apart (R231, n4). -/
def g5Reaches (off : Nat) : Bool :=
  (off = 0x0004) || (off = 0x0008) || (off = 0x0400) || (off = 0x040C) || (off = 0x0428) || (off = 0x0050)
    || (off = 0x1800) || (off = 0x1814) || (off = 0x0D00) || inRange off 0x4400 0x4418 || inRange off 0x4460 0x447C
    || inRange off 0x2000 0x27FC || inRange off 0x1400 0x14FC || inRange off 0x4800 0x48FC

/-- The register that a command with a row of its own writes or reads, over a channel that reaches it; a TN register is that
of the channel's TN_INDEX. The G5 window has no TN register but by position (R231). -/
def cmdOp (ch : Chan) (off : Nat) : Option RegOp := if ch = .g5 ∧ ¬ g5Reaches off then none else some { off := off }

/-- TN_MODE of a position of the G5 window: 0 to 31 a tenant, 32 the provider context (Table 15.10). -/
def g5ModeOff (pos : Fin 33) : Nat := if pos = 32 then 0x8090 else 0x8410 + 32 * pos.val

/-- The context a TN operand names. -/
def RegOp.tenant (op : RegOp) (s : State) (ch : Chan) : Ctx := op.ctx.getD (tnIndex s ch)

/-! ### Wide accesses (R380) -/

/-- A part of an access: the word's offset, its byte enables, and the index of its first byte in the access. -/
structure Part where
  off  : Nat
  be   : BitVec 4
  base : Nat
  len  : Nat
  deriving DecidableEq, Repr

/-- `n` byte enables from byte `k` on. -/
def enables (k n : Nat) : BitVec 4 := BitVec.ofNat 4 ((2 ^ n - 1) <<< k)

/-- An access of 1 to 8 bytes within 8 bytes, as one or two parts, the lower offset first; none for any other (R380). -/
def parts (off len : Nat) : Option (List Part) :=
  if len = 0 ∨ 8 < len ∨ off / 8 ≠ (off + len - 1) / 8 then none
  else
    let k := off % 4
    let n := min len (4 - k)
    let first : Part := ⟨off - k, enables k n, 0, n⟩
    if n = len then some [first] else some [first, ⟨off - k + 4, enables 0 (len - n), n, len - n⟩]

/-- The lowest enabled byte. -/
def lowByte (be : BitVec 4) : Nat := if bit be 0 then 0 else if bit be 1 then 1 else if bit be 2 then 2 else 3

/-- The register word a part of written data carries. -/
def Part.word (p : Part) (data : List Byte) : Word :=
  BitVec.ofNat 32 (ofLe ((data.drop p.base).take p.len) * 2 ^ (8 * lowByte p.be))

/-- The bytes of a register word that a part reads. -/
def Part.bytes (p : Part) (w : Word) : List Byte := ((wordBytes w).drop (lowByte p.be)).take p.len

end Sys2Proof.Machine
end

