-- ==== Sys2Proof/Machine/Flags.lean ====
section
/-! DEFINITION. Legality by engine state, the sticky flags and result codes of a refusal, and the event a refusal logs
(R6–R9, R340, R386; the legality tables' rows of chapters 1 to 14). -/

namespace Sys2Proof.Machine

/-! ### Engine states as the legality tables group them -/

/-- ACTIVE or QUIET: QUIET permits exactly what ACTIVE permits (R318). -/
def usual (s : State) : Bool := decide (s.pw.state = .active) || decide (s.pw.state = .quiet)

/-- ACTIVE, QUIET or FIELD_HOLD. -/
def usualField (s : State) : Bool := usual s || decide (s.pw.state = .fieldHold)

/-- ACTIVE, QUIET, FIELD_HOLD or REST: every state with service but TEST. -/
def notTest (s : State) : Bool := usualField s || decide (s.pw.state = .rest)

/-- ACTIVE, QUIET, FIELD_HOLD, TEST or REST. -/
def afterReplay (s : State) : Bool := notTest s || decide (s.pw.state = .test)

/-! ### Judging a write (R386) -/

/-- What a register write comes to: the code of its refusal, or the state its fields leave. -/
inductive Judged where
  | refused (code : BitVec 8)
  | taken (t : State)

/-- A write that any of the codes refuses does nothing; else it takes effect as a whole (R386). -/
def judge (codes : List (Option (BitVec 8))) (t : State) : Judged :=
  match codes.findSome? id with
  | some code => .refused code
  | none => .taken t

/-- WRONG_STATE unless the state's table permits the field (R9). -/
def inState (ok : Bool) : Option (BitVec 8) := if ok then none else some cWRONG_STATE

/-- RANGE unless the value is legal. -/
def inBound (ok : Bool) : Option (BitVec 8) := if ok then none else some cRANGE

/-- PERMISSION unless the writer may. -/
def permitted (ok : Bool) : Option (BitVec 8) := if ok then none else some cPERMISSION

/-- A W1C flag after a write of the enabled bits `m` (R6, R8). -/
def w1c (old : Bool) (m : Word) (i : Nat) : Bool := old && !bit m i

/-! ### Refusals (R9, R340) -/

/-- The unit's sticky WRONG_STATE bit (R9); a TN register sets the context's. -/
def setSticky (b : Block) (c : Ctx) (s : State) : State :=
  match b with
  | .gl => { s with gl := { s.gl with stall := { s.gl.stall with wrongState := true } } }
  | .pc => { s with pc := { s.pc with wrongState := true } }
  | .md => { s with md := { s.md with wrongState := true } }
  | .ct x => modSlot x (fun t => { t with wrongState := true }) s
  | .duet => { s with duet := { s.duet with wrongState := true } }
  | .tn => modTenant c (fun t => { t with wrongState := true }) s
  | .lg => { s with lg := { s.lg with wrongState := true } }
  | .dm => { s with dm := { s.dm with wrongState := true } }
  | .ch n => modCh n (fun c => { c with wrongState := true }) s
  | .hl => { s with hl := { s.hl with wrongState := true } }
  | .sp p => modSp p (fun q => { q with wrongState := true }) s
  | .ks => { s with ks := { s.ks with wrongState := true } }
  | .bt => { s with bt := { s.bt with wrongState := true } }
  | .pw => { s with pw := { s.pw with wrongState := true } }
  | .ev => { s with ev := { s.ev with wrongState := true } }
  | .cs => { s with cs := { s.cs with wrongState := true } }

/-- LAST_RESULT of the units whose status register keeps the code of a refusal (Tables 10.10, 11.7, 12.11). -/
def setResult (b : Block) (code : BitVec 8) (s : State) : State :=
  match b with
  | .ks => { s with ks := { s.ks with lastResult := code } }
  | .bt => { s with bt := { s.bt with lastResult := code } }
  | .pw => { s with pw := { s.pw with lastResult := code } }
  | _ => s

/-- DETAIL0 of form REG (Table 13.4). -/
def regD0 (s : State) (ch : Chan) (off : Nat) : Word :=
  put (off % 2 ^ 16) 0 ||| put s.pw.state.code 16 ||| put ch.num 24

/-- WRONG_STATE, PERMISSION and RANGE are logged in form REG with the context the write addressed; no other refusal
is (R340). -/
def logRefusal (ch : Chan) (unit : BitVec 5) (ctx : BitVec 8) (off : Nat) (code : BitVec 8) (v : Word) (s : State) : State :=
  if code = cWRONG_STATE ∨ code = cPERMISSION ∨ code = cRANGE then
    raise unit code ctx (regD0 s ch off) v (put (tnIndex s ch).val 0) s
  else s

/-- The context byte of a register's events (R340). -/
def regCtx (b : Block) (c : Ctx) : BitVec 8 := if b = .tn then ctxByte c else noCtx

/-- A refused register write: the sticky bit with WRONG_STATE, the unit's LAST_RESULT, and the event (R9, R340). -/
def refuse (ch : Chan) (b : Block) (c : Ctx) (off : Nat) (code : BitVec 8) (v : Word) (s : State) : State :=
  let t := logRefusal ch b.unit (regCtx b c) off code v s
  setResult b code (if code = cWRONG_STATE then setSticky b c t else t)

end Sys2Proof.Machine
end

