-- ==== Sys2Proof/Machine/RegWrite.lean ====
section
/-! DEFINITION. What a write of a register does, unit by unit: the checks of its fields, the values stored and the commands
given (Tables 1.7–14.16; R6–R9, R386). -/

namespace Sys2Proof.Machine

/-! ### GL (02) -/

/-- A fence orders the later writes of its contexts behind their earlier ones (R58). -/
def fenceAll (s : State) : State := { s with gl := { s.gl with fences := mapV s.gl.fences (· + 1) } }
def fenceCtx (c : Ctx) (s : State) : State := { s with gl := { s.gl with fences := modAt s.gl.fences c (· + 1) } }

/-- GL_FENCE, GL_AGE_LIMIT and GL_STALL (Tables 2.16 to 2.18). -/
def writeGl (off : Nat) (be : BitVec 4) (v : Word) (s : State) : Judged :=
  let m := v &&& byteMask be
  match off with
  | 0x0050 => judge [inState (afterReplay s)] (fenceAll s)
  | 0x0054 =>
    let limit := max 4 (fld (blend (put s.gl.ageLimit.toNat 0) v be) 0 8)
    judge [inState (notTest s)] { s with gl := { s.gl with ageLimit := BitVec.ofNat 8 limit } }
  | 0x0058 =>
    let g := s.gl.stall
    judge [inState (afterReplay s)] { s with gl := { s.gl with stall :=
      { wrongState := w1c g.wrongState m 5, hol := w1c g.hol m 4, fieldPersist := w1c g.fieldPersist m 3
        selfTarget := w1c g.selfTarget m 2, hostService := w1c g.hostService m 1, hostCredit := w1c g.hostCredit m 0 } } }
  | _ => .taken s

/-! ### PC (01) -/

/-- WRITEBACK_ALL may be given (Table 1.6). -/
def writebackOk (s : State) : Bool := usualField s || decide (s.pw.state = .test)

/-- PC_STATUS, PC_HOLD_LIMIT, PC_LOWWATER and PC_CTRL (Tables 1.7 to 1.17). -/
def writePc (off : Nat) (be : BitVec 4) (v : Word) (s : State) : Judged :=
  let m := v &&& byteMask be
  match off with
  | 0x0400 => judge [inState (afterReplay s)] { s with pc := { s.pc with wrongState := w1c s.pc.wrongState m 5 } }
  | 0x0408 =>
    let limit := min 32 (fld (blend (put s.pc.limit 0) v be) 0 6)
    judge [inState (afterReplay s)] { s with pc := { s.pc with limit := limit } }
  | 0x0438 =>
    let lines := fld (blend (put s.pc.lowwater.toNat 0) v be) 0 18
    judge [inState (afterReplay s)] { s with pc := { s.pc with lowwater := BitVec.ofNat 18 lines } }
  | 0x043C =>
    judge [inState (!bit m 0 || writebackOk s), inState (!bit m 1 || usual s)]
      { s with pc := { s.pc with writebackAll := s.pc.writebackAll || bit m 0, remeasure := s.pc.remeasure || bit m 1 } }
  | _ => .taken s

/-! ### MD (04) -/

/-- SCRUB_NOW may be given, and an injection armed (Table 4.11). -/
def scrubNowOk (s : State) : Bool := usual s || decide (s.pw.state = .rest)
def injectOk (s : State) : Bool := usual s || decide (s.pw.state = .test)

/-- A value clamped to a range by a "stored as" rule (R386). -/
def clamp (lo hi x : Nat) : Nat := max lo (min hi x)

/-- MD_STATUS, MD_CTRL, MD_WL_CFG, MD_SCRUB_CFG and the injection registers (Tables 4.12 to 4.22). -/
def writeMd (off : Nat) (be : BitVec 4) (v : Word) (s : State) : Judged :=
  let m := v &&& byteMask be
  match off with
  | 0x0800 => judge [inState (afterReplay s)] { s with md := { s.md with wrongState := w1c s.md.wrongState m 5 } }
  | 0x0804 =>
    let s' := { s with md := { s.md with scrubPause := bit (blend (putB s.md.scrubPause 1) v be) 1 } }
    judge [inState (afterReplay s), inState (!bit m 0 || scrubNowOk s)] (if bit m 0 then scrubNow s' else s')
  | 0x0808 =>
    judge [inState (notTest s)] { s with md := { s.md with
      wlPeriod := clamp 64 256 (fld (blend (put s.md.wlPeriod 0) v be) 0 9) } }
  | 0x080C =>
    judge [inState (afterReplay s)] { s with md := { s.md with
      rewrite := clamp 1 4 (fld (blend (put s.md.rewrite 0) v be) 0 3) } }
  | 0x083C =>
    judge [inState (afterReplay s)] { s with md := { s.md with injAddr := blend s.md.injAddr v be &&& 0xBFFFFFFF } }
  | 0x0840 =>
    let w := blend (put s.md.injCount.toNat 0 ||| putB s.md.injStored 7) v be
    judge [inBound (decide (fld w 0 4 ≤ 12)), inState (afterReplay s), inState (!bit m 8 || injectOk s)]
      { s with md := { s.md with
          injCount := BitVec.ofNat 4 (fld w 0 4), injStored := bit w 7, injArmed := s.md.injArmed || bit m 8 } }
  | _ => .taken s

/-! ### CT (03) -/

/-- A hold slot waits for a write to the slot's cartridge. -/
def boundTo (s : State) (x : Slot) : Bool := s.pc.slots.any fun h => h.left.any fun l => decide (l.1 = x)

/-- RELEASE may be given (Table 3.9). -/
def releaseState (s : State) (x : Slot) : Bool := usualField s || (decide (s.pw.state = .rest) && !boundTo s x)

/-- CT_CTRL's stored fields as a word (Table 3.11). -/
def ctCtrl (t : CtSlot) : Word := putB t.selLevel 6 ||| put t.indicator.toNat 4 ||| putB t.svSoft 3

/-- The stored fields of CT_CTRL (Table 3.11); a change of INDICATOR owes the supervisor an INDICATOR command. -/
def storeCtCtrl (x : Slot) (w : Word) (s : State) : State :=
  let t := s.slot x
  let lamp := decide (fld w 4 2 ≠ t.indicator.toNat) && authed t
  let s := modSlot x (fun t => { t with
    selLevel := bit w 6, indicator := BitVec.ofNat 2 (fld w 4 2), svSoft := bit w 3
    softSince := if bit w 3 && !t.svSoft then s.now else t.softSince }) s
  if lamp then wantSv x 0x08 s else s

/-- The payload of a pass-through: the FIFO's bytes, with free bytes where it holds fewer (log 4). -/
def svPayload (s : State) (have' : List Byte) (len : Nat) : List Byte :=
  have'.take len ++ (List.range (len - have'.length)).map fun k => Config.freeBits 8 (s.freeCtr + k)

/-- A command that Table 3.4 lists. -/
def listedOpc (opc : BitVec 7) : Bool := decide (1 ≤ opc.toNat) && decide (opc.toNat ≤ 11)

/-- A pass-through starts (R77, Table 3.16). An unlisted command has a free result; with no cartridge seated nothing answers, and
R76 ends it. -/
def passThrough (x : Slot) (opc : BitVec 7) (len : Nat) (s : State) : State :=
  let t := s.slot x
  let payload := svPayload s t.svFifo len
  let done := fun (res : BitVec 8) (s : State) =>
    modSlot x (fun t => { t with svFifo := [], svBusy := false, svRes := res, svLen := 0 }) s
  if !listedOpc opc then nextFree (done (freeOf 8 s) s)
  else
    let s := { s with freeCtr := s.freeCtr + (len - t.svFifo.length) }
    let s := modSlot x (fun t => { t with svFifo := [], svBusy := true, svRes := 0, svLen := 0, passthrough := some (opc, payload) }) s
    if t.cart.isSome || t.outstanding.isSome then s
    else modSlot x (fun t => { t with
      outstanding := some { opc := opc, payload := payload, toggle := !t.toggle, repeats := 3, cycle := s.now, extra := [], soft := true }
      toggle := !t.toggle }) s

/-- The per-slot registers (Tables 3.10 to 3.16). -/
def writeCt (x : Slot) (off : Nat) (be : BitVec 4) (v : Word) (s : State) : Judged :=
  let m := v &&& byteMask be
  let t := s.slot x
  if off = slotBase x then judge [inState (afterReplay s)] (modSlot x (fun t => { t with wrongState := w1c t.wrongState m 11 }) s)
  else if off = slotBase x + 0x04 then
    let w := blend (ctCtrl t) v be
    let rel := bit m 0
    let re := bit m 1
    let s' := storeCtCtrl x w s
    let s' := if rel then beginRelease x s' else s'
    judge [inBound (!(rel && re)), inState (afterReplay s), inState (!(bit w 3 && !t.svSoft) || notTest s),
           inState (!rel || (releaseState s x && releaseOk s x)), inState (!re || (notTest s && reauthOk s x))]
      (if re then reauth x s' else s')
  else if off = slotBase x + 0x34 then
    judge [inBound (decide (fld m 8 7 ≤ 64)), inState (afterReplay s), inState (!t.svBusy),
           permitted (!engineOnly (BitVec.ofNat 7 (fld m 0 7)))]
      (passThrough x (BitVec.ofNat 7 (fld m 0 7)) (fld m 8 7) s)
  else if off = slotBase x + 0x38 then
    let bytes := (enabledBytes 0 be v).map fun e => e.2
    judge [inState (afterReplay s)] (modSlot x (fun t => { t with svFifo := (t.svFifo ++ bytes).take 64 }) s)
  else .taken s

/-! ### The duet's registers (03) -/

/-- ABORT and CUT of a migration (Table 3.8). -/
def abortOk (s : State) : Bool := (usualField s || decide (s.pw.state = .rest)) && decide (s.duet.state = .migrateCopy) && !s.duet.noAbort
def cutOk (s : State) : Bool := usual s && decide (s.duet.state = .migrateCopy)

/-- CUT is given (Table 3.8): a copy that waits for it enters the cut-over. -/
def giveCut (s : State) : State :=
  let s := { s with duet := { s.duet with cutGiven := true } }
  if s.duet.cutPending then enterCut s else s

/-- CT_DUET_STATUS, the commands of CT_DUET_CTRL, CT_DUET_CFG and CT_MIG_PERIOD (Tables 3.17 to 3.19). -/
def writeDuet (off : Nat) (be : BitVec 4) (v : Word) (s : State) : Judged :=
  let m := v &&& byteMask be
  match off with
  | 0x0D00 => judge [inState (afterReplay s)] { s with duet := { s.duet with wrongState := w1c s.duet.wrongState m 10 } }
  | 0x0D04 =>
    let s' := if bit m 8 then abortMigration 1 s else s
    judge [inState (!bit m 8 || abortOk s), inState (!bit m 9 || cutOk s)] (if bit m 9 && !bit m 8 then giveCut s' else s')
  | 0x0D08 =>
    let w := blend (putB s.duet.manualCut 4 ||| put s.duet.migCh.toNat 0) v be
    judge [inState (notTest s)] { s with duet := { s.duet with
      manualCut := bit w 4, migCh := if fld w 0 4 = 0 then 8 else BitVec.ofNat 4 (fld w 0 4) } }
  | 0x0D0C =>
    judge [inState (notTest s)] { s with duet := { s.duet with
      period := BitVec.ofNat 16 (max 128 (fld (blend (put s.duet.period.toNat 0) v be) 0 16)) } }
  | _ => .taken s

/-! ### TN (05) -/

/-- TN_INDEX of a channel is set (R379). -/
def setIndex (ch : Chan) (i : BitVec 8) (s : State) : State :=
  if ch.mgmt then { s with tn := { s.tn with indexMgmt := i } } else { s with tn := { s.tn with indexHost := i } }

/-- TN_MODE's stored fields (Table 5.8). -/
def tnMode (t : Tenant) : Word := put t.tempo.bits.toNat 4 ||| putB t.persist 0

/-- A TN_MODE write takes effect: what is registered in its cycle meets the mode and tempo before it (R18, R107). Its persistent copy
is due 1 s after the first write (R283). -/
def storeMode (c : Ctx) (w : Word) (s : State) : State :=
  let (persist, tempo) := modeNow s c
  modTenant c (fun t => { t with
    persist := bit w 0, tempo := tempoOf (BitVec.ofNat 2 (fld w 4 2)), modeAt := t.modeAt <|> some s.now
    modeSet := some s.now, wasPersist := persist, wasTempo := tempo }) s

/-- A change from verified to posted may be made now (Table 1.6, R28). -/
def toPostedOk (s : State) : Bool := usualField s && postedOk s

/-- TN_INDEX, TN_STATUS and TN_MODE (Tables 5.7, 5.8); a write of the provider context's TN_MODE is ignored (R134). -/
def writeTn (ch : Chan) (off : Nat) (c : Ctx) (be : BitVec 4) (v : Word) (s : State) : Judged :=
  let m := v &&& byteMask be
  match off with
  | 0x1000 =>
    let old := if ch.mgmt then s.tn.indexMgmt else s.tn.indexHost
    let i := fld (blend (put old.toNat 0) v be) 0 8
    judge [inBound (decide (i ≤ 0x80))] (setIndex ch (BitVec.ofNat 8 i) s)
  | 0x1004 => judge [inState (afterReplay s)] (modTenant c (fun t => { t with wrongState := w1c t.wrongState m 7 }) s)
  | 0x1014 =>
    if c = provider then .taken s
    else
      let t := s.tenant c
      let w := blend (tnMode t) v be
      judge [inBound (decide (fld w 4 2 ≠ 0)), inState (notTest s), inState (!(t.persist && !bit w 0) || toPostedOk s)]
        (storeMode c w s)
  | _ => .taken s

/-! ### LG (06) -/

/-- TIME_SYNC's value (R172). -/
def syncTime (s : State) (hi : Word) : Nat := hi.toNat * 2 ^ 32 + s.lg.syncLo.toNat

/-- The offset lies within the guard of 250 ms (R172). -/
def withinGuard (d : Int) : Bool := decide (-250 ≤ d) && decide (d ≤ 250)

/-- The code a TIME_SYNC is refused with (R172). -/
def syncCode (s : State) (hi : Word) : Option (BitVec 8) :=
  let t := syncTime s hi
  if 2 ^ 32 * 60000 ≤ t then some cRANGE
  else if !afterReplay s || sealing s then some cWRONG_STATE
  else if !withinGuard (syncOffset s t) && (framePending s || s.lg.merging) then some cWRONG_STATE
  else none

/-- An accepted TIME_SYNC: a slew within the guard, a step beyond it (R173, R174). -/
def timeSync (hi : Word) (s : State) : State :=
  let t := syncTime s hi
  let d := syncOffset s t
  if withinGuard d then syncSlew d s else syncStep t d s

/-- LG_SYNC_STAT.ACTION after a refused TIME_SYNC (Table 6.11), with the offset it showed (R172). -/
def syncRefused (hi : Word) (s : State) : State :=
  { s with lg := { s.lg with action := 3, offset := sat32 (syncOffset s (syncTime s hi)) } }

/-- LG_CONSUMED_SEQ takes a value from the present one to LG_SEALED_SEQ (R169). -/
def consumedOk (s : State) (n : Word) : Bool :=
  decide ((n - s.lg.consumed).toNat ≤ (s.lg.sealedSeq - s.lg.consumed).toNat)

/-- LG_TOT_CTRL.LATCH (R182). -/
def latchTotals (s : State) : State :=
  if sealing s then { s with lg := { s.lg with latchBusy := true } }
  else { s with lg := { s.lg with latched := addSums s.lg.cumul s.lg.totals, latchBusy := false } }

/-- LG_STATUS, the sync, LG_CONSUMED_SEQ and LG_TOT_CTRL (Tables 6.10 to 6.12). -/
def writeLg (off : Nat) (be : BitVec 4) (v : Word) (s : State) : Judged :=
  let m := v &&& byteMask be
  match off with
  | 0x1400 => judge [inState (afterReplay s)] { s with lg := { s.lg with
      rangeErr := w1c s.lg.rangeErr m 9, wrongState := w1c s.lg.wrongState m 8 } }
  | 0x1414 => judge [inState (afterReplay s)] { s with lg := { s.lg with syncLo := blend s.lg.syncLo v be } }
  | 0x1418 => judge [syncCode s m] (timeSync m s)
  | 0x1438 =>
    let n := blend s.lg.consumed v be
    judge [inState (afterReplay s), inBound (consumedOk s n)] (ringHigh { s with lg := { s.lg with consumed := n } })
  | 0x1448 => judge [inState (!bit m 0 || afterReplay s)] (if bit m 0 then latchTotals s else s)
  | _ => .taken s

/-! ### DM (07) -/

/-- The software lines pulsed by DM_REQ_SW (Table 7.8). -/
def pulseSw (m : Word) (s : State) : State :=
  [0, 1, 2, 3].foldl (fun s k => if bit m k then pulseLine (8 + k) 1 s else s) s

/-- The global DM registers (Table 7.11). -/
def writeDm (off : Nat) (be : BitVec 4) (v : Word) (s : State) : Judged :=
  let m := v &&& byteMask be
  match off with
  | 0x1800 =>
    let g := s.dm.groupStop &&& ~~~ BitVec.ofNat 4 (fld m 1 4)
    judge [inState (afterReplay s)] { s with dm := { s.dm with groupStop := g, wrongState := w1c s.dm.wrongState m 0 } }
  | 0x1804 =>
    judge [inState (notTest s)] { s with dm := { s.dm with
      lift := BitVec.ofNat 16 (max 64 (fld (blend (put s.dm.lift.toNat 0) v be) 0 16)) } }
  | 0x1808 => judge [inState (afterReplay s)] (pulseSw m s)
  | 0x180C => judge [inState (notTest s)] { s with dm := { s.dm with reqGpio := blend s.dm.reqGpio v be &&& 0xDFDFDFDF } }
  | _ => .taken s

/-- DM_CH_CFG as it reads (Table 7.13); a reserved channel's FORMAT reads G7 (R213). -/
def chCfg (s : State) (n : Fin 32) : Word :=
  let c := s.dm.ch[n]
  put c.burst.toNat 16 ||| put c.reqSel.toNat 12 ||| put c.group.toNat 9 ||| putB c.paced 8 ||| put c.prio.toNat 6
    ||| put c.irq.toNat 4 ||| putB c.g5Barrier 3 ||| putB c.codaEn 2 ||| putB c.persist 1
    ||| putB (c.format || reservedCh s n) 0

/-- A channel with the configuration of a word. -/
def withCfg (w : Word) (c : DmaCh) : DmaCh :=
  { c with
      burst := BitVec.ofNat 5 (fld w 16 5), reqSel := BitVec.ofNat 4 (fld w 12 4), group := BitVec.ofNat 3 (fld w 9 3)
      paced := bit w 8, prio := BitVec.ofNat 2 (fld w 6 2), irq := BitVec.ofNat 2 (fld w 4 2), g5Barrier := bit w 3
      codaEn := bit w 2, persist := bit w 1, format := bit w 0 }

/-- Channel states that take a START, a configuration (Table 7.10); the group's stop bit forbids START to every member (R205). -/
def chStill (c : DmaCh) : Bool := decide (c.state = .idle) || decide (c.state = .halted)
def groupStopped (s : State) (c : DmaCh) : Bool :=
  decide (1 ≤ c.group.toNat) && bit s.dm.groupStop (c.group.toNat - 1)

def startOk (s : State) (n : Fin 32) : Bool :=
  let c := s.dm.ch[n]
  notTest s && !reservedCh s n && chStill c && !groupStopped s c

def fermataOk (s : State) (n : Fin 32) : Bool :=
  afterReplay s && match s.dm.ch[n].state with
    | .fetch | .wait | .active | .barrier | .coda | .starved => true
    | .idle | .holding | .paused | .aborting | .halted => false

def resumeOk (s : State) (n : Fin 32) : Bool := notTest s && decide (s.dm.ch[n].state = .paused)

def chAbortOk (s : State) (n : Fin 32) : Bool :=
  afterReplay s && match s.dm.ch[n].state with
    | .idle | .aborting => false
    | .fetch | .wait | .active | .barrier | .coda | .starved | .holding | .paused | .halted => true

def kickOk (s : State) (n : Fin 32) : Bool := notTest s && decide (s.dm.ch[n].state = .starved)

/-- The commands of DM_CH_CTRL that a word gives: START, then ABORT, which leaves the others of its cycle without an effect (R208),
then the rest in the order of their bits (Table 7.12; log 82). -/
def chCommands (n : Fin 32) (m : Word) (s : State) : State :=
  let s := if bit m 0 then startCh n s else s
  let s := if bit m 3 then abortCh n s else s
  let s := if bit m 1 then fermataCh n s else s
  let s := if bit m 2 then resumeCh n s else s
  if bit m 4 && !bit m 3 then kickCh n s else s

/-- The registers of a channel (Tables 7.12 to 7.14). -/
def writeCh (n : Fin 32) (off : Nat) (be : BitVec 4) (v : Word) (s : State) : Judged :=
  let m := v &&& byteMask be
  let c := s.dm.ch[n]
  let still := inState (notTest s && chStill c)
  let half := fun (x : BitVec 64) (hi : Bool) =>
    let w := blend (if hi then hi32 x.toNat else lo32 x.toNat) v be
    if hi then BitVec.ofNat 64 (w.toNat * 2 ^ 32 + x.toNat % 2 ^ 32) else BitVec.ofNat 64 (x.toNat / 2 ^ 32 * 2 ^ 32 + w.toNat)
  match off - chBase n with
  | 0x00 =>
    judge [inState (!bit m 0 || startOk s n), inState (!bit m 1 || fermataOk s n), inState (!bit m 2 || resumeOk s n),
           inState (!bit m 3 || chAbortOk s n), inState (!bit m 4 || kickOk s n)] (chCommands n m s)
  | 0x04 => judge [inState (afterReplay s)] (modCh n (fun c => { c with wrongState := w1c c.wrongState m 16 }) s)
  | 0x08 =>
    let w := blend (chCfg s n) v be &&& 0x001FFFFF
    let other := decide ((w ^^^ chCfg s n) &&& 0x001FFF3F ≠ 0)
    judge [inBound (decide (1 ≤ fld w 16 5) && decide (fld w 16 5 ≤ 16)), inBound (decide (fld w 9 3 ≤ 4)),
           inBound (decide (fld w 12 4 ≠ 2) || c.copy), still,
           inState (!(reservedCh s n && other))]
      (modCh n (if reservedCh s n then fun c => { c with prio := BitVec.ofNat 2 (fld w 6 2) } else withCfg w) s)
  | 0x0C => judge [still] (modCh n (fun c => { c with head := half c.head false }) s)
  | 0x10 => judge [still] (modCh n (fun c => { c with head := half c.head true }) s)
  | 0x34 =>
    judge [inState (notTest s)] (modCh n (fun c => { c with pending := fld (blend (put c.pending 0) v be) 0 16 }) s)
  | 0x38 => judge [inState (afterReplay s)] (ringBell n (fld m 0 16) s)
  | 0x40 => judge [still] (modCh n (fun c => { c with g5Hi := blend c.g5Hi v be }) s)
  | _ => .taken s

/-! ### HL (08) -/

/-- The aperture slot size is recorded for the next PERST_N release (R223). -/
def storeAperture (n : Nat) (s : State) : State :=
  formSettings .settings 0 { s with hl := { s.hl with slotLog2 := BitVec.ofNat 6 n } }

/-- HL_STATUS and HL_APERTURE (Tables 8.11, 8.13). -/
def writeHl (off : Nat) (be : BitVec 4) (v : Word) (s : State) : Judged :=
  let m := v &&& byteMask be
  match off with
  | 0x3000 => judge [inState (afterReplay s)] { s with hl := { s.hl with wrongState := w1c s.hl.wrongState m 15 } }
  | 0x3008 =>
    judge [inState (notTest s)] (if bit be 0 then storeAperture (clamp 30 37 (fld v 0 6)) s else s)
  | _ => .taken s

/-! ### SP (09) -/

/-- The pin a port's running or held master transaction drives (R360, R261). -/
def drivenPin (p : Sp) : Option (BitVec 5) :=
  match p.txn with
  | some t => if t.autoSel then some t.pin else p.heldSel
  | none => p.heldSel

/-- GPIO1 and GPIO2, which CT owns, by slot (R360). -/
def ctPin (pin : BitVec 5) : Option Slot := if pin = 1 then some .a else if pin = 2 then some .b else none

/-- A GPIO pin is owned by a port (R360). -/
def portOwns (p : Sp) (pin : BitVec 5) : Bool :=
  (!p.master && decide (p.selPin = pin)) || decide (drivenPin p = some pin)

/-- A pin of the bank; the numbers 16 to 31 name none (R358). -/
def realPin (pin : BitVec 5) : Bool := decide (pin.toNat < 16)

/-- SPn_CFG as last written (Table 9.11). -/
def spCfg (p : Sp) : Word :=
  put p.selPin.toNat 8 ||| putB p.mcpol 4 ||| putB p.bulk 2 ||| putB p.crcEn 1 ||| putB (p.modeNext.getD p.master) 0

/-- Both slots are EMPTY. -/
def slotsEmpty (s : State) : Bool := decide (s.ct.a.state = .empty) && decide (s.ct.b.state = .empty)

/-- The other port. -/
def otherPort : Port → Port
  | .p0 => .p1
  | .p1 => .p0

/-- A write of SPn_CFG would give one pin two owners (R360). -/
def pinClash (s : State) (p : Port) (w : Word) : Bool :=
  let pin : BitVec 5 := BitVec.ofNat 5 (fld w 8 5)
  !bit w 0 && realPin pin && ((ctPin pin).isSome || portOwns (s.sp (otherPort p)) pin)

/-- The host's one way to SP0_CFG: MODE from 1 to 0 and nothing else (R245). -/
def hostModeOnly (old w : Word) : Bool := bit old 0 && !bit w 0 && decide ((old ^^^ w) = 1)

/-- The codes of an SPn_CFG write (R245, R360). -/
def cfgCodes (s : State) (ch : Chan) (p : Port) (w : Word) : List (Option (BitVec 8)) :=
  let old := spCfg (s.sp p)
  [permitted (decide (p = .p1) || decide (ch = .sp0) || hostModeOnly old w), permitted (!pinClash s p w),
   inState (decide (p = .p0) || decide (bit old 0 = bit w 0) || slotsEmpty s)]

/-- SPn_CFG stored (R245, R257): MODE waits for the port to be free; a change of MODE, UNIT or CRC_EN empties the replay copy. -/
def storeSpCfg (p : Port) (w : Word) : State → State :=
  modSp p fun q =>
    let mode := bit w 0
    let same := decide (bit w 2 = q.bulk) && decide (bit w 1 = q.crcEn) && decide (mode = q.modeNext.getD q.master)
    { q with
        selPin := BitVec.ofNat 5 (fld w 8 5), mcpol := bit w 4, bulk := bit w 2, crcEn := bit w 1
        modeNext := if mode = q.master then none else some mode, copy := if same then q.copy else none }

/-- SPn_MSTATUS.MBUSY: a transaction runs (R261). -/
def Sp.mbusy (p : Sp) : Bool := p.txn.isSome

/-- The select pin of a transaction is one the port may drive (R262, R360). -/
def txPinOk (s : State) (p : Port) (auto : Bool) (pin : BitVec 5) : Bool :=
  let ct := fun (k : BitVec 5) => match ctPin k with
    | some x => (s.slot x).svSoft
    | none => true
  let held := ((s.sp p).heldSel.elim true ct)
  let mine := !auto || (ct pin && (!realPin pin || !portOwns (s.sp (otherPort p)) pin))
  held && mine

/-- A pin of the bank takes a level that a port's select has: PW_GPIO_IN and the request lines see it (R360). -/
def selectLevel (pin : BitVec 5) (level : Bool) (s : State) : State :=
  if h : pin.toNat < 16 then gpioEdge ⟨pin.toNat, h⟩ level s else s

/-- SPn_MCMD starts a transaction (R261, Table 9.13): with AUTO_SEL its select falls. -/
def startTxn (p : Port) (w : Word) (s : State) : State :=
  let pin : BitVec 5 := BitVec.ofNat 5 (fld w 16 5)
  let s := modSp p (fun q => { q with
    txn := some { len := fld w 0 13, autoSel := bit w 21, pin := pin, holdSel := bit w 22, noRx := bit w 23
                  start := s.now } }) s
  if bit w 21 then selectLevel pin false s else s

/-- Bytes pushed into a FIFO of 256: those beyond its room are discarded (R263). -/
def pushBytes (fifo bytes : List Byte) : List Byte × Bool :=
  ((fifo ++ bytes).take 256, decide (256 < fifo.length + bytes.length))

/-- The access is the port's remote side: its own slave frame (R263). -/
def remoteSide (ch : Chan) (p : Port) : Bool := (decide (ch = .sp0) && decide (p = .p0)) || (decide (ch = .sp1) && decide (p = .p1))

/-- Bytes written to SPn_DATA: the remote side pushes RX, the local side TX (R263). -/
def pushSp (remote : Bool) (p : Port) (bytes : List Byte) : State → State :=
  modSp p fun q =>
    if remote then
      let (l, lostB) := pushBytes q.rx bytes
      { q with rx := l, overrun := q.overrun || lostB }
    else
      let (l, lostB) := pushBytes q.tx bytes
      { q with tx := l, overrun := q.overrun || lostB }

/-- `n` bytes popped: 0x00 and UNDERRUN for each that is not there (R263). -/
def popBytes (fifo : List Byte) (n : Nat) : List Byte × List Byte × Bool :=
  (fifo.take n ++ List.replicate (n - fifo.length) 0, fifo.drop n, decide (fifo.length < n))

/-- Bytes read from SPn_DATA: the remote side pops TX, the local side RX (R263). -/
def popSp (remote : Bool) (p : Port) (n : Nat) (s : State) : State × List Byte :=
  let q := s.sp p
  let (bytes, rest, under) := popBytes (if remote then q.tx else q.rx) n
  (modSp p (fun q => if remote then { q with tx := rest, underrun := q.underrun || under }
    else { q with rx := rest, underrun := q.underrun || under }) s, bytes)

/-- The engine's state permits a write of a port's registers (Table 9.9): in BOOT and REPLAY only SP0's frames to its own block. -/
def spOpen (s : State) (ch : Chan) (p : Port) : Bool :=
  afterReplay s || (decide (ch = .sp0) && decide (p = .p0))

/-- A DIV as it is stored (Table 9.13). -/
def storedDiv (n : Nat) : Nat := let d := clamp 16 4096 n; d + d % 2

/-- The SP registers (Tables 9.10 to 9.14). -/
def writeSp (p : Port) (ch : Chan) (off : Nat) (be : BitVec 4) (v : Word) (s : State) : Judged :=
  let m := v &&& byteMask be
  let q := s.sp p
  let opened := inState (spOpen s ch p)
  let noTest := inState (spOpen s ch p && decide (s.pw.state ≠ .test))
  match off - spBase p with
  | 0x00 => judge [opened] (modSp p (fun q => { q with
      wrongState := w1c q.wrongState m 15, overrun := w1c q.overrun m 14, underrun := w1c q.underrun m 13
      crcSeen := w1c q.crcSeen m 12, rejectSeen := w1c q.rejectSeen m 11 }) s)
  | 0x04 =>
    let w := blend (spCfg q) v be &&& 0x00001F17
    judge (opened :: cfgCodes s ch p w) (storeSpCfg p w s)
  | 0x08 =>
    let n := fld (blend (put q.length.toNat 0) v be) 0 13
    judge [inBound (decide (1 ≤ n) && decide (n ≤ 4096)), opened] (modSp p (fun q => { q with length := BitVec.ofNat 13 n }) s)
  | 0x10 => judge [opened] (pushSp (remoteSide ch p) p ((enabledBytes 0 be v).map fun e => e.2) s)
  | 0x18 =>
    let w := blend (put q.txThresh.toNat 16 ||| put q.rxThresh.toNat 0) v be
    let busy := q.mbusy || q.inFrame
    judge [noTest, inState (!((bit m 24 || bit m 25) && busy))] (modSp p (fun q => { q with
      txThresh := BitVec.ofNat 8 (max 1 (fld w 16 8)), rxThresh := BitVec.ofNat 8 (max 1 (fld w 0 8))
      tx := if bit m 25 then [] else q.tx, rx := if bit m 24 then [] else q.rx }) s)
  | 0x1C =>
    let w := blend (putB q.doneIrq 16 ||| put q.div.toNat 0) v be
    judge [noTest] (modSp p (fun q => { q with doneIrq := bit w 16, div := BitVec.ofNat 16 (storedDiv (fld w 0 16)) }) s)
  | 0x20 =>
    judge [inBound (decide (1 ≤ fld m 0 13) && decide (fld m 0 13 ≤ 4096)), noTest, inState (q.master && !q.mbusy),
           permitted (txPinOk s p (bit m 21) (BitVec.ofNat 5 (fld m 16 5)))] (startTxn p m s)
  | _ => .taken s

/-! ### KS (10) -/

/-- KS_STATUS, KS_CTRL's commands, KS_ADDR and KS_WDATA (Tables 10.10 to 10.12). -/
def writeKs (ch : Chan) (off : Nat) (be : BitVec 4) (v : Word) (s : State) : Judged :=
  let m := v &&& byteMask be
  match off with
  | 0x3800 => judge [inState (afterReplay s)] { s with ks := { s.ks with
      wrongState := w1c s.ks.wrongState m 9, expired := w1c s.ks.expired m 8, uncorrSeen := w1c s.ks.uncorrSeen m 7
      corrSeen := w1c s.ks.corrSeen m 6 } }
  | 0x3804 => judge [inState (!(bit m 0 || bit m 1) || notTest s)] (ksCommand ch.mgmt (bit m 0) (bit m 1) s)
  | 0x3808 => .taken (setKsAddr ch.mgmt (fld (blend (put (ksAddr s ch.mgmt) 0) v be) 2 14 * 4) s)
  | 0x3810 => judge [inState (notTest s), wdataCode s ch.mgmt] (wdata ch.mgmt be v s)
  | _ => .taken s

/-! ### BT (11) -/

/-- RUN and the settings of a run may be written (Table 11.6). -/
def runOk (s : State) : Bool :=
  usual s || decide (s.pw.state = .rest) || (decide (s.pw.state = .test) && decide (s.bt.run = 3) && !s.bt.fuseBusy)
def btSetOk (s : State) : Bool := notTest s || (decide (s.pw.state = .test) && !btRunning s)

/-- The BT registers (Table 11.7). A run's settings may be rewritten with their own values while it runs. -/
def writeBt (off : Nat) (be : BitVec 4) (v : Word) (s : State) : Judged :=
  let m := v &&& byteMask be
  match off with
  | 0x3C00 => judge [inState (afterReplay s)] { s with bt := { s.bt with
      wrongState := w1c s.bt.wrongState m 11, repaired := w1c s.bt.repaired m 10 } }
  | 0x3C04 =>
    let stay := bit (blend (putB s.bt.stay 3) v be) 3
    let s' := { s with bt := { s.bt with stay := stay } }
    let s' := if bit m 2 then exitTests s' else s'
    let s' := if bit m 1 then stopTests s' else s'
    judge [inBound (!(bit m 0 && maskBad s.bt.mask)), inState (decide (stay = s.bt.stay) || btSetOk s), inState (!bit m 0 || runOk s),
           inState (!bit m 1 || (decide (s.pw.state = .test) && btRunning s)),
           inState (!bit m 2 || (decide (s.pw.state = .test) && decide (s.bt.run = 3)))]
      (if bit m 0 then runTests s' else s')
  | 0x3C08 => judge [inState (btSetOk s)] { s with bt := { s.bt with mask := blend s.bt.mask v be &&& 0x000307FF } }
  | 0x3C24 =>
    judge [inState (btSetOk s)] { s with bt := { s.bt with sel := BitVec.ofNat 4 (fld (blend (put s.bt.sel.toNat 0) v be) 0 4) } }
  | _ => .taken s

/-! ### PW (12, 14) -/

/-- PW_GPIO_OWN (R360). -/
def gpioOwned (s : State) (k : Nat) : Bool :=
  decide (k = 1 ∨ k = 2) || portOwns s.sp0 (BitVec.ofNat 5 k) || portOwns s.sp1 (BitVec.ofNat 5 k)

/-- Output pins that no unit owns take their PW_GPIO_OUT level; a level that changes is an edge for the request lines (R360). -/
def drivePins (s : State) : State :=
  (indices 16).foldl (fun s (k : Fin 16) =>
    if bit s.pw.gpioDir k.val && !gpioOwned s k.val then gpioEdge k (bit s.pw.gpioOut k.val) s else s) s

/-- QUIET_EN stored: ACTIVE and QUIET follow it (R317). -/
def setQuiet (on : Bool) (s : State) : State :=
  let s := { s with pw := { s.pw with quietEn := on } }
  if usual s then goState (activeOrQuiet s) 0 s else s

/-- HIBERNATE may be requested (R323, Table 12.10). -/
def hibernateState (s : State) : Bool := usual s || (decide (s.pw.state = .rest) && !restHeld s)

/-- A GPIO register's 16 bits. -/
def gpioWord (old : BitVec 16) (v : Word) (be : BitVec 4) : BitVec 16 := BitVec.ofNat 16 (fld (blend (put old.toNat 0) v be) 0 16)

/-- The PW registers (Tables 12.11, 14.14 to 14.16). -/
def writePw (off : Nat) (be : BitVec 4) (v : Word) (s : State) : Judged :=
  let m := v &&& byteMask be
  match off with
  | 0x4000 => judge [inState (afterReplay s)] { s with pw := { s.pw with wrongState := w1c s.pw.wrongState m 13 } }
  | 0x4004 =>
    let s' := setQuiet (bit (blend (putB s.pw.quietEn 0) v be) 0) s
    let s' := if bit m 1 then armStandby s' else s'
    let s' := if bit m 3 then disarm s' else s'
    judge [inState (afterReplay s), inState (!bit m 1 || (usual s && lowPowerOk s)), inState (!bit m 3 || usual s),
           inState (!bit m 2 || (hibernateState s && lowPowerOk s))]
      (if bit m 2 then hibernate s' else s')
  | 0x4008 => judge [inState (afterReplay s)] { s with pw := { s.pw with wakeEn := blend s.pw.wakeEn v be &&& 0x1FF } }
  | 0x400C => judge [inState (afterReplay s)] { s with pw := { s.pw with wakeAfter := blend s.pw.wakeAfter v be } }
  | 0x4024 =>
    judge [inState (afterReplay s)] { s with pw := { s.pw with
      quietIdle := BitVec.ofNat 16 (max 16 (fld (blend (put s.pw.quietIdle.toNat 0) v be) 0 16)) } }
  | 0x4028 => judge [inState (afterReplay s)] { s with pw := { s.pw with thermTrip := w1c s.pw.thermTrip m 8 } }
  | 0x4040 => judge [inState (afterReplay s)] (drivePins { s with pw := { s.pw with gpioDir := gpioWord s.pw.gpioDir v be } })
  | 0x4044 => judge [inState (afterReplay s)] (drivePins { s with pw := { s.pw with gpioOut := gpioWord s.pw.gpioOut v be } })
  | 0x4050 => judge [inState (afterReplay s)] { s with pw := { s.pw with gpioPull := gpioWord s.pw.gpioPull v be } }
  | _ => .taken s

/-! ### EV (13) -/

/-- EV_RD_SEQ may be set to a value from EV_WR_SEQ − 1024 to EV_WR_SEQ (R342). -/
def rdSeqOk (s : State) (n : Word) : Bool := decide ((lo32 s.ev.wrSeq - n).toNat ≤ 1024)

/-- The sequence number that a register value names, near EV_WR_SEQ (R342). -/
def seqNear (wr : Nat) (n : Word) : Nat := wr - (lo32 wr - n).toNat

/-- EV_POP's count (Table 13.9). -/
def popCount (m : Word) : Nat := if fld m 0 11 = 0 then 1 else min 1024 (fld m 0 11)

/-- EV_POP advances the view's read position, never past EV_WR_SEQ (R342). -/
def popView (k wr : Nat) (v : EvView) : EvView := { v with rdSeq := min wr (v.rdSeq + k) }

/-- A route as it is stored: TENANT of PWF and POISON_MERGE cannot be cleared (R346). -/
def storedRoute (code : BitVec 8) (r : BitVec 8) : BitVec 8 :=
  if code = cPWF ∨ code = cPOISON_MERGE then r ||| rT else r

/-- EV_MOD's fields above 1000 are stored as 1000 (Table 13.9). -/
def storedMod (w : Word) : Word :=
  put (min 1000 (fld w 20 10)) 20 ||| put (min 1000 (fld w 10 10)) 10 ||| put (min 1000 (fld w 0 10)) 0

/-- EV_TRACE_SEL as a word (Table 13.9). -/
def traceSel (s : State) : Word := putB s.ev.selCart 31 ||| put s.ev.selIndex.toNat 0

/-- A line of the trace area of a cartridge that takes the spills (R353). -/
def traceAreaLine (s : State) (line : Nat) : Option Line :=
  (serving s).findSome? fun x => (s.slot x).cart.bind fun c => look line c.trace

/-- The entry in a spilled line's place `k` (R353). -/
def spilledEntry (l : Line) (k : Nat) : TrEntry :=
  let b := (lineBytes l).drop (16 + 16 * k)
  let n := fun lo len => ofLe ((b.drop lo).take len)
  ⟨n 0 6, BitVec.ofNat 8 (n 6 1), BitVec.ofNat 8 (n 7 1), BitVec.ofNat 32 (n 8 4), BitVec.ofNat 32 (n 12 4)⟩

/-- The SRAM entry at an index of the ring of 4096 (R352); one not written yet is EMPTY. -/
def sramEntry (s : State) (i : Nat) : TrEntry :=
  let back := (s.ev.trPos + 4095 - i) % 4096
  if back < s.ev.trace.length then s.ev.trace.getD (s.ev.trace.length - 1 - back) emptyEntry else emptyEntry

/-- The selected entry is latched; one of the trace area with its line's SPILL_SEQ (Table 13.9). -/
def fetchTrace (s : State) : State :=
  if s.ev.selCart then
    let l := (traceAreaLine s (s.ev.selIndex.toNat / 3)).getD 0
    { s with ev := { s.ev with
        fetching := false, data := some (spilledEntry l (s.ev.selIndex.toNat % 3)), lineSeq := wordOf (lineBytes l) } }
  else { s with ev := { s.ev with fetching := false, data := some (sramEntry s (s.ev.selIndex.toNat % 4096)) } }

/-- The EV registers (Table 13.9). A serial write of EV_TRACE_SEL fetches the entry it selects (R252). -/
def writeEv (ch : Chan) (off : Nat) (be : BitVec 4) (v : Word) (s : State) : Judged :=
  let m := v &&& byteMask be
  let opened := inState (afterReplay s)
  match off with
  | 0x4400 => judge [opened] { s with ev := { s.ev with wrongState := w1c s.ev.wrongState m 5 } }
  | 0x4408 =>
    let n := blend (lo32 (evView s ch).rdSeq) v be
    judge [opened, inBound (rdSeqOk s n)] (modView ch (fun x => { x with rdSeq := seqNear s.ev.wrSeq n }) s)
  | 0x440C => judge [opened] (modView ch (popView (popCount m) s.ev.wrSeq) s)
  | 0x4414 =>
    judge [opened] { s with ev := { s.ev with routeIdx := BitVec.ofNat 8 (fld (blend (put s.ev.routeIdx.toNat 0) v be) 0 8) } }
  | 0x4418 =>
    let code := s.ev.routeIdx
    let r := storedRoute code (BitVec.ofNat 8 (fld (blend (put (routeOf s code).toNat 0) v be) 0 8))
    judge [opened] { s with ev := { s.ev with routes := insertKey code.toNat r s.ev.routes } }
  | 0x441C => judge [opened] { s with ev := { s.ev with mod := storedMod (blend s.ev.mod v be) } }
  | 0x4420 =>
    judge [opened] { s with ev := { s.ev with
      traceEn := BitVec.ofNat 13 (fld (blend (put s.ev.traceEn.toNat 0) v be) 0 13) ||| 0x980 } }
  | 0x4424 => judge [opened] (trace 0x06 (BitVec.ofNat 8 ch.num) m 0 s)
  | 0x4430 =>
    let w := blend (traceSel s) v be
    let s' := { s with ev := { s.ev with selCart := bit w 31, selIndex := BitVec.ofNat 18 (fld w 0 18) } }
    judge [opened] (if ch = .sp0 ∨ ch = .sp1 then fetchTrace s' else s')
  | _ => .taken s

/-! ### CS (05) -/

/-- The code a WITHDRAW is refused with (Table 5.6); a change past its window has lapsed (R154). -/
def withdrawCode (s : State) (mgmt : Bool) : Option (BitVec 8) :=
  if !afterReplay s then some cWRONG_STATE
  else if (windowLapse s).cs.state ≠ .opened then some cWRONG_STATE
  else permitted (decide (s.cs.mgmt = mgmt))

/-- The code a SECRET_COMMIT is refused with (Table 5.6, R149). -/
def secretState (s : State) (mgmt : Bool) : Option (BitVec 8) :=
  if notTest s then secretCode s mgmt else some cWRONG_STATE

/-- A word of the writing channel's secret buffer (R149). -/
def setSecret (mgmt : Bool) (k : Fin 8) (be : BitVec 4) (v : Word) (s : State) : State :=
  if mgmt then { s with cs := { s.cs with secretMgmt := modAt s.cs.secretMgmt k fun w => blend w v be } }
  else { s with cs := { s.cs with secretHost := modAt s.cs.secretHost k fun w => blend w v be } }

/-- LAST_RESULT of the countersign unit (Table 5.11). -/
def csResult (code : BitVec 8) (s : State) : State := { s with cs := { s.cs with lastResult := code } }

/-- A write of CS_TAG_HI that is not refused (R153). -/
def tagWritten (o : TagOutcome) (s : State) : State :=
  match o with
  | .refused _ _ => s
  | .bad => badTag s
  | .failed code => refuseChange code s
  | .committing => commitChange s

/-- The CS registers (Table 5.11). CS_TAG_LO is a buffer that the spec gives no legality of its own: it takes a write of either channel
in every state that takes CS writes, and only CS_TAG_HI is judged (DESIGN CHOICE, log 143). -/
def writeCs (ch : Chan) (off : Nat) (be : BitVec 4) (v : Word) (s : State) : Judged :=
  let m := v &&& byteMask be
  if inRange off 0x4840 0x485C then
    judge [inState (afterReplay s)] (setSecret ch.mgmt ⟨(off - 0x4840) / 4 % 8, by omega⟩ be v s)
  else match off with
  | 0x4800 => judge [inState (afterReplay s)] { s with cs := { s.cs with wrongState := w1c s.cs.wrongState m 8 } }
  | 0x4818 => judge [inState (afterReplay s)] { s with cs := { s.cs with tagLo := blend s.cs.tagLo v be } }
  | 0x481C => match tagOutcome s ch.mgmt m with
    | .refused code _ => .refused code
    | o => .taken (tagWritten o s)
  | 0x4820 =>
    let s' := if bit m 0 then lapse 3 s else s
    judge [if bit m 0 then withdrawCode s ch.mgmt else none, if bit m 1 then secretState s ch.mgmt else none]
      (if bit m 1 then secretCommit ch.mgmt s' else s')
  | _ => .taken s

end Sys2Proof.Machine
end

