-- ==== Sys2Proof/Machine/RegRead.lean ====
section
/-! DEFINITION. What a read of a register returns, unit by unit, and what it does: latched halves, read-to-clear fields
and FIFO pops (Tables 1.7–14.16, 15.2–15.9; R6, R8, R381, R385). -/

namespace Sys2Proof.Machine

/-! ### GL (00, 02) -/

/-- GL_PARTS (Table 0.7, R15, R16). -/
def glParts (s : State) : Word :=
  putB s.hl.effCxl 12 ||| put s.ct.b.typeCode.toNat 8 ||| put s.ct.a.typeCode.toNat 4 ||| putB s.ct.b.present 1 ||| putB s.ct.a.present 0

/-- A bank's domain is gated (Table 12.3). -/
def bankGated (s : State) (b : Nat) : Bool :=
  let t := if b < 128 then s.ct.a else s.ct.b
  let last := s.gl.bankLast[(⟨b % 256, Nat.mod_lt _ (by decide)⟩ : Fin 256)]
  decide (t.state = .empty) || decide (t.link = .down)
    || (decide (s.pw.state = .quiet) && decide (last + s.pw.quietIdle.toNat ≤ s.now))

/-- A channel's domain is gated (Table 12.3). -/
def ChState.gated : ChState → Bool
  | .idle | .paused | .starved | .halted => true
  | .fetch | .wait | .active | .barrier | .coda | .holding | .aborting => false

/-- A clock domain of Table 2.1 is gated (R48, R318). BOOT and REPLAY gate nothing; the crypto lanes 1 to 3 work within a
command, so that every edge a register shows finds them idle. -/
def gated (s : State) (d : Nat) : Bool :=
  !booting s &&
    (if d < 256 then bankGated s d
     else if d < 288 then (s.dm.ch[(⟨(d - 256) % 32, Nat.mod_lt _ (by decide)⟩ : Fin 32)]).state.gated
     else if d = 292 then decide (s.ct.a.link = .down)
     else if d = 293 then decide (s.ct.b.link = .down)
     else if d = 301 then s.bt.running.isEmpty
     else decide (307 ≤ d ∧ d ≤ 309))

/-- GL_DOMAIN_GATEk (Table 2.13). -/
def gateWord (s : State) (k : Nat) : Word :=
  (List.range 32).foldl (fun w b => if gated s (32 * k + b) then w ||| put 1 b else w) 0

/-- GL_CLK (Table 2.11). -/
def glClk (s : State) : Word := putB s.gl.holdover 2 ||| putB s.gl.refOk 1 ||| putB s.gl.lock 0

/-- GL_TAG_COUNT (Table 2.14, R56). -/
def tagCount (s : State) : Word := put s.gl.tags.length 16 ||| put (1024 - s.gl.tags.length) 0

/-- The longest wait in progress at the DMA channel arbiter (Table 2.19). -/
def dmaWait (s : State) : Nat :=
  greatest (fun (n : Fin 32) => let c := s.dm.ch[n]; if eligible s c then c.liftCount + c.age else 0) (indices 32)

/-- The longest wait in progress at each class of arbiter (Table 2.19). -/
def waitsNow (s : State) : List (BitVec 8 × Nat) :=
  [(0, waitAt s .tag), (1, greatest (fun i => waitAt s (.bank i)) (indices 256)), (2, waitAt s .egress), (3, dmaWait s),
   (4, waitAt s .crypto)]

/-- The longest wait in progress, with its class; in a tie the lower class. -/
def waitNow (s : State) : BitVec 8 × Nat :=
  (waitsNow s).foldl (fun m w => if m.2 < w.2 then w else m) (0, 0)

/-- GL_ARB_MAXWAIT (Table 2.19): the recorded wait, or one in progress that is longer. -/
def arbMaxWait (s : State) : Word :=
  let (cls, n) := waitNow s
  if s.gl.maxGrants < n then put cls.toNat 24 ||| put (sat 16 n) 0
  else put s.gl.maxArb.toNat 24 ||| put (sat 16 s.gl.maxGrants) 0

/-- GL_STALL (Table 2.18). -/
def glStall (g : Stall) : Word :=
  putB g.wrongState 5 ||| putB g.hol 4 ||| putB g.fieldPersist 3 ||| putB g.selfTarget 2 ||| putB g.hostService 1 ||| putB g.hostCredit 0

def readGl (off : Nat) (s : State) : Word :=
  match off with
  | 0x0000 => 0x72084807
  | 0x0004 => 0x00004200
  | 0x0008 => glParts s
  | 0x0010 => glClk s
  | 0x0014 => lo32 (glCycle s)
  | 0x0018 => s.gl.cycleHi
  | 0x0048 => tagCount s
  | 0x004C => put s.gl.tagPeak 0
  | 0x0054 => put s.gl.ageLimit.toNat 0
  | 0x0058 => glStall s.gl.stall
  | 0x005C => arbMaxWait s
  | _ => if inRange off 0x0020 0x0044 then gateWord s ((off - 0x0020) / 4) else 0

/-! ### PC (01) -/

/-- BACKPRESSURE: the dirty slots stand at the effective cap (R26); while energy forces service at the verified point there is none. -/
def backpressure (s : State) : Bool := decide (capLines s ≤ dirty s) && !goesDirect s

/-- PC_STATUS (Table 1.7). -/
def pcStatus (s : State) : Word :=
  let t := holdTarget s
  putB t.isSome 9 ||| putB (decide (t = some .b)) 8 ||| putB (backpressure s) 7
    ||| putB s.pc.wrongState 5 ||| putB s.pc.lastDrainOk 4 ||| putB s.pc.replayPending 3 ||| putB (decide (s.pw.state = .replay)) 2
    ||| putB s.pc.degraded 1 ||| putB (postedOk s) 0

/-- The SEQ field of PC_FLUSH (R23). -/
def flushSeq (s : State) (f : Flush) : BitVec 31 := BitVec.ofNat 31 (durableAsn s f)

/-- PC_FLUSH's word (Table 1.14). -/
def flushWord (done : Bool) (seq : BitVec 31) : Word := put seq.toNat 1 ||| putB done 0

/-- A serial read of PC_FLUSH: the writes admitted before it, and no flush (Table 1.14). -/
def serialFlush (s : State) : Word :=
  let f := { newFlush .serial none none s with reqs := [] }
  flushWord (flushDurable s f) (flushSeq s f)

def readPc (off : Nat) (s : State) : Word :=
  match off with
  | 0x0400 => pcStatus s
  | 0x0404 => put (effSteps s) 16 ||| put s.pc.live 8 ||| put s.pc.sized 0
  | 0x0408 => put s.pc.limit 0
  | 0x040C => put (dirty s) 0
  | 0x0410 => put (slotsFree s) 0
  | 0x0414 => put (slotsFenced s) 0
  | 0x0418 => put (sat 8 s.pc.esrMohm) 16 ||| put (sat 16 s.pc.capUf) 0
  | 0x041C => put s.pc.charge10mv.toNat 16 ||| put s.pc.live10mv.toNat 0
  | 0x0420 => put (sat 20 (s.pc.availNj / 1000)) 0
  | 0x0424 => put (sat 20 ((rsvdNj s + 999) / 1000)) 0
  | 0x0428 => serialFlush s
  | 0x042C => put s.pc.dirtyCount.toNat 0
  | 0x0430 => put (sat 18 s.pc.replayCount) 0
  | 0x0434 => put (sat 18 s.pc.replayLost) 0
  | 0x0438 => put s.pc.lowwater.toNat 0
  | 0x0440 => lo32 s.pc.asn
  | _ => 0

/-! ### MD (04) -/

/-- The header of a slot's cartridge has been read: classification is over (R81). -/
def headerOf (s : State) (x : Slot) : Option Cart :=
  match (s.slot x).state with
  | .spare | .inService | .releasing | .failed => (s.slot x).cart
  | _ => none

/-- The most spares used in one bank (Table 4.18). -/
def maxSpares (c : Cart) : Nat := greatest (sparesUsed c) (upTo 128)

/-- MD_RELOC_x (Table 4.18). -/
def relocWord (s : State) (x : Slot) (fails : Nat) : Word :=
  let (most, all) := (headerOf s x).elim (0, 0) fun c => (maxSpares c, c.relocs.length)
  put (sat 7 fails) 25 ||| put most 16 ||| put all 0

/-- The duration of a registered inhibit in ms (Table 4.20, R385). -/
def inhibitMs (s : State) (x : Slot) : Nat := (inhibitedAt s x).elim 0 fun c => (s.now - c) / ms

/-- MD_FIELD_x (Table 4.20). -/
def fieldWord (s : State) (x : Slot) : Word :=
  let (longest, count) := match x with
    | .a => (s.md.longestA, s.md.inhibitsA)
    | .b => (s.md.longestB, s.md.inhibitsB)
  put (sat 16 (max longest (inhibitMs s x))) 16 ||| put (sat 16 count) 0

/-- Entries of a slot's re-verify list (R128). -/
def reverify (s : State) (x : Slot) : Nat := (s.md.writes.filter fun w => w.held && decide (w.slot = x)).length

def readMd (off : Nat) (s : State) : Word :=
  let m := s.md
  match off with
  | 0x0800 => putB m.wrongState 5 ||| putB (spareLow s) 4 ||| putB m.scrubActive 3 ||| putB (decide (s.pw.state = .fieldHold)) 2
      ||| putB m.inhB.isSome 1 ||| putB m.inhA.isSome 0
  | 0x0804 => putB m.scrubPause 1
  | 0x0808 => put m.wlPeriod 0
  | 0x080C => put m.rewrite 0
  | 0x0810 => put m.passes.toNat 16 ||| put m.progress.toNat 0
  | 0x0814 => put (sat 32 m.errCorr) 0
  | 0x0818 => put (sat 32 m.errUncorr) 0
  | 0x081C => put (sat 8 m.tFailed) 24 ||| put (sat 8 m.t58) 16 ||| put (sat 8 m.t34) 8 ||| put (sat 8 m.t2) 0
  | 0x0820 => relocWord s .a m.relocFailsA
  | 0x0824 => relocWord s .b m.relocFailsB
  | 0x0828 => m.errAddr
  | 0x082C => putB m.errValid 31 ||| put m.errCode.toNat 16 ||| put m.errCtx.toNat 8 ||| put m.errWeight.toNat 0
  | 0x0830 => fieldWord s .a
  | 0x0834 => fieldWord s .b
  | 0x0838 => put (reverify s .b) 16 ||| put (reverify s .a) 0
  | 0x083C => m.injAddr
  | 0x0840 => putB m.injArmed 8 ||| putB m.injStored 7 ||| put m.injCount.toNat 0
  | _ => 0

/-! ### CT and the duet (03) -/

/-- CT_STATUS (Table 3.10). -/
def ctStatus (t : CtSlot) : Word :=
  putB t.lbFail 13 ||| putB t.alertPending 12 ||| putB t.wrongState 11 ||| putB t.foreign 10 ||| putB t.bound 9
    ||| putB t.linkDegraded 8 ||| putB t.exposed 7 ||| putB t.svFault 6 ||| putB t.wearOut 5 ||| putB t.eolWarn 4
    ||| put t.state.code 0

def readCt (x : Slot) (off : Nat) (s : State) : Word :=
  let t := s.slot x
  match off - slotBase x with
  | 0x00 => ctStatus t
  | 0x04 => ctCtrl t
  | 0x08 => lo32 t.serial.toNat
  | 0x0C => hi32 t.serial.toNat
  | 0x10 => put t.userGib.toNat 16 ||| put t.proto.toNat 8 ||| put t.idType.toNat 0
  | 0x14 => put (sat 16 t.replays) 16 ||| put (sat 8 t.retrains) 8 ||| put t.link.code 4 ||| put t.width.toNat 0
  | 0x18 => lo32 (spentOf t)
  | 0x1C => t.spentHi
  | 0x20 => lo32 t.budget
  | 0x24 => hi32 t.budget
  | 0x28 => if t.identified then lo32 t.uncharged else 0
  | 0x2C => lo32 t.intransit
  | 0x30 => put t.envField.toNat 16 ||| put t.envHot.toNat 0
  | 0x38 => wordOf t.svFifo
  | 0x3C => putB t.svBusy 31 ||| put t.svLen.toNat 8 ||| put t.svRes.toNat 0
  | _ => 0

def readDuet (off : Nat) (s : State) : Word :=
  let d := s.duet
  match off with
  | 0x0D04 => put d.target.toNat 0
  | 0x0D00 => putB d.wrongState 10 ||| putB d.noAbort 9 ||| putB d.cutPending 8 ||| putB d.missing 5
      ||| putB (decide (d.source = .b)) 4 ||| put d.state.code 0
  | 0x0D08 => putB d.manualCut 4 ||| put d.migCh.toNat 0
  | 0x0D0C => put d.period.toNat 0
  | 0x0D10 => lo32 d.ptr
  | 0x0D14 => lo32 d.total
  | _ => 0

/-! ### TN (05) -/

/-- Lines a request touches (R141). -/
def Req.lines (r : Req) : Nat := if r.len = 0 then 0 else (r.off + r.len - 1) / 64 - r.off / 64 + 1

/-- Entries of a context's share held by the engine, flush reads among them (R61). -/
def heldBy (s : State) (c : Ctx) : Nat :=
  (s.gl.ingress.filter fun r => decide (r.ctx = c) && decide (r.stage = .share)).length
    + (s.pc.flushes.filter fun f => decide (f.ctx = c) && decide (f.stage = .share)).length

/-- A request of the context stands in staging. -/
def stagedFor (s : State) (c : Ctx) : Bool :=
  (s.gl.ingress.any fun r => decide (r.ctx = c) && decide (r.stage = .staging))
    || s.pc.flushes.any fun f => decide (f.ctx = c) && decide (f.stage = .staging)

/-- The share is full, with a request left in staging (R62). -/
def creditFull (s : State) (c : Ctx) : Bool := decide ((s.tenant c).shareEff ≤ heldBy s c) && stagedFor s c

/-- A request of the context waits for tokens (R141). -/
def tokenWait (s : State) (c : Ctx) : Bool :=
  s.gl.ingress.any fun r =>
    decide (r.kind = .media) && decide (r.ctx = c) && decide (r.stage = .share) && !reqTokens s r r.lines

/-- TN_STATUS (Table 5.7). -/
def tnStatus (s : State) (c : Ctx) : Word :=
  let t := s.tenant c
  putB t.wrongState 7 ||| putB (creditFull s c) 6 ||| putB (tokenWait s c) 5 ||| putB t.quotaHit 4 ||| putB (tenantExposed s c.val) 3
    ||| put t.lock.code 1 ||| putB t.enable 0

/-- TN_MODE (Table 5.8). -/
def tnModeWord (s : State) (c : Ctx) : Word := tnMode (s.tenant c) ||| putB (effVerified s c) 1

/-- TN_TOKENS (Table 5.9). -/
def tokensWord (t : Tenant) : Word := put (min 4095 (t.tokens / 16)) 20 ||| put (t.tokens % 16) 0

def readTn (ch : Chan) (off : Nat) (c : Ctx) (s : State) : Word :=
  let t := s.tenant c
  match off with
  | 0x1000 => put (tnIndex s ch).val 0
  | 0x1004 => tnStatus s c
  | 0x1014 => tnModeWord s c
  | 0x1020 => tokensWord t
  | 0x1028 => put t.shareEff 16 ||| put (heldBy s c) 0
  | 0x1030 => lo32 t.used
  | 0x1038 => putB t.keyValid 31 ||| put t.gen.toNat 0
  | _ => tnValue t off

/-! ### LG (06) -/

/-- The counter of a pair's position (Table 6.6), of a context and of the totals. -/
def counterAt (k : Counters) (j : Nat) : Nat := k.list.getD j 0
def sumAt (k : Sums) (j : Nat) : Nat := (k.toList.getD j 0).toNat

/-- LG_STATUS (Table 6.10). -/
def lgStatus (s : State) : Word :=
  let g := s.lg
  putB g.rangeErr 9 ||| putB g.wrongState 8 ||| putB g.ringHigh 6 ||| putB g.discHold 5 ||| putB g.unsynced 4
    ||| putB (decide (g.slew ≠ 0)) 3 ||| putB g.merging 2 ||| putB (framePending s) 1 ||| putB (sealing s) 0

/-- LG_SLEW_REMAIN in µs (Table 6.11). -/
def slewUs (g : Lg) : Int := g.slew * 1000000 / (sec1 : Int)

def readLg (ch : Chan) (off : Nat) (s : State) : Word :=
  let g := s.lg
  match off with
  | 0x1400 => lgStatus s
  | 0x1404 => lo32 g.minute
  | 0x1408 => put (g.epoch % 2 ^ 16) 0
  | 0x140C => lo32 (lgtMs g.lgt)
  | 0x1410 => g.timeHi
  | 0x141C => BitVec.ofInt 32 g.offset
  | 0x1420 => put g.syncAge.toNat 8 ||| put g.action.toNat 0
  | 0x1424 => BitVec.ofInt 32 (slewUs g)
  | 0x1428 => BitVec.ofInt 32 g.disc
  | 0x142C => g.writeSeq
  | 0x1430 => g.sealedSeq
  | 0x1434 => g.sealedMinute
  | 0x1438 => g.consumed
  | 0x143C => put (ringFree s) 0
  | 0x1440 => g.mergeFirst
  | 0x1444 => putB g.sameMinute 3 ||| put g.source.toNat 0
  | 0x1448 => putB g.latchBusy 1
  | _ =>
    if inRange off 0x1450 0x149C then
      let n := sumAt g.latched ((off - 0x1450) / 8)
      if off % 8 = 0 then lo32 n else hi32 n
    else if inRange off 0x14C0 0x150C then
      (if off % 8 = 0 then lo32 (counterAt g.live[tnIndex s ch] ((off - 0x14C0) / 8)) else g.ctxHi)
    else 0

/-! ### DM (07) -/

/-- A level line is asserted: one without a port everywhere, a port's line for some channel that selects it (Table 7.8, R264). -/
def lineAsserted (s : State) (n : Nat) : Bool :=
  if n = 5 ∨ n = 7 then levelOn s {} n
  else isLevel n && s.dm.ch.toList.any fun c => c.paced && decide (c.reqSel.toNat = n) && levelOn s c n

/-- A word with a bit for every number below `k` that satisfies `p`. -/
def bitsOf (k : Nat) (p : Nat → Bool) : Word := (List.range k).foldl (fun w n => if p n then w ||| put 1 n else w) 0

/-- DM_ACTIVE (Table 7.11). -/
def dmActiveWord (s : State) : Word :=
  bitsOf 32 fun n => (s.dm.ch[(⟨n % 32, Nat.mod_lt _ (by decide)⟩ : Fin 32)]).state.moving

def readDm (off : Nat) (s : State) : Word :=
  match off with
  | 0x1800 => put s.dm.groupStop.toNat 1 ||| putB s.dm.wrongState 0
  | 0x1804 => put s.dm.lift.toNat 0
  | 0x180C => s.dm.reqGpio
  | 0x1810 => put s.dm.migCount 16 ||| bitsOf 16 (lineAsserted s)
  | 0x1814 => dmActiveWord s
  | _ => 0

def readCh (n : Fin 32) (off : Nat) (s : State) : Word :=
  let c := s.dm.ch[n]
  match off - chBase n with
  | 0x04 => putB (reservedCh s n) 17 ||| putB c.wrongState 16 ||| put c.code.toNat 8 ||| put c.state.code 0
  | 0x08 => chCfg s n
  | 0x0C => lo32 c.head.toNat
  | 0x10 => hi32 c.head.toNat
  | 0x14 => lo32 c.cur.toNat
  | 0x18 => c.curHi
  | 0x1C => lo32 c.src.toNat
  | 0x20 => hi32 c.src.toNat
  | 0x24 => lo32 c.dst.toNat
  | 0x28 => hi32 c.dst.toNat
  | 0x2C => lo32 c.remain
  | 0x30 => put c.beats.length 16 ||| put (16 - c.beats.length) 0
  | 0x34 => put (c.pending % 2 ^ 16) 0
  | 0x3C => c.doneCount
  | 0x40 => c.g5Hi
  | 0x44 => lo32 c.bytes
  | 0x48 => c.bytesHi
  | _ => 0

/-! ### HL (08) -/

/-- The personality that the recorded NEXT selects (R218). -/
def nextCxl (s : State) : Bool := decide (s.hl.persNext = 3) || (decide (s.hl.persNext ≠ 2) && s.gl.strapCxl)

/-- HL_STATUS (Table 8.11). -/
def hlStatus (h : Hl) : Word :=
  putB h.wrongState 15 ||| putB h.memActive 14 ||| putB h.cxlMode 13 ||| putB h.dlUp 12 ||| put h.width.toNat 8 ||| put h.speed.toNat 4

def readHl (off : Nat) (s : State) : Word :=
  let h := s.hl
  match off with
  | 0x3000 => hlStatus h
  | 0x3004 => putB (nextCxl s != h.effCxl) 6 ||| putB h.effCxl 5 ||| putB s.gl.strapCxl 4 ||| put h.persNext.toNat 0
  | 0x3008 => put h.slotLog2Eff.toNat 8 ||| put h.slotLog2.toNat 0
  | 0x300C => putB h.refValid 31 ||| putB h.refWrite 30 ||| put h.refCode.toNat 16 ||| put h.refCtx.toNat 8 ||| put h.refFn.toNat 0
  | 0x3010 => lo32 h.refOff.toNat
  | 0x3014 => hi32 h.refOff.toNat
  | 0x3018 => put (sat 32 h.refCount) 0
  | 0x301C => put (sat 8 h.hotCount) 16 ||| put (sat 8 h.pfFlrCount) 8 ||| put (sat 8 h.vfFlrCount) 0
  | 0x3020 => put (sat 16 h.gpf) 16 ||| putB h.hdm[1].isSome 1 ||| putB h.hdm[0].isSome 0
  | _ => 0

/-! ### SP (09) -/

/-- The engine serves (Table 9.5, READY). -/
def serialReady (s : State) : Bool := afterReplay s && !s.bt.scan

/-- The status byte (Table 9.5). -/
def statusByte (s : State) (p : Port) : Byte :=
  let q := s.sp p
  let code := if serialReady s then q.status.toNat else if s.bt.scan then 2 else if s.pw.state = .replay then 1 else 0
  BitVec.ofNat 8 (0x40 + (if serialReady s then 0x20 else 0) + (if q.toggle then 0x10 else 0) + (if alertN s then 8 else 0) + code)

/-- SPn_STATUS (Table 9.10). -/
def spStatus (s : State) (p : Port) : Word :=
  let q := s.sp p
  put q.lastResult.toNat 24 ||| putB q.wrongState 15 ||| putB q.overrun 14 ||| putB q.underrun 13 ||| putB q.crcSeen 12
    ||| putB q.rejectSeen 11 ||| putB q.mbusy 10 ||| putB q.inFrame 9 ||| putB q.toggle 8 ||| put (statusByte s p).toNat 0

/-- SPn_DATA reads the FIFO of the reader's side (R263). -/
def dataWord (ch : Chan) (p : Port) (s : State) : Word :=
  let q := s.sp p
  wordOf (if remoteSide ch p then q.tx else q.rx)

def readSp (p : Port) (ch : Chan) (off : Nat) (s : State) : Word :=
  let q := s.sp p
  match off - spBase p with
  | 0x00 => spStatus s p
  | 0x04 => spCfg q
  | 0x08 => put q.length.toNat 0
  | 0x0C => put q.page.toNat 0
  | 0x10 => dataWord ch p s
  | 0x14 => put q.tx.length 16 ||| put q.rx.length 0
  | 0x18 => put q.txThresh.toNat 16 ||| put q.rxThresh.toNat 0
  | 0x1C => putB q.doneIrq 16 ||| put q.div.toNat 0
  | 0x24 => put (sat 16 q.accepted) 16 ||| put (sat 8 q.rejected) 8 ||| put (sat 8 q.crcFail) 0
  | 0x28 => q.lastCmd
  | _ => 0

/-! ### KS (10) -/

/-- KS_STATUS.BUF_OWNER (Table 10.10). -/
def BufOwner.code : BufOwner → Nat
  | .free => 0 | .engine => 1 | .host => 2 | .sp0 => 2 | .dma _ => 3

/-- KS_STATUS (Table 10.10). -/
def ksStatus (s : State) : Word :=
  let k := s.ks
  put k.lastResult.toNat 24 ||| put k.curPage.toNat 16 ||| putB k.restoreApply.isSome 12 ||| putB k.fused 11
    ||| putB (!k.applying.isEmpty) 10 ||| putB k.wrongState 9 ||| putB k.expired 8 ||| putB k.uncorrSeen 7 ||| putB k.corrSeen 6
    ||| put k.owner.code 4 ||| putB (ksPending s) 3 ||| putB k.energyWait 1 ||| putB k.busy.isSome 0

/-- KS_BUF (Table 10.12): an engine record fills the buffer while it is written. -/
def ksBuf (s : State) : Word :=
  let (page, n) := match s.ks.owner, s.ks.busy with
    | .engine, some w => (w.page, w.bytes.length)
    | _, _ => (s.ks.page, s.ks.bytes.length)
  put (if s.ks.owner = .sp0 then 1 else 0) 24 ||| put page 16 ||| put n 0

/-- KS_ADDR of a channel; SP1 as a slave has none, and reads a free value (R379, log 4). -/
def ksAddrWord (ch : Chan) (s : State) : Word :=
  if ch = .sp1 then freeOf 32 s &&& 0xFFFC else put (ksAddr s ch.mgmt) 0

def readKs (ch : Chan) (off : Nat) (s : State) : Word :=
  let k := s.ks
  match off with
  | 0x3800 => ksStatus s
  | 0x3804 => putB k.fused 8
  | 0x3808 => ksAddrWord ch s
  | 0x3814 => ksBuf s
  | 0x3818 => put (sat 16 k.errCorr) 16 ||| put (sat 16 k.errUncorr) 0
  | 0x381C => putB k.errValid 31 ||| putB k.errKind 16 ||| put k.errWord.toNat 2
  | 0x3820 => k.bootCount
  | 0x3824 => put (sat 16 k.waits) 16 ||| put (sat 16 k.writes) 0
  | _ => 0

/-! ### BT (11) -/

/-- BT_STATUS (Table 11.7). -/
def btStatus (s : State) : Word :=
  let b := s.bt
  put b.lastResult.toNat 24 ||| putB b.restSlot 20 ||| put b.restTest.toNat 16 ||| put (restMode s) 14 ||| putB b.scan 13
    ||| putB b.fuseBusy 12 ||| putB b.wrongState 11 ||| putB b.repaired 10 ||| put b.run.toNat 8 ||| put (analogRunning s) 0

/-- Hold-buffer spare rows that no entry names (R306, Table 11.7). -/
def hbSpares (s : State) : Nat :=
  ((List.range 32).filter fun k => !(repairEntries s).any fun e => decide (fld e 28 4 = 1) && decide (fld e 8 8 = k)).length

/-- Repair rows of a bank (R307). -/
def bankRepairRows (big : Bool) : Nat := if big then 16125 else 7933

/-- BT_CART_REPAIR_x (Table 11.7). -/
def cartRepair (s : State) (x : Slot) : Word :=
  (headerOf s x).elim 0 fun c =>
    put (sat 16 (total (fun e => e.2) c.repairRows)) 16 ||| put (bankRepairRows c.big - greatest (fun e => e.2) c.repairRows) 0

/-- A detail word of the selected test (Table 11.7). -/
def detailWord (s : State) (k : Nat) : Word :=
  let d := s.bt.details[s.bt.sel.toFin]
  match k with
  | 0 => d.1
  | 1 => d.2.1
  | 2 => d.2.2.1
  | _ => d.2.2.2

def readBt (off : Nat) (s : State) : Word :=
  let b := s.bt
  match off with
  | 0x3C00 => btStatus s
  | 0x3C04 => putB b.stay 3
  | 0x3C08 => b.mask
  | 0x3C0C => put b.done.toNat 0
  | 0x3C10 => put b.fail.toNat 0
  | 0x3C14 => put b.skip.toNat 0
  | 0x3C18 => put b.bootDone.toNat 0
  | 0x3C1C => put b.bootFail.toNat 0
  | 0x3C20 => put (sat 16 (max b.peakMw (powerMw s))) 16 ||| put (sat 16 (powerMw s)) 0
  | 0x3C24 => put b.sel.toNat 0
  | 0x3C28 => detailWord s 0
  | 0x3C2C => detailWord s 1
  | 0x3C30 => detailWord s 2
  | 0x3C34 => detailWord s 3
  | 0x3C3C => put (64 - b.fuses.length) 16 ||| put (b.fuses.filter entryValid).length 8
  | 0x3C40 => put b.badSteps.length 16 ||| put (hbSpares s) 8 ||| put b.soft.length 0
  | 0x3C44 => cartRepair s .a
  | 0x3C48 => cartRepair s .b
  | 0x3C4C => (headerOf s .a).elim 0 fun c => put c.arrayPos.toNat 0
  | 0x3C50 => (headerOf s .b).elim 0 fun c => put c.arrayPos.toNat 0
  | _ => 0

/-! ### PW (12, 14) -/

/-- PW_STATUS (Table 12.11). -/
def pwStatus (s : State) : Word :=
  let p := s.pw
  put p.lastResult.toNat 24 ||| put p.wakeCause.toNat 20 ||| putB p.fromVbat 15 ||| putB p.entering 14 ||| putB p.wrongState 13
    ||| putB p.armed.isSome 12 ||| put p.state.code 0

/-- PW_RAILS (Table 14.14). -/
def railsWord (p : Pw) : Word := putB p.chgEn 9 ||| putB p.thermTrip 8 ||| bitsOf 5 fun k => p.rails.toList.getD k true

/-- PW_TEMP (Table 14.15): the peak is never below the present reading. -/
def tempWord (p : Pw) : Word :=
  let peak := if p.tjPeak.toInt < p.tj.toInt then p.tj else p.tjPeak
  put peak.toNat 16 ||| putB (decide (110 ≤ p.tj.toInt)) 15 ||| put p.tj.toNat 0

def readPw (off : Nat) (s : State) : Word :=
  let p := s.pw
  match off with
  | 0x4000 => pwStatus s
  | 0x4004 => putB p.quietEn 0
  | 0x4008 => p.wakeEn
  | 0x400C => p.wakeAfter
  | 0x4010 => lo32 p.lpTicks
  | 0x4014 => p.lpHi
  | 0x4018 => p.tBoot
  | 0x401C => p.tReplay
  | 0x4020 => putB p.vbatLow 16 ||| put p.vbat10mv.toNat 0
  | 0x4024 => put p.quietIdle.toNat 0
  | 0x4028 => railsWord p
  | 0x402C => tempWord p
  | 0x4040 => put p.gpioDir.toNat 0
  | 0x4044 => put p.gpioOut.toNat 0
  | 0x4048 => put p.gpioIn.toNat 0
  | 0x404C => bitsOf 16 (gpioOwned s)
  | 0x4050 => put p.gpioPull.toNat 0
  | _ => 0

/-! ### EV (13) -/

/-- EV_STATUS (Table 13.9). -/
def evStatus (s : State) : Word :=
  putB s.ev.wrongState 5 ||| putB s.ev.traceScan 4 ||| putB (spillWaits s) 3 ||| putB s.ev.logOpen 2 ||| putB s.ev.fetching 1
    ||| putB (alertN s) 0

/-- A word of EV_ENTRY0–7 in a view (R342). -/
def entryShown (s : State) (v : EvView) (k : Nat) : Word :=
  if k = 0 then (viewEntry s v).elim 0 fun e => entryWord e 0 else v.latch.elim 0 fun e => entryWord e k

/-- The EV registers read zeros before the log opens (Table 13.8). -/
def readEv (ch : Chan) (off : Nat) (s : State) : Word :=
  let v := evView s ch
  if !s.ev.logOpen then 0
  else match off with
  | 0x4400 => evStatus s
  | 0x4404 => lo32 s.ev.wrSeq
  | 0x4408 => lo32 v.rdSeq
  | 0x4410 => put (sat 32 v.lost) 0
  | 0x4414 => put s.ev.routeIdx.toNat 0
  | 0x4418 => put (routeOf s s.ev.routeIdx).toNat 0
  | 0x441C => s.ev.mod
  | 0x4420 => put s.ev.traceEn.toNat 0
  | 0x4428 => put (s.ev.spillSeq % 65536) 14 ||| put s.ev.trPos 0
  | 0x442C => put (sat 32 s.ev.traceLost) 0
  | 0x4430 => traceSel s
  | 0x4434 => s.ev.lineSeq
  | _ =>
    if inRange off 0x4438 0x4444 then s.ev.data.elim 0 fun e => trWord e ((off - 0x4438) / 4)
    else if inRange off 0x4460 0x447C then entryShown s v ((off - 0x4460) / 4)
    else 0

/-! ### CS (05) -/

/-- CS_STATUS (Table 5.11). -/
def csStatus (s : State) : Word :=
  let c := s.cs
  put c.lastResult.toNat 16 ||| putB c.busyTill.isSome 9 ||| putB c.wrongState 8 ||| putB c.mgmtSet 7 ||| putB c.hostSet 6
    ||| put c.badTries 4 ||| putB c.mgmt 2
    ||| put (match c.state with
      | .idle => 0
      | .opened => 1
      | .committing => 2) 0

def readCs (off : Nat) (s : State) : Word :=
  let c := s.cs
  match off with
  | 0x4800 => csStatus s
  | 0x4804 => c.chgNo
  | 0x4808 => c.digest
  | 0x480C => put c.count 0
  | 0x4810 => put (windowLeft s) 0
  | 0x4814 => put c.window.toNat 0
  | 0x4824 => lo32 engineId.toNat
  | 0x4828 => hi32 engineId.toNat
  | 0x482C => c.lastNo
  | _ =>
    if inRange off 0x4880 0x497C then
      match c.entries[(off - 0x4880) / 16]? with
      | some e => if off % 16 = 0 then e.addr else if off % 16 = 4 then e.mask else if off % 16 = 8 then e.value else 0
      | none => 0
    else 0

/-! ### The value of a register -/

/-- The value of a register of the map over a channel; a reserved offset reads 0 (R7, R377). -/
def regValue (ch : Chan) (op : RegOp) (s : State) : Word :=
  match blockOf op.off with
  | none => 0
  | some .gl => readGl op.off s
  | some .pc => readPc op.off s
  | some .md => readMd op.off s
  | some (.ct x) => readCt x op.off s
  | some .duet => readDuet op.off s
  | some .tn => readTn ch op.off (op.tenant s ch) s
  | some .lg => readLg ch op.off s
  | some .dm => readDm op.off s
  | some (.ch n) => readCh n op.off s
  | some .hl => readHl op.off s
  | some (.sp p) => readSp p ch op.off s
  | some .ks => readKs ch op.off s
  | some .bt => readBt op.off s
  | some .pw => readPw op.off s
  | some .ev => readEv ch op.off s
  | some .cs => readCs op.off s

/-- The value as the access shows it: the G5 window shows the fields of its layout, and the duet's codes 8 and 9 as 5 (R231, n5). -/
def shownValue (ch : Chan) (op : RegOp) (s : State) : Word :=
  let v := regValue ch op s &&& op.shown
  if ch = .g5 ∧ op.off = 0x0D00 ∧ (v = 8 ∨ v = 9) then 5 else v

/-! ### What a read does -/

/-- A read-to-clear field of `w` bits at `lo`, after a read of the bits `m` of the shown word `v` (R6, R8, R256). -/
def rcLeft (v m : Word) (lo w : Nat) : Nat := fld (v &&& ~~~m) lo w

/-- The same for a field that restarts (R385): at `restart`, or at what the read left of it. -/
def rcRestart (v m : Word) (lo w restart : Nat) : Nat := max restart (rcLeft v m lo w)

/-- A count after a read of part of its register: unread counts keep what saturation does not show. -/
def rcCount (old : Nat) (v m : Word) (lo w : Nat) : Nat := if fld m lo w = 0 then old else rcLeft v m lo w

/-- A 64-bit register's high half is latched by a read of any byte of the low one. -/
def touched (m : Word) : Bool := decide (m ≠ 0)

/-- The effect of a read of the bits `m` on the state, unit by unit; `v` is the value shown. -/
def readFxGl (off : Nat) (m v : Word) (s : State) : State :=
  match off with
  | 0x0014 => { s with gl := { s.gl with cycleHi := hi32 (glCycle s) } }
  | 0x004C => { s with gl := { s.gl with tagPeak := if fld m 0 11 = 0 then s.gl.tagPeak else rcRestart v m 0 11 s.gl.tags.length } }
  | 0x005C =>
    if m &&& 0xFF00FFFF = 0 then s
    else
      let (cls, n) := waitNow s
      let grants := rcRestart v m 0 16 n
      { s with gl := { s.gl with maxGrants := grants, maxArb := if n = 0 then BitVec.ofNat 8 (rcLeft v m 24 8) else cls } }
  | _ => s

def readFxMd (off : Nat) (m v : Word) (s : State) : State :=
  let d := s.md
  match off with
  | 0x0814 => { s with md := { d with errCorr := rcCount d.errCorr v m 0 32 } }
  | 0x0818 => { s with md := { d with errUncorr := rcCount d.errUncorr v m 0 32 } }
  | 0x081C => { s with md := { d with
      tFailed := rcCount d.tFailed v m 24 8, t58 := rcCount d.t58 v m 16 8, t34 := rcCount d.t34 v m 8 8, t2 := rcCount d.t2 v m 0 8 } }
  | 0x0820 => { s with md := { d with relocFailsA := rcCount d.relocFailsA v m 25 7 } }
  | 0x0824 => { s with md := { d with relocFailsB := rcCount d.relocFailsB v m 25 7 } }
  | 0x082C => { s with md := { d with errValid := d.errValid && !bit m 31 } }
  | 0x0830 => { s with md := { d with
      longestA := if fld m 16 16 = 0 then d.longestA else rcRestart v m 16 16 (inhibitMs s .a), inhibitsA := rcCount d.inhibitsA v m 0 16 } }
  | 0x0834 => { s with md := { d with
      longestB := if fld m 16 16 = 0 then d.longestB else rcRestart v m 16 16 (inhibitMs s .b), inhibitsB := rcCount d.inhibitsB v m 0 16 } }
  | _ => s

/-- A read of CT_SV_DATA takes a word of four bytes off the FIFO whatever bytes it reads: R381 moves words, and the manual gives no
narrow form (DESIGN CHOICE, log 147). -/
def readFxCt (x : Slot) (off : Nat) (m v : Word) (s : State) : State :=
  match off - slotBase x with
  | 0x14 => modSlot x (fun t => { t with replays := rcCount t.replays v m 16 16, retrains := rcCount t.retrains v m 8 8 }) s
  | 0x18 => modSlot x (fun t => { t with spentHi := hi32 (spentOf t) }) s
  | 0x38 => modSlot x (fun t => { t with svFifo := t.svFifo.drop 4 }) s
  | _ => s

def readFxLg (ch : Chan) (off : Nat) (s : State) : State :=
  if off = 0x140C then { s with lg := { s.lg with timeHi := hi32 (lgtMs s.lg.lgt) } }
  else if inRange off 0x14C0 0x150C ∧ off % 8 = 0 then
    { s with lg := { s.lg with ctxHi := hi32 (counterAt s.lg.live[tnIndex s ch] ((off - 0x14C0) / 8)) } }
  else s

/-- A read of DM_CH_CUR_LO latches its high half; one of DM_CH_BYTES_LO latches the high half and clears the count (Table 7.14). A read
of DM_CH_BYTES_HI returns what was latched and clears nothing (DESIGN CHOICE, log 148). -/
def readFxCh (n : Fin 32) (off : Nat) : State → State :=
  match off - chBase n with
  | 0x14 => modCh n fun c => { c with curHi := hi32 c.cur.toNat }
  | 0x44 => modCh n fun c => { c with bytesHi := hi32 c.bytes, bytes := 0 }
  | _ => id

def readFxHl (off : Nat) (m v : Word) (s : State) : State :=
  let h := s.hl
  match off with
  | 0x300C => { s with hl := { h with refValid := h.refValid && !bit m 31 } }
  | 0x3018 => { s with hl := { h with refCount := rcCount h.refCount v m 0 32 } }
  | 0x301C => { s with hl := { h with
      hotCount := rcCount h.hotCount v m 16 8, pfFlrCount := rcCount h.pfFlrCount v m 8 8, vfFlrCount := rcCount h.vfFlrCount v m 0 8 } }
  | 0x3020 => { s with hl := { h with gpf := rcCount h.gpf v m 16 16 } }
  | _ => s

/-- Bytes of a register of which a bit is read. -/
def bytesRead (m : Word) : Nat := ((List.range 4).filter fun k => decide (fld m (8 * k) 8 ≠ 0)).length

def readFxSp (p : Port) (ch : Chan) (off : Nat) (m v : Word) (s : State) : State :=
  match off - spBase p with
  | 0x10 => (popSp (remoteSide ch p) p (bytesRead m) s).1
  | 0x24 => modSp p (fun q => { q with
      accepted := rcCount q.accepted v m 16 16, rejected := rcCount q.rejected v m 8 8, crcFail := rcCount q.crcFail v m 0 8 }) s
  | _ => s

def readFxKs (ch : Chan) (off : Nat) (m v : Word) (s : State) : State :=
  let k := s.ks
  match off with
  | 0x3808 => if ch = .sp1 then nextFree s else s
  | 0x3818 => { s with ks := { k with errCorr := rcCount k.errCorr v m 16 16, errUncorr := rcCount k.errUncorr v m 0 16 } }
  | 0x381C => { s with ks := { k with errValid := k.errValid && !bit m 31 } }
  | 0x3824 => { s with ks := { k with waits := rcCount k.waits v m 16 16, writes := rcCount k.writes v m 0 16 } }
  | _ => s

/-- PW_TEMP.PEAK restarts at the junction reading (R385). -/
def readFxPw (off : Nat) (m : Word) (s : State) : State :=
  match off with
  | 0x4010 => { s with pw := { s.pw with lpHi := put (s.pw.lpTicks / 2 ^ 32 % 2 ^ 16) 0 } }
  | 0x402C => if fld m 16 8 = 0 then s else { s with pw := { s.pw with tjPeak := s.pw.tj } }
  | _ => s

def readFxEv (ch : Chan) (off : Nat) (m v : Word) (s : State) : State :=
  if !s.ev.logOpen then s
  else match off with
  | 0x4410 => modView ch (fun x => { x with lost := rcCount x.lost v m 0 32 }) s
  | 0x442C => { s with ev := { s.ev with traceLost := rcCount s.ev.traceLost v m 0 32 } }
  | 0x4460 => modView ch (fun x => { x with latch := viewEntry s x }) s
  | _ => s

/-- What a read of the bits `m` of a register does to the block; `v` is the value it showed. -/
def readFx (ch : Chan) (op : RegOp) (m v : Word) (s : State) : State :=
  if !touched m then s
  else match blockOf op.off with
  | some .gl => readFxGl op.off m v s
  | some .md => readFxMd op.off m v s
  | some (.ct x) => readFxCt x op.off m v s
  | some .lg => readFxLg ch op.off s
  | some (.ch n) => readFxCh n op.off s
  | some .hl => readFxHl op.off m v s
  | some (.sp p) => readFxSp p ch op.off m v s
  | some .ks => readFxKs ch op.off m v s
  | some .bt => if op.off = 0x3C20 ∧ fld m 16 16 ≠ 0 then { s with bt := { s.bt with peakMw := rcRestart v m 16 16 (powerMw s) } } else s
  | some .pw => readFxPw op.off m s
  | some .ev => readFxEv ch op.off m v s
  | some .pc | some .duet | some .tn | some .dm | some .cs | none => s

end Sys2Proof.Machine
end

