-- ==== Sys2Proof/Machine/Grants.lean ====
section
/-! DEFINITION. Who waits at the tag arbiter and at the bank arbiters, and the commands that need their grants (R53, R54, R57,
R59–R62, Tables 2.3 and 2.5). -/

namespace Sys2Proof.Machine

/-! ### Staging and shares (R61, R62) -/

/-- Entries of a staging kind in use: requests, and for reads the flushes too. -/
def staged (s : State) (write : Bool) : List Req := s.gl.ingress.filter fun r => decide (r.stage = .staging) && decide (r.write = write)
def stagedFlushes (s : State) : List Flush := s.pc.flushes.filter fun f => decide (f.stage = .staging)
def stagedCount (s : State) (write : Bool) : Nat :=
  (staged s write).length + if write then 0 else (stagedFlushes s).length

/-- The staging area has an entry of the kind that can be taken now (R51). -/
def stagingFree (s : State) (write : Bool) : Bool :=
  decide (stagedCount s write + (if write then s.gl.relPosted else s.gl.relNonPosted).at s.now < 64)

/-- The context's share has an entry that can be taken now (R51). -/
def shareFree (s : State) (c : Ctx) : Bool := decide (heldBy s c + (s.tenant c).relShare.at s.now < (s.tenant c).shareEff)

/-! ### What waits (R54, R57, R141) -/

/-- A host read can be served but for its share entry and its tag: the function's earlier writes are admitted, and for media no
earlier write of its lines waits, its tokens are there, and its lines can be read; not while an entry to HIBERNATE has closed
admission (R21, R141, R323, Table 2.4). -/
def readDue (s : State) (r : Req) : Bool :=
  !r.write && !waitsForWrites s r.fn r.id && (match r.kind with
    | .media => !writeAhead s r && reqTokens s r r.lines && !s.pw.entering && r.media.all fun l => lineReady s l
    | _ => true)

/-- The next line of a host write can come to the admission point: after those before it, outside a drain and an entry to
HIBERNATE, once replay has ended (R24, R323, Table 2.4). -/
def writeDue (s : State) (r : Req) : Bool :=
  match r.parts with
  | [] => false
  | p :: _ => r.write && decide (r.stage ≠ .staging) && !heldBack s r (r.base + p.off) && s.pc.drain.isNone && !s.pw.entering
      && afterReplay s && !s.bt.scan && (r.tag.isSome || reqTokens s r r.lines)

/-- The ledger's next record, which a ring takes now, with its homes. -/
def recordHomes (s : State) : List (Slot × Nat) :=
  match s.lg.outq.dropWhile fun u => u.left.isEmpty with
  | [] => []
  | u :: _ => if unitRoom s u && writesRun s then (ringHomes s s.lg.writeSeq.toNat).filter fun h => ringReady s h else []

/-- A channel's next beat can be read. -/
def beatDue (s : State) (copy : Bool) : Bool :=
  (indices 32).any fun (n : Fin 32) => decide (s.dm.ch[n].copy = copy) && eligible s s.dm.ch[n]

/-- A request of the class waits at the tag arbiter, for a tag that it can take. -/
def tagWaits (s : State) : TagClass → Bool
  | .hrd => (s.gl.ingress.any fun r => decide (r.stage = .share) && readDue s r && tagFree s .hrd r.ctx)
      || s.pc.flushes.any fun f => decide (f.stage = .share) && tagFree s .hrd f.ctx
  | .hwr => s.gl.ingress.any fun r => r.tag.isNone && writeDue s r && tagFree s .hwr r.ctx
  | .wbk => writesRun s && s.pc.slots.any fun h => ownTag h && canIssue s h
  | .dma => beatDue s false
  | .duet => beatDue s true
  | .ledg => !(recordHomes s).isEmpty && tagFree s .ledg provider
  | .int => decide (3 ≤ s.ev.unspilled.length) && !spillWaits s && tagFree s .int provider

/-- The classes of Table 2.3 that wait at the tag arbiter. -/
def tagWaiting (s : State) : List Nat :=
  ([.hrd, .hwr, .wbk, .dma, .duet, .ledg, .int] : List TagClass).filterMap fun c => if tagWaits s c then some c.num else none

/-- The cartridge line that a channel's next beat reads. -/
def beatSource (s : State) (c : DmaCh) : Option (Slot × Nat) :=
  match c.desc with
  | none => none
  | some d =>
    let a := d.src + c.issued
    match d.srcSpace with
    | 1 => readHome s (lineIn s d.who (a / 64))
    | 3 => (ringSlot s).map fun x => (x, ringLineOf s x (a / 64))
    | 4 => some (s.duet.source, a % 2 ^ 36 / 64)
    | _ => none

/-- A cartridge line lies in a bank of the 256. -/
def inBank (i : Fin 256) (h : Slot × Nat) : Bool := decide (bankNo h.1 (bankOf h.2) = i)

/-- A requester of the class waits at a bank arbiter (Table 2.5). -/
def bankWaits (s : State) (i : Fin 256) (k : Nat) : Bool :=
  let beat := fun copy => (indices 32).any fun (n : Fin 32) =>
    decide (s.dm.ch[n].copy = copy) && (beatSource s s.dm.ch[n]).any (inBank i) && eligible s s.dm.ch[n]
  match k with
  | 0 => s.gl.ingress.any fun r => decide (r.kind = .media) && decide (r.stage = .share)
      && (r.media.any fun l => (readHome s l).any (inBank i)) && readDue s r
  | 1 => writesRun s && s.pc.slots.any fun h => (issuable s h).any (inBank i) && canIssue s h
  | 2 => beat false
  | 3 => beat true
  | 4 => (recordHomes s).any (inBank i)
  | _ => (nextReplay s).any fun e => e.2.2.any (inBank i)

def bankWaiting (s : State) (i : Fin 256) : List Nat := (List.range 6).filter (bankWaits s i)

/-! ### Grants -/

/-- The tag arbiter grants a request of the class. -/
def askTag (c : TagClass) (s : State) : State := arbitrate .tag c.num (tagWaiting s) s

/-- The bank arbiter of a cartridge line grants a request of the class. -/
def askBank (k : Nat) (s : State) (h : Slot × Nat) : State :=
  let i := bankNo h.1 (bankOf h.2)
  arbitrate (.bank i) k (bankWaiting s i) s

/-- The bank arbiters of cartridge lines, one after the other. -/
def askBanks (k : Nat) (l : List (Slot × Nat)) (s : State) : State := l.foldl (askBank k) s

/-- A write-back and its grants. -/
def backOldest (e : Sense) (s : State) : State :=
  if !writesRun s then s
  else match s.pc.slots.find? fun h => canIssue s h with
    | none => s
    | some h => issueOldest e (askBanks bkBack (issuable s h) (if ownTag h then askTag .wbk s else s))

/-- The grants of a channel's next beat: its tag, and the bank it reads from. -/
def askBeat (n : Fin 32) (s : State) : State :=
  let c := s.dm.ch[n]
  askBanks (if c.copy then bkDuet else bkDma) (beatSource s c).toList (askTag (chClass c) s)

/-- A beat read and its grants. -/
def readNextBeat (e : Sense) (s : State) : State :=
  if s.pc.drain.isSome then s
  else match granted s with
    | some n => beatRead e (askBeat n s)
    | none => beatRead e s

/-- A beat write; a copy's has the grant of the destination's bank. -/
def writeNextBeat (n : Fin 32) (host : Line) (poison : Bool) (s : State) : State :=
  match s.dm.ch[n].beats with
  | b :: _ =>
    if s.dm.ch[n].copy && b.cell.isSome && s.pc.drain.isNone then
      beatWrite n host poison (askBank bkDuet s (if b.dst / 2 ^ 40 % 2 = 1 then .b else .a, b.dst % 2 ^ 36 / 64))
    else beatWrite n host poison s
  | [] => s

/-- A ledger write and its grants; not in a drain, nor before the ledger is reconciled. -/
def writeRecord (w : Tries) (s : State) : State :=
  if s.pc.drain.isSome || !s.pc.reconciled then s
  else match recordHomes s with
    | [] => ledgerWrite w s
    | l => if tagFree s .ledg provider then ledgerWrite w (askBanks bkLedger l (askTag .ledg s)) else ledgerWrite w s

/-- A replay write and its grants. -/
def replayNext (w : Tries) (s : State) : State :=
  match nextReplay s with
  | none => s
  | some (_, _, homes) => replayEntry w (askBanks bkReplay homes (askTag .wbk s))

/-- A trace spill and the grant of its tag. -/
def spillNext (w : Tries) (s : State) : State :=
  traceSpill w (if tagWaits s .int && s.pc.drain.isNone && !booting s && s.pw.state.clocked then askTag .int s else s)

/-! ### The rows -/

/-- R25: a write-back is issued. -/
def execWriteBack (sense : Sense) (s : State) : Host.Outcome State Fault Refusal := act (backOldest sense) s

/-- R192, R198: the arbiter grants a beat read. -/
def execBeatRead (sense : Sense) (s : State) : Host.Outcome State Fault Refusal := act (readNextBeat sense) s

/-- R192: a beat is written. -/
def execBeatWrite (n : Fin 32) (host : Line) (poison : Bool) (s : State) : Host.Outcome State Fault Refusal :=
  act (writeNextBeat n host poison) s

/-- R167: a record is written to the ledger ring. -/
def execLedgerWrite (s : State) (writes : Tries := []) : Host.Outcome State Fault Refusal := act (writeRecord writes) s

/-- R35: a line is replayed. -/
def execReplayEntry (first second : Option (Fin 8)) (rest : Tries) (s : State) : Host.Outcome State Fault Refusal :=
  act (replayNext (first :: second :: rest)) s

/-- R353: a trace line is spilled. -/
def execTraceSpill (s : State) (writes : Tries := []) : Host.Outcome State Fault Refusal := act (spillNext writes) s

end Sys2Proof.Machine
end

