-- ==== Sys2Proof/Machine/Access.lean ====
section
/-! DEFINITION. A register access as a whole: what every write is judged by, the staging of its CS fields, its refusal,
and a read's value with its effect (R6–R9, R151, R245, R260, R323, R377, R386). -/

namespace Sys2Proof.Machine

/-! ### Writes -/

/-- A register access of the G5 window carries the fields its layout shows; hidden ones keep their values (R231). -/
def RegOp.carried (op : RegOp) (ch : Chan) (v : Word) (s : State) : Word :=
  if op.off = 0x1014 then (v &&& op.shown) ||| (tnModeWord s (op.tenant s ch) &&& ~~~ op.shown) else v &&& op.shown

/-- The registers that SP0 may write in BOOT and REPLAY: its own block (Table 9.8), TN_INDEX and KS_ADDR (Tables 5.5, 10.9). -/
def earlyWrite (off : Nat) : Bool := inRange off 0x3400 0x34FC || decide (off = 0x1000) || decide (off = 0x3808)

/-- The code that a write is refused with whatever its register: SP1 is read-only (R245); BOOT and REPLAY (R260);
an entry to HIBERNATE (R323); scan, but for SP0's own block (Table 9.8). -/
def gateCode (ch : Chan) (off : Nat) (s : State) : Option (BitVec 8) :=
  if ch = .sp1 then some cPERMISSION
  else if booting s && !earlyWrite off then some cWRONG_STATE
  else if s.pw.entering || (s.bt.scan && !inRange off 0x3400 0x34FC) then some cWRONG_STATE
  else none

/-- A write judged by its block's tables. -/
def judgeWrite (ch : Chan) (b : Block) (off : Nat) (c : Ctx) (be : BitVec 4) (v : Word) (s : State) : Judged :=
  match b with
  | .gl => writeGl off be v s
  | .pc => writePc off be v s
  | .md => writeMd off be v s
  | .ct x => writeCt x off be v s
  | .duet => writeDuet off be v s
  | .tn => writeTn ch off c be v s
  | .lg => writeLg off be v s
  | .dm => writeDm off be v s
  | .ch n => writeCh n off be v s
  | .hl => writeHl off be v s
  | .sp p => writeSp p ch off be v s
  | .ks => writeKs ch off be v s
  | .bt => writeBt off be v s
  | .pw => writePw off be v s
  | .ev => writeEv ch off be v s
  | .cs => writeCs ch off be v s

/-- A refused staging: CS_STATUS.LAST_RESULT takes the code, and the sticky bits are set of the tables that refuse it: the countersign
unit's for Table 5.6, the register's own unit for its table (R151, R159). -/
def refuseStage (ch : Chan) (b : Block) (c : Ctx) (off : Nat) (code : BitVec 8) (cs unit : Bool) (v : Word) (s : State) : State :=
  let s := logRefusal ch (if cs then uCS else b.unit) (regCtx b c) off code v s
  let s := if cs then setSticky .cs c s else s
  let s := if unit then setSticky b c s else s
  csResult code (if cs && !unit then s else setResult b code s)

/-- CT_SV_RESULT.RES of a command that is refused with PERMISSION (R77, Table 3.16). -/
def svResult (x : Slot) (code : BitVec 8) (s : State) : State :=
  if code = cPERMISSION then modSlot x (fun t => { t with svRes := code }) s else s

/-- A refused write of a register whose refusal leaves more than a sticky bit: a TIME_SYNC (R172), LG_CONSUMED_SEQ (R169),
CS_TAG_HI (R153, Table 5.6) and CT_SV_CMD (R77). -/
def refuseOwn (ch : Chan) (b : Block) (c : Ctx) (off : Nat) (code : BitVec 8) (v : Word) (s : State) : State :=
  match off with
  | 0x1418 => syncRefused v (refuse ch b c off code v s)
  | 0x1438 =>
    let t := refuse ch b c off code v s
    if code = cRANGE then { t with lg := { t.lg with rangeErr := true } } else t
  | 0x481C => csResult code (refuse ch b c off code v s)
  | 0x0C34 => svResult .a code (refuse ch b c off code v s)
  | 0x0E34 => svResult .b code (refuse ch b c off code v s)
  | _ => refuse ch b c off code v s

/-- A write of one register: its effect, or its refusal with the code (R9, R386). A write of a reserved offset is ignored (R377). A
staging meets the change as it stands: one past its window has lapsed (R154). -/
def writeReg (ch : Chan) (op : RegOp) (be : BitVec 4) (v : Word) (s : State) : State × Option (BitVec 8) :=
  match blockOf op.off with
  | none => (s, if ch = .sp1 then some cPERMISSION else none)
  | some b =>
    let c := op.tenant s ch
    let w := op.carried ch v s
    let shown := w &&& byteMask be
    match gateCode ch op.off s with
    | some code =>
      if ch = .sp1 then (refuse ch b c op.off code shown s, some code)
      else (match stageOf (windowLapse s) ch.mgmt op.off c w be with
        | .refused _ cs unit => refuseStage ch b c op.off code cs unit shown s
        | .nothing | .entries _ => refuseOwn ch b c op.off code shown s, some code)
    | none =>
      match judgeWrite ch b op.off c be w s with
      | .refused code => (refuseOwn ch b c op.off code shown s, some code)
      | .taken t =>
        match stageOf (windowLapse s) ch.mgmt op.off c w be with
        | .nothing => (t, none)
        | .refused code cs unit => (refuseStage ch b c op.off code cs unit shown s, some code)
        | .entries l => (stage ch.mgmt l (windowLapse t), none)

/-- A write of a register by its G7 offset over a channel, when the channel can reach it now. -/
def writeAt (ch : Chan) (off : Nat) (be : BitVec 4) (v : Word) (s : State) : State :=
  match cmdOp ch off with
  | some op => if reaches s ch then (writeReg ch op be v s).1 else s
  | none => s

/-- A write of the whole register. -/
def command (ch : Chan) (off : Nat) (v : Word) : State → State := writeAt ch off allBytes v

/-! ### Reads -/

/-- The code that a read is refused with: under scan (Table 9.8), in BOOT (Tables 9.9, 10.9), and KS_RDATA for SP1 (R379). -/
def readCode (ch : Chan) (off : Nat) (s : State) : Option (BitVec 8) :=
  if off = 0x380C ∧ ch = .sp1 then some cPERMISSION
  else if s.bt.scan then some cWRONG_STATE
  else if off = 0x380C ∧ s.pw.state = .boot then some cWRONG_STATE
  else if booting s ∧ (off = 0x3410 ∨ off = 0x3510) ∧ ¬ (ch = .sp0 ∧ off = 0x3410) then some cWRONG_STATE
  else none

/-- A refused read: 0, with the unit's result and, for WRONG_STATE, its sticky bit; only writes are logged (R340). -/
def refuseRead (b : Block) (code : BitVec 8) (s : State) : State :=
  setResult b code (if code = cWRONG_STATE then setSticky b provider s else s)

/-- A read of KS_RDATA (R271): refused while its page is written. -/
def readKeep (ch : Chan) (s : State) : State × Word × Option (BitVec 8) :=
  match rdata ch.mgmt s with
  | (t, _, true) => (refuseRead .ks cWRONG_STATE t, 0, some cWRONG_STATE)
  | (t, w, false) => (t, w, none)

/-- SPn_DATA: the bytes read stand at their own lanes (R263). -/
def readFifo (ch : Chan) (p : Port) (m : Word) (s : State) : State × Word :=
  let lanes := (List.range 4).filter fun k => decide (fld m (8 * k) 8 ≠ 0)
  let (t, bytes) := popSp (remoteSide ch p) p lanes.length s
  (t, BitVec.ofNat 32 (total (fun e => e.2.toNat * 2 ^ (8 * e.1)) (lanes.zip bytes)))

/-- A read of the bits `m` of one register: the state it leaves, the value, and the code where it is refused (R6, R8, R256).
A host read of EV_TRACE_DATA0 fetches the selected entry first (R252). -/
def readReg (ch : Chan) (op : RegOp) (m : Word) (s : State) : State × Word × Option (BitVec 8) :=
  match blockOf op.off with
  | none => (s, 0, none)
  | some b =>
    match readCode ch op.off s with
    | some code => (refuseRead b code s, 0, some code)
    | none =>
      if op.off = 0x380C then readKeep ch s
      else if op.off = 0x3410 ∨ op.off = 0x3510 then
        let (t, w) := readFifo ch (if op.off = 0x3410 then .p0 else .p1) m s
        (t, w, none)
      else
        let s := if op.off = 0x4438 ∧ ch = .bar0 ∧ s.ev.logOpen = true then fetchTrace s else s
        let v := shownValue ch op s
        (readFx ch op m v s, v &&& m, none)

/-- G5_IDENT (R231). -/
def g5Ident : Word := 0x72084805

/-- A read of an offset as the channel's access names it. -/
def readBus (ch : Chan) (off : Nat) (m : Word) (s : State) : State × Word × Option (BitVec 8) :=
  if off / 4 * 4 = 0x8000 ∧ (ch = .g5 ∨ ch = .bar0) then (s, g5Ident &&& m, none)
  else match regOp ch off with
    | some op => readReg (if 0x8000 ≤ off then .g5 else ch) op m s
    | none => (s, 0, none)

/-- A write of an offset as the channel's access names it. -/
def writeBus (ch : Chan) (off : Nat) (be : BitVec 4) (v : Word) (s : State) : State × Option (BitVec 8) :=
  match regOp ch off with
  | some op => writeReg (if 0x8000 ≤ off then .g5 else ch) op be v s
  | none => (s, none)

/-- A read of a register by its G7 offset over a channel that reaches it now; its value is put on the port. -/
def queryAt (ch : Chan) (off : Nat) (be : BitVec 4) (s : State) : State :=
  match cmdOp ch off with
  | some op =>
    if reaches s ch then
      let (t, v, _) := readReg ch op (byteMask be) s
      emit (.regData ch (BitVec.ofNat 16 off) v) t
    else s
  | none => s

/-! ### The tenant window (R139, R344, R383; Tables 5.2, 15.11) -/

/-- A tenant as a context. -/
def ofTenant (t : Fin 128) : Ctx := ⟨t.val, by omega⟩

/-- The oldest entry of a tenant's queue as TW_EV_ENTRY0–7 show it: words 1 to 7 are latched by a read of word 0 (R344). -/
def windowEntry (q : Tenant) (k : Nat) : Word :=
  if k = 0 then q.queue.head?.elim 0 fun e => entryWord e 0 else q.qLatch.elim 0 fun e => entryWord e k

/-- The value of a register of a tenant's window; an offset Table 15.11 does not list reads 0 (R383). -/
def windowValue (t : Fin 128) (off : Nat) (s : State) : Word :=
  let c := ofTenant t
  let q := s.tenant c
  match off with
  | 0x000 => putB (tenantExposed s t.val) 8 ||| put t.val 0
  | 0x004 => tnStatus s c &&& 0x7F
  | 0x008 => put q.size.toNat 0
  | 0x00C => tnModeWord s c
  | 0x018 => lo32 q.lastAsn
  | 0x020 => lo32 s.lg.minute
  | 0x024 => put (s.lg.epoch % 2 ^ 16) 0
  | 0x0A0 => put q.queue.length 16 ||| put (sat 8 q.qLost) 0
  | _ =>
    if inRange off 0x040 0x08C then
      let n := counterAt s.lg.live[c] ((off - 0x040) / 8)
      if off % 8 = 0 then lo32 n else hi32 n
    else if inRange off 0x0C0 0x0DC then windowEntry q ((off - 0x0C0) / 4)
    else 0

/-- What a read of the bits `m` of a window register does: LOST clears, and a read of entry word 0 latches the others (R344). -/
def windowFx (t : Fin 128) (off : Nat) (m v : Word) (s : State) : State :=
  if !touched m then s
  else if off = 0x0A0 then modTenant (ofTenant t) (fun q => { q with qLost := rcCount q.qLost v m 0 8 }) s
  else if off = 0x0C0 then modTenant (ofTenant t) (fun q => { q with qLatch := q.queue.head? }) s
  else s

/-- A read of the bits `m` of a window register. -/
def readWindow (t : Fin 128) (off : Nat) (m : Word) (s : State) : State × Word :=
  let v := windowValue t off s
  (windowFx t off m v s, v &&& m)

/-- A write of a window register: the tenant's fence and the pop of its queue (R58, R344); every other offset ignores it (R383).
An entry to HIBERNATE refuses both (R323). -/
def writeWindow (t : Fin 128) (off : Nat) (v : Word) (s : State) : State :=
  let b : Block := if off = 0x010 then .gl else .ev
  if off ≠ 0x010 ∧ off ≠ 0x0A4 then s
  else if s.pw.entering then
    setSticky b (ofTenant t) (logRefusal .bar0 b.unit (ctxByte (ofTenant t)) off cWRONG_STATE v s)
  else if off = 0x010 then fenceCtx (ofTenant t) s
  else modTenant (ofTenant t) (fun q => { q with queue := q.queue.drop 1 }) s

end Sys2Proof.Machine
end

