-- ==== Sys2Proof/Machine/Registers.lean ====
section
/-! DEFINITION. The commands that are an access of one register: a write with its command bit, or a read (the rows of the
opcode table whose rule names a register). -/

namespace Sys2Proof.Machine

/-! ### Power (12) -/

/-- PW_CTRL.QUIET_EN is written (R317). -/
def execQuietEn (ch : Chan) (v : Word) (s : State) : Host.Outcome State Fault Refusal := act (command ch 0x4004 v) s

/-- PW_CTRL.STANDBY (R320). -/
def execStandby (ch : Chan) (v : Word) (s : State) : Host.Outcome State Fault Refusal := act (command ch 0x4004 (v ||| 0x2)) s

/-- PW_CTRL.DISARM (R320). -/
def execDisarm (ch : Chan) (v : Word) (s : State) : Host.Outcome State Fault Refusal := act (command ch 0x4004 (v ||| 0x8)) s

/-- PW_CTRL.HIBERNATE (R323). -/
def execHibernate (ch : Chan) (v : Word) (s : State) : Host.Outcome State Fault Refusal := act (command ch 0x4004 (v ||| 0x4)) s

/-! ### Hold buffer and media (01, 04) -/

/-- PC_CTRL.REMEASURE (R293). -/
def execRemeasure (ch : Chan) (v : Word) (s : State) : Host.Outcome State Fault Refusal := act (command ch 0x043C (v ||| 0x2)) s

/-- PC_CTRL.WRITEBACK_ALL (R45). -/
def execWritebackAll (ch : Chan) (v : Word) (s : State) : Host.Outcome State Fault Refusal := act (command ch 0x043C (v ||| 0x1)) s

/-- MD_CTRL.SCRUB_NOW (R125). -/
def execScrubNow (ch : Chan) (v : Word) (s : State) : Host.Outcome State Fault Refusal := act (command ch 0x0804 (v ||| 0x1)) s

/-- MD_CTRL.SCRUB_PAUSE (R125). -/
def execScrubPause (ch : Chan) (v : Word) (s : State) : Host.Outcome State Fault Refusal := act (command ch 0x0804 v) s

/-- MD_INJECT.ARM (R133). -/
def execInjectionArm (ch : Chan) (v : Word) (s : State) : Host.Outcome State Fault Refusal := act (command ch 0x0840 (v ||| 0x100)) s

/-! ### Cartridges and the duet (03) -/

/-- CT_CTRL.RELEASE (R91). -/
def execRelease (ch : Chan) (slot : Slot) (v : Word) (s : State) : Host.Outcome State Fault Refusal :=
  act (command ch (slotBase slot + 0x04) (v ||| 0x1)) s

/-- CT_CTRL.REAUTH (R79). -/
def execReauth (ch : Chan) (slot : Slot) (v : Word) (s : State) : Host.Outcome State Fault Refusal :=
  act (command ch (slotBase slot + 0x04) (v ||| 0x2)) s

/-- CT_CTRL.SV_SOFT is set: software owns the supervisor select (R262). -/
def execSvSoft (ch : Chan) (slot : Slot) (v : Word) (s : State) : Host.Outcome State Fault Refusal :=
  act (command ch (slotBase slot + 0x04) (v ||| 0x8)) s

/-- CT_SV_CMD starts a pass-through command (R77). -/
def execSupervisorPassthrough (ch : Chan) (slot : Slot) (v : Word) (s : State) : Host.Outcome State Fault Refusal :=
  act (command ch (slotBase slot + 0x34) v) s

/-- CT_DUET_CTRL.ABORT (R96). -/
def execDuetAbort (ch : Chan) (v : Word) (s : State) : Host.Outcome State Fault Refusal := act (command ch 0x0D04 (v ||| 0x100)) s

/-- CT_DUET_CTRL.CUT (R96). -/
def execCut (ch : Chan) (v : Word) (s : State) : Host.Outcome State Fault Refusal := act (command ch 0x0D04 (v ||| 0x200)) s

/-! ### Tenants and countersign (05) -/

/-- A write of a register, as the access names it, over a channel that reaches the engine now. -/
def writeHere (ch : Chan) (off : Nat) (be : BitVec 4) (v : Word) (s : State) : State :=
  if reaches s ch then (writeBus ch off be v s).1 else s

/-- TN_MODE is written (R18): of the context in the channel's TN_INDEX, or over the G5 window of the context that the position
names (R231). -/
def execTnModeWrite (ch : Chan) (v : Word) (s : State) (pos : Fin 33 := 32) : Host.Outcome State Fault Refusal :=
  act (if ch = .g5 then writeHere .g5 (g5ModeOff pos) allBytes v else command ch 0x1014 v) s

/-- A CS field is written (R151). -/
def execCsStage (ch : Chan) (off : BitVec 16) (be : BitVec 4) (v : Word) (s : State) : Host.Outcome State Fault Refusal :=
  act (writeHere ch off.toNat be v) s

/-- CS_TAG_HI is written: the countersign (R153). -/
def execCountersign (ch : Chan) (v : Word) (s : State) : Host.Outcome State Fault Refusal := act (command ch 0x481C v) s

/-- CS_CTRL.WITHDRAW (R154). -/
def execWithdraw (ch : Chan) (v : Word) (s : State) : Host.Outcome State Fault Refusal := act (command ch 0x4820 (v ||| 0x1)) s

/-- CS_CTRL.SECRET_COMMIT (R149). -/
def execSecretCommit (ch : Chan) (v : Word) (s : State) : Host.Outcome State Fault Refusal := act (command ch 0x4820 (v ||| 0x2)) s

/-! ### Ledger (06) -/

/-- LG_SYNC_HI is written: a TIME_SYNC (R172). -/
def execTimeSync (ch : Chan) (v : Word) (s : State) : Host.Outcome State Fault Refusal := act (command ch 0x1418 v) s

/-- LG_CONSUMED_SEQ is written (R169). -/
def execLgConsumedSeqWrite (ch : Chan) (v : Word) (s : State) : Host.Outcome State Fault Refusal := act (command ch 0x1438 v) s

/-- LG_TOT_CTRL.LATCH (R182). -/
def execLatch (ch : Chan) (v : Word) (s : State) : Host.Outcome State Fault Refusal := act (command ch 0x1448 (v ||| 0x1)) s

/-! ### DMA (07) -/

/-- DM_CH_CTRL.START (R189). -/
def execStart (ch : Chan) (n : Fin 32) (v : Word) (s : State) : Host.Outcome State Fault Refusal := act (command ch (chBase n) (v ||| 0x1)) s

/-- DM_CH_CTRL.FERMATA (R206). -/
def execFermata (ch : Chan) (n : Fin 32) (v : Word) (s : State) : Host.Outcome State Fault Refusal := act (command ch (chBase n) (v ||| 0x2)) s

/-- DM_CH_CTRL.RESUME (R206). -/
def execResume (ch : Chan) (n : Fin 32) (v : Word) (s : State) : Host.Outcome State Fault Refusal := act (command ch (chBase n) (v ||| 0x4)) s

/-- DM_CH_CTRL.ABORT (R207). -/
def execAbort (ch : Chan) (n : Fin 32) (v : Word) (s : State) : Host.Outcome State Fault Refusal := act (command ch (chBase n) (v ||| 0x8)) s

/-- DM_CH_CTRL.KICK (R190). -/
def execKick (ch : Chan) (n : Fin 32) (v : Word) (s : State) : Host.Outcome State Fault Refusal := act (command ch (chBase n) (v ||| 0x10)) s

/-- DM_CH_DOORBELL is written (R195). -/
def execDoorbell (ch : Chan) (n : Fin 32) (v : Word) (s : State) : Host.Outcome State Fault Refusal :=
  act (command ch (chBase n + 0x38) v) s

/-- DM_REQ_SW is written (R195). -/
def execSwRequest (ch : Chan) (v : Word) (s : State) : Host.Outcome State Fault Refusal := act (command ch 0x1808 v) s

/-! ### Keep store (10) -/

/-- KS_WDATA is written (R272). -/
def execKsWdata (ch : Chan) (be : BitVec 4) (v : Word) (s : State) : Host.Outcome State Fault Refusal := act (writeAt ch 0x3810 be v) s

/-- KS_RDATA is read (R271). -/
def execKsRdata (ch : Chan) (s : State) : Host.Outcome State Fault Refusal := act (queryAt ch 0x380C allBytes) s

/-- KS_CTRL.COMMIT (R272). -/
def execCommit (ch : Chan) (v : Word) (s : State) : Host.Outcome State Fault Refusal := act (command ch 0x3804 (v ||| 0x1)) s

/-- KS_CTRL.DISCARD (R273). -/
def execDiscard (ch : Chan) (v : Word) (s : State) : Host.Outcome State Fault Refusal := act (command ch 0x3804 (v ||| 0x2)) s

/-! ### Serial ports (09) -/

/-- SPn_MCMD is written: a master transaction starts (R261). -/
def execMasterTransaction (ch : Chan) (port : Port) (v : Word) (s : State) : Host.Outcome State Fault Refusal :=
  act (command ch (spBase port + 0x20) v) s

/-- SPn_FIFO_CFG.FLUSH_TX (R263). The thresholds of the word are stored with it. -/
def execFlushTx (ch : Chan) (port : Port) (v : Word) (s : State) : Host.Outcome State Fault Refusal :=
  act (command ch (spBase port + 0x18) (v ||| 0x2000000)) s

/-- SPn_FIFO_CFG.FLUSH_RX (R263). -/
def execFlushRx (ch : Chan) (port : Port) (v : Word) (s : State) : Host.Outcome State Fault Refusal :=
  act (command ch (spBase port + 0x18) (v ||| 0x1000000)) s

/-- SPn_DATA is accessed (R263). -/
def execSpDataAccess (ch : Chan) (port : Port) (wr : Bool) (be : BitVec 4) (v : Word) (s : State) : Host.Outcome State Fault Refusal :=
  act (if wr then writeAt ch (spBase port + 0x10) be v else queryAt ch (spBase port + 0x10) be) s

/-! ### Events and trace (13) -/

/-- EV_POP is written (R342). -/
def execEvPop (ch : Chan) (v : Word) (s : State) : Host.Outcome State Fault Refusal := act (command ch 0x440C v) s

/-- EV_RD_SEQ is written (R342). -/
def execEvRdSeqWrite (ch : Chan) (v : Word) (s : State) : Host.Outcome State Fault Refusal := act (command ch 0x4408 v) s

/-- EV_ENTRY0 is read (R342). -/
def execEvEntryLatch (ch : Chan) (s : State) : Host.Outcome State Fault Refusal := act (queryAt ch 0x4460 allBytes) s

/-- EV_ROUTE is written (R346). -/
def execEvRouteWrite (ch : Chan) (v : Word) (s : State) : Host.Outcome State Fault Refusal := act (command ch 0x4418 v) s

/-- EV_TRACE_MARK is written (Table 13.7). -/
def execEvTraceMark (ch : Chan) (v : Word) (s : State) : Host.Outcome State Fault Refusal := act (command ch 0x4424 v) s

/-- EV_TRACE_SEL is written over a serial port (R252). -/
def execEvTraceSelWrite (port : Port) (v : Word) (s : State) : Host.Outcome State Fault Refusal :=
  act (command (match port with
    | .p0 => .sp0
    | .p1 => .sp1) 0x4430 v) s

/-- EV_TRACE_DATA0 is read (R252). -/
def execTraceDataFetch (ch : Chan) (s : State) : Host.Outcome State Fault Refusal := act (queryAt ch 0x4438 allBytes) s

/-- TW_EV_POP is written in the tenant's window (R344). -/
def execTwEvPop (t : Fin 128) (v : Word) (s : State) : Host.Outcome State Fault Refusal :=
  act (fun s => guarded (reaches s .bar0) (writeWindow t 0x0A4 v) s) s

/-- TW_EV_ENTRY0 is read in the tenant's window (R344). -/
def execTwEvEntryLatch (t : Fin 128) (s : State) : Host.Outcome State Fault Refusal :=
  act (fun s =>
    if reaches s .bar0 then
      let (s, v) := readWindow t 0x0C0 0xFFFFFFFF s
      emit (.regData .bar0 0x0C0 v) s
    else s) s

/-! ### Self-test, host link, and every other register (08, 11, 15) -/

/-- BT_CTRL.RUN (R297). -/
def execRun (ch : Chan) (v : Word) (s : State) : Host.Outcome State Fault Refusal := act (command ch 0x3C04 (v ||| 0x1)) s

/-- BT_CTRL.STOP (R297). -/
def execStop (ch : Chan) (v : Word) (s : State) : Host.Outcome State Fault Refusal := act (command ch 0x3C04 (v ||| 0x2)) s

/-- BT_CTRL.EXIT (R297). -/
def execExit (ch : Chan) (v : Word) (s : State) : Host.Outcome State Fault Refusal := act (command ch 0x3C04 (v ||| 0x4)) s

/-- HL_APERTURE is written (R223). -/
def execApertureWrite (ch : Chan) (v : Word) (s : State) : Host.Outcome State Fault Refusal := act (command ch 0x3008 v) s

/-- A register with read-to-clear fields is read (R385). -/
def execReadClear (ch : Chan) (off : BitVec 16) (be : BitVec 4) (s : State) : Host.Outcome State Fault Refusal :=
  act (fun s =>
    if reaches s ch then
      let (t, v, _) := readBus ch off.toNat (byteMask be) s
      emit (.regData ch off v) t
    else s) s

/-- A register without a row of its own is written (R9). -/
def execRegisterWrite (ch : Chan) (off : BitVec 16) (be : BitVec 4) (v : Word) (s : State) : Host.Outcome State Fault Refusal :=
  act (writeHere ch off.toNat be v) s

/-- A fence (R58): GL_FENCE from the host or SP0, or the FENCE of a tenant's window. -/
def execFence (scope : FlushScope) (s : State) : Host.Outcome State Fault Refusal :=
  act (match scope with
    | .all => command .bar0 0x0050 1
    | .tenant t => fun s => guarded (reaches s .bar0) (writeWindow t 0x010 1) s
    | .serial => command .sp0 0x0050 1) s

end Sys2Proof.Machine
end

