-- ==== Sys2Proof/Machine/Serial.lean ====
section
/-! DEFINITION. The serial ports: slave frames, their rejection, replay and words, and master transactions (chapter 09). -/

namespace Sys2Proof.Machine

/-! ### Bits and words of a frame (R248–R251) -/

/-- The number that bits spell, the first the most significant. -/
def bitsNat (bs : List Bool) : Nat := bs.foldl (fun n b => 2 * n + (if b then 1 else 0)) 0

/-- A list cut into pieces of `n` (at most `k` of them). -/
def chunks (n : Nat) : Nat → List α → List (List α)
  | 0, _ => []
  | k + 1, l => if l.isEmpty then [] else l.take n :: chunks n k (l.drop n)

/-- A byte of the data as carried: its bits lie at the high end (R251). The mask of the bits carried, and their values. -/
def carriedByte (bs : List Bool) : Nat × Nat :=
  let shift := 2 ^ (8 - bs.length)
  ((2 ^ bs.length - 1) * shift, bitsNat bs * shift)

/-- The data's bytes: each unit begins with a whole byte (R251). -/
def frameBytes (unit : Nat) (data : List Bool) : List (List Bool) :=
  (chunks (max unit 1) data.length data).flatMap fun u => chunks 8 u.length u

/-- A word of the data: the bits carried, and their values. -/
def carriedWord (bs : List (List Bool)) : Word × Word :=
  let m := (List.range 4).map fun k => (carriedByte (bs.getD k [])).1 * (if k < bs.length then 1 else 0)
  let v := (List.range 4).map fun k => (carriedByte (bs.getD k [])).2
  (BitVec.ofNat 32 (total (fun e => e.1 * 2 ^ (8 * e.2)) (m.zip (List.range 4))),
   BitVec.ofNat 32 (total (fun e => e.1 * 2 ^ (8 * e.2)) (v.zip (List.range 4))))

/-- The words of the data. -/
def frameWords (unit : Nat) (data : List Bool) : List (Word × Word) :=
  let bytes := frameBytes unit data
  (chunks 4 bytes.length bytes).map carriedWord

/-- The bits of the read words as shifted: of each byte as many high bits as the data carry. -/
def shiftedBits (unit : Nat) (data : List Bool) (words : List Word) : List Bool :=
  let bytes := words.flatMap wordBytes
  ((frameBytes unit data).zip bytes).flatMap fun e => (byteBits e.2).take e.1.length

/-! ### Addresses (R249, R250, R381) -/

/-- A FIFO register: the address holds there. -/
def fifoReg (off : Nat) : Bool :=
  decide (off = 0x3410) || decide (off = 0x3510) || decide (off = 0x0C38) || decide (off = 0x0E38) || decide (off = 0x380C)
    || decide (off = 0x3810)

/-- The address of the word after one. -/
def nextOff (off : Nat) : Nat := if fifoReg off then off else off + 4

/-- A status register whose flags are W1C: the bits a partial byte does not carry keep their values by being written 0. -/
def flagReg (off : Nat) : Bool :=
  [0x0058, 0x0400, 0x0800, 0x0C00, 0x0D00, 0x0E00, 0x1004, 0x1400, 0x1800, 0x3000, 0x3400, 0x3500, 0x3800, 0x3C00, 0x4000, 0x4028,
   0x4400, 0x4800].any (fun o => decide (o = off)) || (inRange off 0x2000 0x2FFC && decide (off % 0x80 = 4))

/-- The value of a word write: bits of a partial byte that are not carried keep their register values (R251). -/
def wordValue (ch : Chan) (off : Nat) (m v : Word) (s : State) : Word :=
  if flagReg off then v &&& m
  else
    let keep : Word := if off = 0x0840 then 0x8F else 0xFFFFFFFF
    (v &&& m) ||| (regValue ch { off := off } s &&& keep &&& ~~~ m)

/-- Byte enables of the bits carried. -/
def enabled (m : Word) : BitVec 4 := BitVec.ofNat 4 (total (fun k => if fld m (8 * k) 8 = 0 then 0 else 2 ^ k) (List.range 4))

/-- The channel of a port's own frames. -/
def portChan : Port → Chan
  | .p0 => .sp0
  | .p1 => .sp1

/-- The unit that an event of a port names. -/
def portUnit : Port → BitVec 5
  | .p0 => uSP0
  | .p1 => uSP1

/-- A word written to a reserved page is refused with RANGE (R249), to SP1 with PERMISSION (R245). -/
def reservedWrite (p : Port) (off : Nat) (v : Word) (s : State) : State × Option (BitVec 8) :=
  let code := if p = .p1 then cPERMISSION else cRANGE
  (logRefusal (portChan p) (portUnit p) noCtx off code v s, some code)

/-- One word of a write frame (R256). -/
def writeFrameWord (p : Port) (off : Nat) (m v : Word) (s : State) : State × Option (BitVec 8) :=
  if 0x8000 ≤ off then reservedWrite p off v s
  else writeReg (portChan p) { off := off } (enabled m) (wordValue (portChan p) off m v s) s

/-- The words of a write frame in order; each sees the effect of those before it, and the first refusal is kept (R256). -/
def writeRun (p : Port) : Nat → List (Word × Word) → State → State × Option (BitVec 8)
  | _, [], s => (s, none)
  | off, (m, v) :: rest, s =>
    let (s, code) := writeFrameWord p off m v s
    let (s, later) := writeRun p (nextOff off) rest s
    (s, code <|> later)

/-- The words of a read frame in order, with their effects (R256); a reserved page reads zeros (R249). -/
def readRun (p : Port) : Nat → List (Word × Word) → State → State × List Word × Option (BitVec 8)
  | _, [], s => (s, [], none)
  | off, (m, _) :: rest, s =>
    let (s, v, code) := if 0x8000 ≤ off then (s, 0, none) else readReg (portChan p) { off := off } m s
    let (s, vs, later) := readRun p (nextOff off) rest s
    (s, v :: vs, code <|> later)

/-! ### Frames (R248, R253–R258) -/

/-- A frame taken apart, with the settings latched at its select fall (R251). -/
structure Frame where
  sdi    : List Bool
  unit   : Nat
  crcEn  : Bool
  /-- Bits of CMD and EXT. -/
  head   : Nat
  ext    : Bool
  rd     : Bool
  toggle : Bool
  /-- The address of the first word. -/
  page   : Nat
  index  : Nat
  /-- The data bits, and whether a whole CRC part follows. -/
  data   : List Bool
  crc    : Bool
  deriving DecidableEq, Repr

/-- The frame that a port's SDI bits are (Table 9.4). A fraction of the CRC is counted as data (R254). -/
def frameOf (q : Sp) (sdi : List Bool) : Frame :=
  let cmd := bitsNat (sdi.take 8)
  let ext := decide (8 ≤ sdi.length) && decide (cmd % 64 = 63)
  let head := if ext then 24 else 8
  let address := bitsNat ((sdi.drop 8).take 16)
  let rest := sdi.length - head
  let crc := q.crcEn && decide (8 ≤ rest)
  { sdi := sdi, unit := if q.bulk then q.length.toNat else 8, crcEn := q.crcEn, head := head, ext := ext
    rd := sdi.getD 0 false, toggle := sdi.getD 1 false
    page := if ext then address / 64 else q.page.toNat, index := if ext then address % 64 else cmd % 64
    data := (sdi.drop head).take (if crc then rest - 8 else rest), crc := crc }

/-- The SDI bits that a repeat must equal: CMD, EXT and DATA. -/
def Frame.body (f : Frame) : List Bool := f.sdi.take (f.head + f.data.length)

/-- The master's CRC is good (R258): over CMD and EXT and, for a write, DATA. -/
def Frame.crcOk (f : Frame) : Bool :=
  let covered := if f.rd then f.sdi.take f.head else f.body
  f.crc && decide (bitsNat (f.sdi.drop (f.head + f.data.length)) = crc8Bits covered)

/-- The frame's toggle is the replay copy's (R257). -/
def Frame.again (f : Frame) (q : Sp) : Bool := q.copy.elim false fun c => decide (c.toggle = f.toggle)

/-- The frame is a repeat of the copy's (R257). -/
def Frame.repeats (f : Frame) (q : Sp) : Bool := f.again q && q.copy.elim false fun c => decide (c.sdi = f.body)

/-- The status code a frame is rejected with (R254): the items in their order. -/
def Frame.reject (f : Frame) (q : Sp) (sckFall sckRise : Bool) : Option (BitVec 3) :=
  let n := f.data.length
  if f.sdi.length < f.head then some 1
  else if sckFall != sckRise then some 1
  else if n % max f.unit 1 ≠ 0 ∨ 4096 < n then some 1
  else if f.crcEn && !f.crcOk then some 2
  else if f.crcEn && f.rd && decide (n ≠ 0) && decide (n ≠ f.unit) then some 1
  else if decide (n ≠ 0) && f.again q && !f.repeats q then some 5
  else none

/-- SPn_LAST_CMD (Table 9.14). -/
def Frame.lastCmd (f : Frame) (again : Bool) : Word :=
  putB f.rd 31 ||| putB f.toggle 30 ||| put f.page 20 ||| put f.index 14 ||| putB again 13 ||| put f.data.length 0

/-- The bits the engine shifts out: status, zeros during EXT, a read's data, and the CRC of a read (Table 9.4, R258). -/
def Frame.sdo (f : Frame) (status : Byte) (data : List Bool) : List Bool :=
  let head := byteBits status ++ List.replicate (f.head - 8) false
  let body := if f.rd then head ++ data else head ++ List.replicate f.data.length false
  let crc := if f.rd && !f.data.isEmpty then byteBits (BitVec.ofNat 8 (crc8Bits body)) else List.replicate 8 false
  ((if f.crc then body ++ crc else body) ++ List.replicate f.sdi.length false).take f.sdi.length

/-- A rejected frame touches no register; the flag and the counters of its port advance (R254). -/
def rejectFrame (p : Port) (code : BitVec 3) : State → State :=
  modSp p fun q => { q with
    status := code, crcSeen := q.crcSeen || decide (code = 2), rejectSeen := q.rejectSeen || decide (code ≠ 2)
    rejected := q.rejected + 1, crcFail := if code = 2 then q.crcFail + 1 else q.crcFail }

/-- An accepted extended frame sets SPn_PAGE (R249). -/
def setPage (p : Port) (f : Frame) : State → State :=
  if f.ext then modSp p fun q => { q with page := BitVec.ofNat 10 f.page } else id

/-- An accepted frame with data is counted and recorded (Table 9.14). -/
def acceptFrame (p : Port) (f : Frame) (again : Bool) (s : State) : State :=
  modSp p (fun q => { q with accepted := q.accepted + 1, lastCmd := f.lastCmd again }) (setPage p f s)

/-- The outcome of a new frame: CODE and LAST_RESULT (Table 9.6). -/
def closeFrame (p : Port) (code : Option (BitVec 8)) : State → State :=
  modSp p fun q => { q with status := if code.isSome then 3 else 0, lastResult := code.getD cOK }

/-- The read words of a frame, fetched while it is in progress (R252). -/
def fetchFrame (p : Port) (f : Frame) (s : State) : State × List Bool × Option (BitVec 8) :=
  let s := modSp p (fun q => { q with inFrame := true }) s
  let (s, words, code) := readRun p (f.page * 256 + 4 * f.index) (frameWords f.unit f.data) s
  (modSp p (fun q => { q with inFrame := false }) s, shiftedBits f.unit f.data words, code)

/-- A new read frame (R256, R257). -/
def serveReadFrame (p : Port) (f : Frame) (status : Byte) (s : State) : State :=
  let (s, data, code) := fetchFrame p f s
  let s := modSp p (fun q => { q with copy := some ⟨f.toggle, f.body, data⟩, toggle := f.toggle }) (acceptFrame p f false s)
  emit (.sdo p (f.sdo status data)) (closeFrame p code s)

/-- A new write frame (R256, R257): the copy is kept first, so that a write of the port's settings empties it. -/
def writeFrame (p : Port) (f : Frame) (status : Byte) (s : State) : State :=
  let s := emit (.sdo p (f.sdo status [])) s
  let s := modSp p (fun q => { q with copy := some ⟨f.toggle, f.body, []⟩, toggle := f.toggle }) (acceptFrame p f false s)
  let (s, code) := writeRun p (f.page * 256 + 4 * f.index) (frameWords f.unit f.data) s
  closeFrame p code s

/-- A repeat is answered from the copy, and nothing is executed (R257). -/
def repeatFrame (p : Port) (f : Frame) (status : Byte) (s : State) : State :=
  let data := (s.sp p).copy.elim [] fun c => c.sdo
  let s := modSp p (fun q => { q with status := 4 }) (acceptFrame p f true s)
  emit (.sdo p (f.sdo status data)) s

/-- What a rejected frame has shifted: the copy's data under the copy's toggle, else the words as fetched (R252, R257). -/
def rejectedData (p : Port) (f : Frame) (s : State) : List Bool :=
  let q := s.sp p
  if f.again q then ((q.copy.elim [] fun c => c.sdo) ++ List.replicate f.data.length false).take f.data.length
  else (fetchFrame p f s).2.1

/-- The port takes slave frames: the engine is clocked and not draining, the port is a slave and its select names a pin (R260, R358). -/
def takesFrames (s : State) (p : Port) : Bool :=
  s.pw.state.clocked && s.pc.drain.isNone && !(s.sp p).master && realPin (s.sp p).selPin

/-- A slave frame, judged in the cycle its select rise is registered (R254–R257). -/
def slaveFrame (p : Port) (sdi : List Bool) (sckFall sckRise : Bool) (s : State) : State :=
  if !takesFrames s p then s
  else
    let q := s.sp p
    let f := frameOf q sdi
    let status := statusByte s p
    let s := selectLevel q.selPin true (selectLevel q.selPin false s)
    match f.reject q sckFall sckRise with
    | some code => emit (.sdo p (f.sdo status (rejectedData p f s))) (rejectFrame p code s)
    | none =>
      if f.data.isEmpty then emit (.sdo p (f.sdo status [])) (setPage p f s)
      else if f.repeats q then repeatFrame p f status s
      else if f.rd then serveReadFrame p f status s
      else writeFrame p f status s

/-! ### Master transactions (R261, R262) -/

/-- Whole and partial bytes that a number of bits takes. -/
def bytesOf (bits : Nat) : Nat := (bits + 7) / 8

/-- Bytes that can move now: TX has them, and RX has room for them. -/
def movable (q : Sp) (t : SpTx) : Nat :=
  let room := if t.noRx then bytesOf t.len else 256 - q.rx.length
  min (bytesOf t.len) (min q.tx.length room)

/-- Received bits packed into bytes, the last left-aligned (R261); bits the line did not give are free (log 4). -/
def packed (s : State) (n : Nat) (sdo : List Bool) : List Byte :=
  let bits := sdo.take n ++ (List.range (n - sdo.length)).map fun k => bit (Config.freeBits 1 (s.freeCtr + k)) 0
  (chunks 8 (bytesOf n) bits).map fun b => BitVec.ofNat 8 (carriedByte b).2

/-- The select of a transaction that ends: released, or held for the next one (R261). -/
def endSelect (p : Port) (t : SpTx) (hold : Bool) (s : State) : State :=
  if !t.autoSel then s
  else if hold then modSp p (fun q => { q with heldSel := some t.pin }) s
  else selectLevel t.pin true (modSp p (fun q => { q with heldSel := none }) s)

/-- A transaction ends with a result; SP_DONE is logged where DONE_IRQ is set (R261, Table 13.3). -/
def endTxn (p : Port) (t : SpTx) (hold : Bool) (code : BitVec 8) (s : State) : State :=
  let s := endSelect p t hold (modSp p (fun q => { q with txn := none, lastResult := code }) s)
  if (s.sp p).doneIrq then
    raise (portUnit p) cSP_DONE noCtx (if p = .p0 then 0 else 1) (code.setWidth 32) 0 s
  else s

/-- Bytes move between the FIFOs and the line; a transaction that has moved all its bits ends, another stretches (R261). -/
def masterEnd (p : Port) (sdo : List Bool) (s : State) : State :=
  let q := s.sp p
  match q.txn with
  | none => s
  | some t =>
    let k := movable q t
    let bits := min t.len (8 * k)
    let sent := ((q.tx.take k).flatMap byteBits).take bits
    let got := if t.noRx then [] else packed s bits sdo
    let u := { t with len := t.len - bits, start := if k = 0 then t.start else s.now }
    let s := { s with freeCtr := s.freeCtr + (bits - sdo.length) }
    let s := emit (.sdo p sent) (modSp p (fun q => { q with tx := q.tx.drop k, rx := q.rx ++ got, txn := some u }) s)
    if u.len = 0 then endTxn p u u.holdSel cOK s else s

/-- A stretch of 10 ms ends the transaction with TIMEOUT and releases the select (R261). -/
def stretchEnds (p : Port) (s : State) : State :=
  let q := s.sp p
  match q.txn with
  | none => s
  | some t => if movable q t = 0 ∧ t.start + 10 * ms ≤ s.now then endTxn p t false cTIMEOUT s else s

/-- A MODE change takes effect when the port is free (R245); it empties the replay copy (R257). -/
def modeChange (p : Port) (s : State) : State :=
  let q := s.sp p
  match q.modeNext with
  | none => s
  | some m =>
    if q.mbusy || q.inFrame then s
    else
      let s := match q.heldSel with
        | some pin => selectLevel pin true s
        | none => s
      modSp p (fun q => { q with master := m, modeNext := none, copy := none, heldSel := none }) s

/-! ### The commands -/

/-- A slave frame without data (R255); the bits decide what the frame is. -/
def execSpPoll (port : Port) (sdi : List Bool) (sckFall sckRise : Bool) (s : State) : Host.Outcome State Fault Refusal :=
  act (slaveFrame port sdi sckFall sckRise) s

/-- A slave frame that writes (R256). -/
def execSpWriteFrame (port : Port) (sdi : List Bool) (sckFall sckRise : Bool) (s : State) : Host.Outcome State Fault Refusal :=
  act (slaveFrame port sdi sckFall sckRise) s

/-- A slave frame that reads (R256). -/
def execSpReadFrame (port : Port) (sdi : List Bool) (sckFall sckRise : Bool) (s : State) : Host.Outcome State Fault Refusal :=
  act (slaveFrame port sdi sckFall sckRise) s

/-- A MODE change is due (R245). -/
def execSpModeChange (port : Port) (s : State) : Host.Outcome State Fault Refusal := act (modeChange port) s

/-- The bytes of a master transaction have been clocked (R261). -/
def execMasterTransactionEnd (port : Port) (sdo : List Bool) (s : State) : Host.Outcome State Fault Refusal := act (masterEnd port sdo) s

/-- A stretch has lasted 10 ms (R261). -/
def execStretchTimeout (port : Port) (s : State) : Host.Outcome State Fault Refusal := act (stretchEnds port) s

end Sys2Proof.Machine
end

