-- ==== Sys2Proof/Machine/Target.lean ====
section
/-! DEFINITION. What a host memory request reaches: the BARs of the functions, their register words, the descriptor SRAM and
the MSI-X tables (R135, R139, R213, R222–R225, R229, R380). -/

namespace Sys2Proof.Machine

/-- What an offset of a BAR is. -/
inductive Target where
  /-- An Unsupported Request; `aperture` = an aperture access outside every context (R223). -/
  | unsup (aperture : Bool)
  | media (c : Ctx) (off : Nat)
  /-- A DPA in no enabled partition (R225). -/
  | noContext
  | regs (off : Nat)
  | window (t : Fin 128) (off : Nat)
  | sram (off : Nat)
  | table (fn : Fn) (off : Nat)
  | pba (fn : Fn) (off : Nat)
  /-- The CXL component and device registers (R242), whose values CXL 2.0 gives. -/
  | cxlBlock
  | reserved
  deriving DecidableEq, Repr

/-- A VF is exposed (R139). -/
def vfOn (s : State) (v : Fin 128) : Bool := tenantExposed s v.val

/-- The memory space of a function answers: not in D3hot (R240), and only of an enabled VF. -/
def memOn (s : State) (fn : Fn) : Bool := !s.hl.d3hot && (match fn with
  | .pf => true
  | .vf v => vfOn s v)

/-! ### HDM decoders (R225) -/

/-- The DPA that a decoder's range ends at, from the DPA that the decoders before it end at. -/
def rangeEnd (r : HdmRange) (prev : Nat) : Nat := prev + r.skip + r.size / 2 ^ r.ways

/-- The DPA of a host address in a decoder's range: the interleave bits are taken out. -/
def rangeDpa (r : HdmRange) (prev hpa : Nat) : Option Nat :=
  let o := hpa - r.base
  if r.base ≤ hpa ∧ o < r.size then
    some (prev + r.skip + o / 2 ^ (r.gran + r.ways) * 2 ^ r.gran + o % 2 ^ r.gran)
  else none

/-- The DPA of a host address, by the committed decoders in order. -/
def hdmDpa (s : State) (hpa : Nat) : Option Nat :=
  let first := s.hl.hdm[0].bind fun r => rangeDpa r 0 hpa
  let start := s.hl.hdm[0].elim 0 fun r => rangeEnd r 0
  first <|> s.hl.hdm[1].bind fun r => rangeDpa r start hpa

/-- The address that a host request's record names: in the CXL personality the DPA, or the host's address where no decoder claims
it (log 144). -/
def dpaOf (s : State) (off : Nat) : Nat := if s.hl.effCxl then (hdmDpa s off).getD off else off

/-- A range that decoder 0 or 1 can be committed with: 1 to 8 ways of 256 B to 16 KiB, DPA ranges in 256 MiB units that end in the
DPA space, and host addresses above the decoder's before it (R225; PRESUMED, log 144). -/
def hdmOk (s : State) (d : Fin 2) (r : HdmRange) : Bool :=
  let unit := 2 ^ 28
  let after := if d = 0 then some (0, 0) else s.hl.hdm[0].map fun q => (q.base + q.size, rangeEnd q 0)
  decide (r.ways ≤ 3) && decide (8 ≤ r.gran) && decide (r.gran ≤ 14) && decide (0 < r.size) && decide (r.base % unit = 0)
    && decide (r.skip % unit = 0) && decide (r.size % (unit * 2 ^ r.ways) = 0)
    && after.any fun a => decide (a.1 ≤ r.base) && decide (rangeEnd r a.2 ≤ 448 * unit)

/-- A decoder is committed where it is free and its range fits, or released, the higher one first (PRESUMED, log 144). -/
def setHdm (d : Fin 2) (r : Option HdmRange) (s : State) : State :=
  let ok := match r with
    | some r => s.hl.hdm[d].isNone && hdmOk s d r
    | none => decide (d = 1) || s.hl.hdm[1].isNone
  if s.hl.cxlMode && ok then { s with hl := { s.hl with hdm := s.hl.hdm.set d r } } else s

/-- The enabled partition whose extent contains a DPA, by the bounds that judge the cycle's requests (R138, R225). -/
def dpaContext (s : State) (dpa : Nat) : Option Ctx :=
  (indices 129).find? fun c =>
    let t := s.judged c
    t.enable && decide (t.base.toNat * 2 ^ 20 ≤ dpa) && decide (dpa < (t.base.toNat + t.size.toNat) * 2 ^ 20)

/-- A slot of PF BAR2 (R223). -/
def slotTarget (s : State) (off : Nat) : Target :=
  let size := 2 ^ s.hl.slotLog2Eff.toNat
  let k := off / size
  if k = 128 then .media provider (off % size)
  else if h : k < 128 then (if tenantExposed s k then .unsup true else .media ⟨k, by omega⟩ (off % size))
  else .unsup true

/-- A host address of CXL.mem (R225); without CXL mode no media access is served (Table 2.8, n1). An address that no committed
decoder claims is in no partition (log 144). -/
def dpaTarget (s : State) (hpa : Nat) : Target :=
  if !s.hl.cxlMode then .unsup false
  else match hdmDpa s hpa with
  | none => .noContext
  | some dpa => match dpaContext s dpa with
    | some c => .media c (dpa - (s.judged c).base.toNat * 2 ^ 20)
    | none => .noContext

/-- PF BAR4 (Table 8.2). -/
def bar4Target (s : State) (off : Nat) : Target :=
  if off < 0x80000 then
    let t : Fin 128 := ⟨off / 4096 % 128, Nat.mod_lt _ (by decide)⟩
    if vfOn s t then .unsup false else .window t (off % 4096)
  else if off < 0x90000 then .sram (off - 0x80000)
  else if 0xA0000 ≤ off ∧ off < 0xA0C00 then .table .pf (off - 0xA0000)
  else if 0xA1000 ≤ off ∧ off < 0xA1018 then .pba .pf (off - 0xA1000)
  else if s.hl.effCxl = true ∧ 0xC0000 ≤ off ∧ off < 0xE0000 then .cxlBlock
  else if off < 0x100000 then .reserved
  else .unsup false

/-- VF BAR0 (R224). -/
def vfTarget (s : State) (v : Fin 128) (off : Nat) : Target :=
  if off < 0x1000 then .window v off
  else if off < 0x1010 then .table (.vf v) (off - 0x1000)
  else if 0x1800 ≤ off ∧ off < 0x1808 then .pba (.vf v) (off - 0x1800)
  else if off < max 8192 s.hl.sysPage then .reserved
  else .unsup false

/-- What an offset of a function's BAR reaches; in the CXL personality BAR2 of the PF stands for CXL.mem, whose offsets are host
addresses. -/
def targetOf (s : State) (fn : Fn) (bar : Bar) (off : Nat) : Target :=
  if !memOn s fn then .unsup false
  else match fn, bar with
  | .pf, .bar0 => if off < 0x10000 then .regs off else .unsup false
  | .pf, .bar2 => if s.hl.effCxl then dpaTarget s off else slotTarget s off
  | .pf, .bar4 => bar4Target s off
  | .vf v, .bar0 => vfTarget s v off
  | .vf v, .bar2 =>
    if s.hl.effCxl = false ∧ off < 2 ^ s.hl.slotLog2Eff.toNat then .media (ofTenant v) off else .unsup false
  | .vf _, .bar4 => .unsup false

/-! ### MSI-X vectors (R229, R348, R349) -/

/-- A vector of a function: the PF has 192, a VF has entry 0. -/
def vecOf (s : State) (fn : Fn) (i : Fin 192) : Vec :=
  match fn with
  | .pf => s.hl.pfVec[i]
  | .vf v => if i = 0 then s.hl.vfVec[v] else {}

/-- A vector changed. -/
def modVec (fn : Fn) (i : Fin 192) (f : Vec → Vec) (s : State) : State :=
  match fn with
  | .pf => { s with hl := { s.hl with pfVec := modAt s.hl.pfVec i f } }
  | .vf v => if i = 0 then { s with hl := { s.hl with vfVec := modAt s.hl.vfVec v f } } else s

/-- MSI-X Enable and the function mask of a function. -/
def msixOn (s : State) : Fn → Bool
  | .pf => s.hl.msixPf
  | .vf v => s.hl.msixVf[v] && vfOn s v

def fnMasked (s : State) : Fn → Bool
  | .pf => s.hl.maskPf
  | .vf v => s.hl.maskVf[v]

/-- The moderation interval of a vector in cycles (R348). -/
def interval (s : State) (fn : Fn) (i : Fin 192) : Nat :=
  us * (match fn with
    | .vf _ => fld s.ev.mod 0 10
    | .pf => if i.val < 128 then fld s.ev.mod 0 10 else if i.val < 160 then fld s.ev.mod 10 10 else fld s.ev.mod 20 10)

/-- The PF's entry of an exposed tenant is never signalled (R229). -/
def neverSignalled (s : State) (fn : Fn) (i : Fin 192) : Bool := match fn with
  | .pf => tenantExposed s i.val && decide (i.val < 128)
  | .vf _ => false

/-- The contexts whose failure messages a vector carries (R345, R349). -/
def vectorCtx (fn : Fn) (i : Fin 192) : Option Ctx :=
  match fn with
  | .vf v => some (ofTenant v)
  | .pf => if i.val < 128 then some (toCtx i.val) else if i.val = 160 then some provider else none

/-- A failure entry of the context is still in the intake, on a route to its vector (R349). -/
def failureQueued (s : State) (c : Ctx) : Bool :=
  s.ev.intake.any fun e => decide (e.ctx = ctxByte c) && (decide (e.code = cPWF) || decide (e.code = cPOISON_MERGE))
    && bit (routeOf s e.code) 6

/-- The failure messages of a vector's context are issued, or their pending bit is set. -/
def messageIssued (fn : Fn) (i : Fin 192) (s : State) : State :=
  match vectorCtx fn i with
  | some c => if failureQueued s c then s else modTenant c (fun t => { t with failMsg := false }) s
  | none => s

/-- A message goes to egress. -/
def sendVector (fn : Fn) (i : Fin 192) (s : State) : State :=
  send (.msix fn i.val) none (modVec fn i (fun v => { v with pending := false, reported := false, last := some s.now }) s)

/-- A vector with a cause: its message is issued when the interval allows, or its pending bit is set (R348). -/
def signalVector (fn : Fn) (i : Fin 192) (s : State) : State :=
  let v := vecOf s fn i
  let due := match v.last with
    | some l => decide (interval s fn i = 0) || decide (l + interval s fn i ≤ s.now)
    | none => true
  if !v.cause then s
  else if !msixOn s fn || neverSignalled s fn i then modVec fn i (fun v => { v with cause := false }) s
  else if !due then s
  else
    let s := modVec fn i (fun v => { v with cause := false }) s
    let s := if v.masked || fnMasked s fn then
        modVec fn i (fun v => if v.pending then v else { v with pending := true, pendSince := s.now }) s
      else sendVector fn i s
    messageIssued fn i s

/-- A vector that is unmasked with its pending bit set is sent (PCI Express MSI-X), but for the PF's entry of an exposed tenant
(R229). -/
def releaseVector (fn : Fn) (i : Fin 192) (s : State) : State :=
  let v := vecOf s fn i
  if v.pending && !v.masked && !fnMasked s fn && msixOn s fn && !neverSignalled s fn i then sendVector fn i s else s

/-- The PF's entries of the exposed tenants have no pending bit (R229). -/
def clearExposed (s : State) : State :=
  ((indices 192).filter fun i => neverSignalled s .pf i).foldl (fun s i => modVec .pf i (fun v => { v with pending := false }) s) s

/-- The vector of a table offset. -/
def tableIndex (off : Nat) : Fin 192 := ⟨off / 16 % 192, Nat.mod_lt _ (by decide)⟩

/-- A word of the MSI-X table: address low and high, data, and the mask bit. -/
def tableWord (v : Vec) (k : Nat) : Word :=
  match k % 4 with
  | 0 => lo32 v.addr.toNat
  | 1 => hi32 v.addr.toNat
  | 2 => v.data
  | _ => putB v.masked 0

/-- A word of the table is written. -/
def writeTable (fn : Fn) (off : Nat) (be : BitVec 4) (w : Word) (s : State) : State :=
  let i := tableIndex off
  let k := off / 4 % 4
  let f := fun (v : Vec) =>
    let n := blend (tableWord v k) w be
    match k with
    | 0 => { v with addr := BitVec.ofNat 64 (v.addr.toNat / 2 ^ 32 * 2 ^ 32 + (n &&& 0xFFFFFFFC).toNat) }
    | 1 => { v with addr := BitVec.ofNat 64 (v.addr.toNat % 2 ^ 32 + n.toNat * 2 ^ 32) }
    | 2 => { v with data := n }
    | _ => { v with masked := bit n 0 }
  releaseVector fn i (modVec fn i f s)

/-- A word of the PBA: the pending bits. -/
def pbaWord (s : State) (fn : Fn) (off : Nat) : Word :=
  match fn with
  | .pf => bitsOf 32 fun b => (s.hl.pfVec[(⟨(off / 4 * 32 + b) % 192, Nat.mod_lt _ (by decide)⟩ : Fin 192)]).pending
  | .vf v => if off < 4 then putB (s.hl.vfVec[v]).pending 0 else 0

/-! ### Words and bytes -/

/-- The words that a read of PC_FLUSH names: a flush of every context, or of a window's tenant (Table 1.14). -/
def flushScope (s : State) (fn : Fn) (bar : Bar) (off : Nat) : Option FlushScope :=
  match targetOf s fn bar off with
  | .regs o => if o / 4 * 4 = 0x0428 ∨ o / 4 * 4 = 0x8018 then some .all else none
  | .window t o => if o / 4 * 4 = 0x014 then some (.tenant t) else none
  | _ => none

/-- A word at an offset of a BAR is read. -/
def readWordAt (fn : Fn) (bar : Bar) (off : Nat) (m : Word) (s : State) : State × Word :=
  match targetOf s fn bar off with
  | .regs o => let (s, w, _) := readBus .bar0 o m s
               (s, w)
  | .window t o => readWindow t o m s
  | .table fn o => (s, tableWord (vecOf s fn (tableIndex o)) (o / 4) &&& m)
  | .pba fn o => (s, pbaWord s fn o &&& m)
  | .cxlBlock => (nextFree s, freeOf 32 s &&& m)
  | _ => (s, 0)

/-- A word at an offset of a BAR is written. -/
def writeWordAt (fn : Fn) (bar : Bar) (off : Nat) (be : BitVec 4) (w : Word) (s : State) : State :=
  match targetOf s fn bar off with
  | .regs o => (writeBus .bar0 o be w s).1
  | .window t o => writeWindow t o w s
  | .table fn o => writeTable fn o be w s
  | _ => s

/-- The parts of a wide access, in order (R380). -/
def readParts (fn : Fn) (bar : Bar) : List Part → State → State × List Byte
  | [], s => (s, [])
  | p :: rest, s =>
    let (s, w) := readWordAt fn bar p.off (byteMask p.be) s
    let (s, l) := readParts fn bar rest s
    (s, p.bytes w ++ l)

/-- Bytes of the descriptor SRAM; an access over its end reads 0 there (R222). -/
def sramBytes (s : State) (off len : Nat) : List Byte :=
  (List.range len).map fun k => if off + k < 65536 then memRead sramDefault (off + k) s.dm.sram else 0

/-- A host write of the descriptor SRAM; one that meets the top 4 KiB is ignored and sets DM_STATUS.WRONG_STATE (R213, R222). -/
def hostSram (off : Nat) (data : List Byte) (s : State) : State :=
  if 0xF000 < off + data.length then { s with dm := { s.dm with wrongState := true } } else sramWrite off data s

/-- The bytes of a register access (R380), or of the descriptor SRAM. -/
def readBar (fn : Fn) (bar : Bar) (off len : Nat) (s : State) : State × List Byte :=
  match targetOf s fn bar off with
  | .sram o => (s, sramBytes s o len)
  | _ => match parts off len with
    | some l => readParts fn bar l s
    | none => (s, [])

/-- A register access is one of R380's, or one of the descriptor SRAM of 1 to 8 bytes. -/
def widthOk (t : Target) (off len : Nat) : Bool :=
  match t with
  | .sram _ => decide (1 ≤ len) && decide (len ≤ 8)
  | _ => (parts off len).isSome

end Sys2Proof.Machine
end

