-- ==== Sys2Proof/Machine/HostPath.lean ====
section
/-! DEFINITION. Host memory requests: registration, refusal, order, ingress, admission, completion and flushes
(R21–R26, R53–R62, R135–R144, R232–R237). -/

namespace Sys2Proof.Machine

/-! ### Refusals (R234) -/

/-- The refusal of a media request at its registration, in the order of R234. -/
def refusalOf (s : State) (c : Ctx) (write : Bool) (off len : Nat) : Option (BitVec 8) :=
  if !lockAllows s c write then some cPERMISSION
  else if !inBounds s c off len then some cRANGE
  else if s.duet.state = .none || restRefuses s write
      || (write && (linesOf off len).any fun l => missingLine s (lineIn s c l)) then some cWRONG_STATE
  else none

/-! ### Staging (R61, R62) -/

/-- The 64 staging entries of a kind are all held by requests whose share is full (R62). -/
def blocked (s : State) (write : Bool) : Bool :=
  let full := fun c => decide ((s.tenant c).shareEff ≤ heldBy s c)
  decide (64 ≤ stagedCount s write) && ((staged s write).all fun r => full r.ctx)
    && (write || (stagedFlushes s).all fun f => full f.ctx)

/-- The blocked condition of a kind as time goes on: since when, and whether it is logged. -/
def blockedSince (s : State) (write : Bool) (was : Option (Nat × Bool)) : Option (Nat × Bool) :=
  if blocked s write then some (was.getD (s.now, false)) else none

/-- R62's condition is kept for both kinds. -/
def noteHol (s : State) : State :=
  { s with gl := { s.gl with
      holPosted := blockedSince s true s.gl.holPosted, holNonPosted := blockedSince s false s.gl.holNonPosted } }

/-- A request is registered. -/
def register (r : Req) (s : State) : State :=
  { s with gl := { s.gl with ingress := s.gl.ingress ++ [{ r with id := s.gl.nextReq, cycle := s.now }], nextReq := s.gl.nextReq + 1 } }

/-- A request moves from staging into its share (R61). -/
def toShare (r : Req) (s : State) : State :=
  if r.stage = .staging then modReq r.id (fun r => { r with stage := .share }) (freeStaging r.write s) else s

/-! ### Reads (R21, R53, R57, R61, R141, R235) -/

/-- A waiting read can be served now: it has an entry of its share, or takes one, and takes its tag (R53, R61). -/
def canServe (s : State) (r : Req) : Bool :=
  (decide (r.stage = .share) || shareFree s r.ctx) && readDue s r && tagFree s .hrd r.ctx

/-- A read takes its tag, and leaves its share (R53, R61). -/
def acceptRead (r : Req) (s : State) : State × Nat :=
  let s := askTag .hrd (toShare r s)
  let id := (newTag s .hrd r.ctx).id
  (takeTag .hrd r.ctx (removeReq r.id s), id)

/-- A line's read asks its bank, unless the hold buffer has the whole line (Table 2.4). -/
def askLine (s : State) (line : Nat) : State :=
  match dirtyOf s line, readHome s line with
  | some h, some x => if h.poison || decide (h.mask = fullMask) then s else askBank bkRead s x
  | none, some x => askBank bkRead s x
  | _, none => s

/-- The lines of a read in order, with their senses. -/
def readLines (who : Ctx) (base : Nat) : List Nat → List Sense → State → State × List (Option Line)
  | [], _, s => (s, [])
  | l :: rest, e, s =>
    let (s, d) := readLine who l (base + l) (e.head?.getD {}) (askLine s (base + l))
    let (s, ds) := readLines who base rest e.tail s
    (s, d :: ds)

/-- The bytes of the lines that a byte range takes, one piece a line: whether it is poisoned, and its bytes, 0 in poison. -/
def pieces (off len : Nat) : List (Option Line) → List (Bool × List Byte)
  | [] => []
  | d :: rest =>
    let n := min len (64 - off % 64)
    (d.isNone, match d with
      | some l => ((lineBytes l).drop (off % 64)).take n
      | none => List.replicate n 0) :: pieces (off + n) (len - n) rest

/-- Neighbouring good pieces are one completion; a poisoned line stands alone (R235). -/
def joinPieces : List (Bool × List Byte) → List (Bool × List Byte)
  | [] => []
  | (ep, b) :: rest =>
    match joinPieces rest with
    | (false, c) :: more => if ep then (ep, b) :: (false, c) :: more else (false, b ++ c) :: more
    | l => (ep, b) :: l

/-- A media read takes its tokens, is counted, and reads its lines; its tag returns with its last completion (R53, R141,
R235). -/
def serveMedia (r : Req) (tag : Nat) (s : State) : State :=
  let s := if r.unlimited then s else spendTokens r.ctx r.lines s
  let s := count r.ctx (fun k => { k with read := k.read + BitVec.ofNat 40 r.lines }) s
  let (s, ds) := readLines r.ctx r.base (linesOf r.off r.len) r.sense s
  sendAll (some tag) ((joinPieces (pieces r.off r.len ds)).map fun p => Out.completion r.fn .sc p.1 p.2) s

/-- A waiting read is served; its entry is free (R62). -/
def serve (r : Req) (s : State) : State :=
  let (s, tag) := acceptRead r s
  noteHol (match r.kind with
  | .media => serveMedia r tag s
  | .reg bar =>
    let (s, b) := readBar r.fn bar r.off r.len s
    send (.completion r.fn .sc false b) (some tag) s
  | .unsup => send (.completion r.fn .ur false []) (some tag) s)

/-- Every request that can be served is served, in the order of registration. -/
def serveReads (s : State) : State :=
  s.gl.ingress.foldl (fun s r => if canServe s r then serve r s else s) s

/-- A request as it is registered, with what judges it (R18, R58, R138). -/
def newReq (t : Tlp) (kind : ReqKind) (c : Ctx) (off : Nat) (parts : List LinePart) (sense : List Sense) (s : State) : Req :=
  { id := 0, kind := kind, tlp := t, fn := t.fn, ctx := c, write := t.write, off := off, len := t.len, base := lineIn s c 0
    parts := parts, poison := t.poison, ro := t.ro, fence := s.gl.fences[c], cycle := 0, verified := servedVerified s c
    unlimited := (s.judged c).unlimited, quota := (s.judged c).quota, stage := .staging, tag := none, unverified := 0
    sense := sense }

/-- A read request as it is registered: `kind` on its function's context. -/
def readReq (t : Tlp) (kind : ReqKind) (s : State) : Req := newReq t kind t.fn.ctx t.off [] [] s

/-- A read answered as an Unsupported Request: signalled now, completed behind the function's earlier writes. -/
def unsupportedRead (t : Tlp) (s : State) : State := serveReads (register (readReq t .unsup s) (signalUr t s))

/-! ### Flushes (R22, R23, R137, R232, R349) -/

/-- The vector of a context's failure messages (R345). -/
def failureVector (s : State) (c : Ctx) : Fn × Fin 192 :=
  if h : c.val < 128 then
    if tenantExposed s c.val then (.vf ⟨c.val, h⟩, 0) else (.pf, ⟨c.val, by omega⟩)
  else (.pf, 160)

/-- A failure message of the context is still to be issued, or held at egress (R349). -/
def messageDue (s : State) (c : Ctx) : Bool :=
  let (fn, i) := failureVector s c
  msixOn s fn && (((s.tenant c).failMsg && (failureQueued s c || (vecOf s fn i).cause))
    || s.egress.any fun e => decide (e.1 = .msix fn i.val))

/-- A flush can complete with what is durable now: in REST at once (Table 1.6); else with every covered write durable and
every covered failure message issued. In each case it holds a tag and the function's earlier writes are admitted (R21, R54). -/
def flushReady (s : State) (f : Flush) : Bool :=
  let fn : Option Fn := f.zero <|> f.read.map fun r => r.1
  f.tag.isSome && !(fn.elim false fun fn => waitsForWrites s fn f.before) &&
    (decide (s.pw.state = .rest) || (flushDurable s f && f.waits.all fun c => !messageDue s (toCtx c)))

/-- The bytes of an access that reads PC_FLUSH, the flush's value in its word. -/
def flushBytes (fn : Fn) (bar : Bar) (value : Word) : List Part → State → State × List Byte
  | [], s => (s, [])
  | p :: rest, s =>
    let (s, w) := if (flushScope s fn bar p.off).isSome then (s, value) else readWordAt fn bar p.off (byteMask p.be) s
    let (s, l) := flushBytes fn bar value rest s
    (s, p.bytes w ++ l)

/-- A flush leaves the pipeline: its entry is free from the next cycle (R51, R62). -/
def removeFlush (f : Flush) (s : State) : State :=
  let s := freeEntry f.stage false f.ctx s
  noteHol { s with pc := { s.pc with flushes := s.pc.flushes.filter fun g => decide (g.id ≠ f.id) } }

/-- A flush ends, and the read completes (Table 1.14); its tag returns with the completion (R53). -/
def endFlush (f : Flush) (done : Bool) (s : State) : State :=
  let seq := BitVec.ofNat 31 (durableAsn s f)
  let s := removeFlush f s
  match f.zero, f.read with
  | some fn, _ => send (.completion fn .sc false []) f.tag s
  | none, some (fn, bar, off, len) =>
    let (s, b) := flushBytes fn bar (put seq.toNat 1 ||| putB done 0) ((parts off len).getD []) (emit (.flushDone f.id done seq) s)
    send (.completion fn .sc false b) f.tag s
  | none, none => dropTag? f.tag (emit (.flushDone f.id done seq) s)

/-- A flush read moves into its share, and takes its tag (R53, R54, R61). -/
def advanceFlush (f : Flush) (s : State) : State :=
  let set := fun (g : Flush → Flush) (s : State) =>
    { s with pc := { s.pc with flushes := update (fun h => h.id = f.id) g s.pc.flushes } }
  let s := if f.stage = .staging ∧ shareFree s f.ctx then set (fun g => { g with stage := .share }) (freeStaging false s) else s
  match s.pc.flushes.find? fun g => g.id = f.id with
  | some g =>
    if g.stage = .share ∧ tagFree s .hrd g.ctx then
      let s := askTag .hrd s
      let id := (newTag s .hrd g.ctx).id
      set (fun g => { g with stage := .tagged, tag := some id }) (freeShare g.ctx (takeTag .hrd g.ctx s))
    else s
  | none => s

/-- A flush goes as far as it can, and completes when it can. -/
def tryFlush (id : Nat) (s : State) : State :=
  match s.pc.flushes.find? fun f => f.id = id with
  | none => s
  | some f =>
    let s := advanceFlush f s
    match s.pc.flushes.find? fun f => f.id = id with
    | some f => if flushReady s f then endFlush f (flushDurable s f) s else s
    | none => s

/-- A flush read is registered, counted (Table 6.1), and completes at once where nothing holds it. -/
def startFlush (scope : FlushScope) (zero : Option Fn) (read : Option (Fn × Bar × Nat × Nat)) (s : State) : State :=
  let f := newFlush scope zero read s
  let s := count f.ctx addOp s
  let s := { s with pc := { s.pc with flushes := s.pc.flushes ++ [f], nextFlush := s.pc.nextFlush + 1 } }
  tryFlush f.id s

/-- R22's limit, 40 ms after the registration: DONE says whether every covered write is durable, and SEQ the ASN reached; a
zero-length read for which one is not logs FLUSH_LATE. -/
def lateFlush (id : Nat) (s : State) : State :=
  match s.pc.flushes.find? fun f => f.id = id with
  | none => s
  | some f =>
    if s.now < f.cycle + 40000000 then s
    else
      let done := flushDurable s f
      let s := match f.zero, done with
        | some fn, false => raise uPC cFLUSH_LATE (ctxByte fn.ctx) (lo32 fn.num) (lo32 (durableAsn s f)) 0 s
        | _, _ => s
      endFlush f done s

/-- A zero-length read of a function (R232). -/
def zeroRead (fn : Fn) (s : State) : State :=
  if !stagingFree s false then s
  else if !memOn s fn then unsupportedRead ⟨fn, .bar0, 0, 0, false, false, false⟩ s
  else match fn with
    | .pf => startFlush .all (some fn) none s
    | .vf v => startFlush (.tenant v) (some fn) none s

/-! ### Registration of reads and writes (R19, R57, R119, R135, R138, R236) -/

/-- A media request does not cross 4 KiB, nor a line in the CXL personality. -/
def shapeFits (s : State) (off len : Nat) : Bool :=
  decide (off % 4096 + len ≤ 4096) && (!s.hl.effCxl || decide (off % 64 + len ≤ 64))

/-- A media read is refused, or waits its turn. -/
def mediaRead (t : Tlp) (c : Ctx) (off dpa : Nat) (sense : List Sense) (s : State) : State :=
  let s := count c addOp s
  match refusalOf s c false off t.len with
  | some code =>
    let s := noteRefusal t (some c) code off dpa s
    if s.hl.effCxl then s else serveReads (register (newReq t .unsup c off [] [] s) s)
  | none => serveReads (register (newReq t .media c off [] sense s) s)

/-- An aperture access outside every context is recorded, and is no refusal of Table 8.5 (R223, log 23). -/
def noteStray (fn : Fn) (aperture write : Bool) (off : Nat) (s : State) : State :=
  if aperture then recordRefusal fn none write cRANGE off s else s

/-- A read of registers, the descriptor SRAM or a table: a flush where it names PC_FLUSH (R22). -/
def registerRead (t : Tlp) (s : State) : State :=
  if !widthOk (targetOf s t.fn t.bar t.off) t.off t.len then unsupportedRead t s
  else match ((parts t.off t.len).getD []).findSome? fun p => flushScope s t.fn t.bar p.off with
    | some scope => startFlush scope none (some (t.fn, t.bar, t.off, t.len)) s
    | none => serveReads (register (readReq t (.reg t.bar) s) s)

/-- A host memory read (R57). -/
def hostRead (fn : Fn) (bar : Bar) (off len : Nat) (sense : List Sense) (s : State) : State :=
  let t : Tlp := ⟨fn, bar, off, len, false, false, false⟩
  if !reaches s .bar0 then s
  else if len = 0 then zeroRead fn s
  else if !stagingFree s false then s
  else match targetOf s fn bar off with
  | .media c o => if shapeFits s o len then mediaRead t c o (dpaOf s off) sense s else s
  | .noContext => noteRefusal t none cRANGE off (dpaOf s off) s
  | .unsup aperture => unsupportedRead t (noteStray fn aperture false off s)
  | _ => registerRead t s

/-- The lines of written bytes from a byte offset on, in address order, with the bytes written (R119). -/
def lineParts : Nat → Nat → List Byte → List LinePart
  | 0, _, _ => []
  | n + 1, off, data =>
    if data.isEmpty then []
    else
      let k := off % 64
      let m := min data.length (64 - k)
      { off := off / 64, data := lineOf (List.replicate k 0 ++ data.take m), mask := maskRange k m }
        :: lineParts n (off + m) (data.drop m)

/-- A media write is refused, or stands in staging with the mode and the fences of its registration. -/
def mediaWrite (t : Tlp) (c : Ctx) (off dpa : Nat) (data : List Byte) (s : State) : State :=
  let s := count c addOp s
  match refusalOf s c true off t.len with
  | some code => noteRefusal t (some c) code off dpa s
  | none => register (newReq t .media c off (lineParts 65 off data) [] s) s

/-- A write of registers, the descriptor SRAM or a table, part by part (R380). -/
def registerWrite (fn : Fn) (bar : Bar) (off : Nat) (data : List Byte) (s : State) : State :=
  match targetOf s fn bar off with
  | .sram o => hostSram o data s
  | _ => ((parts off data.length).getD []).foldl (fun s p => writeWordAt fn bar p.off p.be (p.word data) s) s

/-- Poisoned TLP Received is logged with the request's header (R236, R238). -/
def signalPoison (t : Tlp) : State → State := modAer t.fn fun a => logHeader t { a with poisoned := true }

/-- A host memory write (R19, R236). Poison that meets registers is not applied (PRESUMED, log 24). -/
def hostWrite (fn : Fn) (bar : Bar) (off : Nat) (data : List Byte) (poison ro : Bool) (s : State) : State :=
  let t : Tlp := ⟨fn, bar, off, data.length, true, poison, ro⟩
  if !reaches s .bar0 || data.isEmpty || !stagingFree s true then s
  else
    let s := if poison && !s.hl.effCxl then signalPoison t s else s
    match targetOf s fn bar off with
    | .media c o => if shapeFits s o data.length then mediaWrite t c o (dpaOf s off) data s else s
    | .noContext => noteRefusal t none cRANGE off (dpaOf s off) s
    | .unsup aperture => signalUr t (noteStray fn aperture true off s)
    | x =>
      if !widthOk x off data.length then signalUr t s
      else if poison then s
      else registerWrite fn bar off data s

/-! ### Ingress and admission (R24, R53, R57, R58, R61, R141, R143, R144) -/

/-- The oldest request whose share has room moves into it (R61); a flush read is older than the requests registered after it. -/
def ingressMove (s : State) : State :=
  let r := s.gl.ingress.find? fun r => decide (r.stage = .staging) && shareFree s r.ctx
  let f := s.pc.flushes.find? fun f => decide (f.stage = .staging) && shareFree s f.ctx
  match r, f with
  | some r, some f => if r.id < f.before then serveReads (toShare r s) else tryFlush f.id s
  | some r, none => serveReads (toShare r s)
  | none, some f => tryFlush f.id s
  | none, none => s

/-- The request takes its tag and its tokens with its first line (R53, R141). -/
def accept (r : Req) (s : State) : State :=
  if r.tag.isSome then s
  else
    let s := askTag .hwr s
    let id := (newTag s .hwr r.ctx).id
    let s := freeShare r.ctx (takeTag .hwr r.ctx s)
    let s := if r.unlimited then s else spendTokens r.ctx r.lines s
    modReq r.id (fun r => { r with stage := .tagged, tag := some id }) s

/-- A line was admitted: the request goes on, waits for its verifies, or retires (R53). -/
def lineAdmitted (r : Req) (ver : Bool) (rest : List LinePart) (s : State) : State :=
  let s := modReq r.id (fun r => { r with parts := rest, unverified := if ver then r.unverified + 1 else r.unverified }) s
  match s.gl.ingress.find? fun q => q.id = r.id with
  | some q => if q.parts.isEmpty && decide (q.unverified = 0) then retire q.id s else s
  | none => s

/-- The request's next line comes to the admission point (R24): nothing is admitted during a drain or an entry to
HIBERNATE, and REST refuses it (Table 11.3). A change of TN_MODE is for writes registered after it (R18); what forces the verified
point is judged at the admission (R28, R30). -/
def admitLine (id : Nat) (s : State) : State :=
  match s.gl.ingress.find? fun r => r.id = id with
  | none => s
  | some r =>
    match r.parts with
    | [] => s
    | p :: rest =>
      if !writeDue s r || (r.tag.isNone && !tagFree s .hwr r.ctx) then s
      else if s.pw.state = .rest then refuseWrite r cWRONG_STATE s
      else
        let ver := r.verified || forcedVerified s
        let w : Writer := { ctx := r.ctx, verified := r.verified, cycle := r.cycle, rank := hostRank, quota := r.quota
                            req := if ver then some r.id else none, chan := none }
        match admitWrite w p.off (r.base + p.off) p.data p.mask r.poison s with
        | (t, .wait) => t
        | (t, .refused code) => refuseWrite r code t
        | (t, .done _) => lineAdmitted r ver rest (accept r t)

def lineAdmission (id : Nat) (s : State) : State := serveReads (admitLine id s)

/-! ### Resets of the host's requests (R240, Table 8.8) -/

/-- The function that an output at egress is for. -/
def outFn : Out → Option Fn
  | .completion fn .. | .msix fn _ => some fn
  | _ => none

/-- What egress holds for functions is discarded, with the tags it keeps. -/
def dropEgress (p : Out → Bool) (s : State) : State :=
  let gone := s.egress.filter fun e => p e.1
  gone.foldl (fun s e => dropTag? e.2 s) { s with egress := s.egress.filter fun e => !p e.1 }

/-- Requests not admitted yet are discarded with their tags; a write with admitted lines keeps its tag until they are
verified, and reads and flush reads get no completion. -/
def dropUnadmitted (p : Fn → Bool) (s : State) : State :=
  let open' := fun (r : Req) => p r.fn && !(r.write && decide (0 < r.unverified))
  let mine := fun (f : Flush) => ((f.zero <|> f.read.map fun r => r.1).getD .pf |> p)
  let s := s.gl.ingress.foldl (fun s r => if open' r then removeReq r.id s else s) s
  let s := s.pc.flushes.foldl (fun s f => if mine f then dropTag? f.tag (removeFlush f s) else s) s
  let s := dropEgress (fun o => (outFn o).any p) s
  { s with gl := { s.gl with ingress := s.gl.ingress.map fun r => if p r.fn then { r with parts := [] } else r } }

/-! ### The rows -/

/-- R57: a host memory read. -/
def execHostRead (fn : Fn) (bar : Bar) (off len : Nat) (sense : List Sense) (s : State) : Host.Outcome State Fault Refusal :=
  act (fun s => noteHol (hostRead fn bar off len sense s)) s

/-- R19: a host memory write. -/
def execHostWrite (fn : Fn) (bar : Bar) (off : Nat) (data : List Byte) (poison ro : Bool) (s : State) :
    Host.Outcome State Fault Refusal :=
  act (fun s => noteHol (hostWrite fn bar off data poison ro s)) s

/-- R61: a request moves from staging into its share. -/
def execIngressMove (s : State) : Host.Outcome State Fault Refusal :=
  act (fun s => noteHol (if reaches s .bar0 then ingressMove s else s)) s

/-- R24: a line comes to the admission point. -/
def execLineAdmission (req : Nat) (s : State) : Host.Outcome State Fault Refusal :=
  act (fun s => noteHol (lineAdmission req s)) s

/-- R232: a zero-length read of a function. -/
def execZeroLengthRead (fn : Fn) (s : State) : Host.Outcome State Fault Refusal :=
  act (fun s => noteHol (if reaches s .bar0 then zeroRead fn s else s)) s

/-- R22, Table 1.14: a read of PC_FLUSH, in BAR0, in a tenant's window where it stands (R139), or over SP0. -/
def execPcFlushRead (scope : FlushScope) (s : State) : Host.Outcome State Fault Refusal :=
  act (fun s => match scope with
    | .all => noteHol (hostRead .pf .bar0 0x0428 4 [] s)
    | .tenant t =>
      noteHol (if vfOn s t then hostRead (.vf t) .bar0 0x014 4 [] s else hostRead .pf .bar4 (t.val * 4096 + 0x014) 4 [] s)
    | .serial => queryAt .sp0 0x0428 allBytes s) s

/-- R22: a flush completes once its writes are durable and its messages issued. -/
def execFlushCompletion (id : Nat) (s : State) : Host.Outcome State Fault Refusal := act (tryFlush id) s

/-- R22: a flush has waited 40 ms. -/
def execFlushTimeout (id : Nat) (s : State) : Host.Outcome State Fault Refusal := act (lateFlush id) s

end Sys2Proof.Machine
end

