-- ==== Sys2Proof/Machine/HostLink.lean ====
section
/-! DEFINITION. The host link beside its memory requests: configuration space, SR-IOV, resets, the CXL memory device, stalls,
link-up; and the rows of time: refill, metronome, ledger, event log and MSI-X (02, 05, 06, 08, 13). -/

namespace Sys2Proof.Machine

/-! ### Configuration space (R221, R224, R227–R229, R239–R242) -/

/-- A little-endian number of `k` bytes answers a configuration read. -/
def cfgAnswer (fn : Fn) (k v : Nat) : State → State := send (.completion fn .sc false (leBytes k v)) none

/-- A configuration write completes. -/
def cfgDone (fn : Fn) : State → State := send (.completion fn .sc false []) none

/-- Type bits of the BARs (Table 8.2): 64-bit, and prefetchable for the apertures. -/
def barType (i : Fin 5) : Nat := if i = 1 ∨ i = 4 then 0xC else 0x4

/-- Size of a BAR (R222, R224); 0 = not implemented. -/
def barSize (s : State) (i : Fin 5) : Nat :=
  let slot := 2 ^ s.hl.slotLog2Eff.toNat
  match i with
  | 0 => 0x10000
  | 1 => if s.hl.effCxl then 0 else 256 * slot
  | 2 => 0x100000
  | 3 => max 8192 s.hl.sysPage
  | 4 => if s.hl.effCxl then 0 else slot

/-- What a BAR reads as. -/
def barRead (s : State) (i : Fin 5) : Nat := if barSize s i = 0 then 0 else s.hl.bars[i].toNat + barType i

/-- A BAR keeps the address bits above its size. -/
def barWrite (i : Fin 5) (v : BitVec 64) (s : State) : State :=
  let n := barSize s i
  if n = 0 then s
  else { s with hl := { s.hl with bars := s.hl.bars.set i (BitVec.ofNat 64 (v.toNat / n * n)) } }

/-- Table 8.3: the offset of each capability of the PF, its number in PCI Express, and the version of an extended one (PRESUMED,
log 145). -/
def capList (s : State) : List (Nat × Nat × Nat) :=
  [(0x40, 0x01, 0), (0x50, 0x10, 0), (0xB0, 0x11, 0), (0x100, 0x01, 2), (0x140, 0x10, 1), (0x180, 0x0E, 1), (0x190, 0x19, 1),
   (0x1B0, 0x25, 1), (0x1C0, 0x26, 1), (0x1F0, 0x2A, 1), (0x220, 0x27, 1), (0x240, 0x1E, 1), (0x250, 0x03, 1), (0x260, 0x18, 1),
   (0x270, 0x0D, 1)] ++ if s.hl.effCxl then [(0x300, 0x23, 1)] else []

/-- The capabilities of a VF (R227), at the PF's offsets (PRESUMED, log 145). -/
def vfCaps : List (Nat × Nat × Nat) := [(0x50, 0x10, 0), (0xB0, 0x11, 0), (0x100, 0x01, 2), (0x180, 0x0E, 1)]

/-- The header at an offset of a capability list: number, version and the offset of the next one of its kind. -/
def capHeader (off : Nat) : List (Nat × Nat × Nat) → Nat
  | [] => 0
  | (o, num, ver) :: rest =>
    if o = off then
      let next := rest.head?.elim 0 fun e => e.1
      if o < 0x100 then num + 256 * (if next < 0x100 then next else 0) else num + 2 ^ 16 * ver + 2 ^ 20 * next
    else capHeader off rest

/-- Fields of the PCI Express capability, which every function has (R219, R227, Table 8.3); ranges A and B are bits 0 and 1. -/
def linkCap : CfgCap → Nat
  | .aspmSupport => 2
  | .maxPayload => 512
  | .extendedTag | .tenBitTag | .flr => 1
  | .timeoutRanges => 3
  | _ => 0

/-- A capability value of the PF (R219, R228, R242, Table 8.3); the CXL blocks are there in the CXL personality only. -/
def capValue (s : State) (c : CfgCap) : Nat :=
  match c with
  | .first => 0x40
  | .header o => capHeader o.toNat (capList s)
  | .noSoftReset => 1
  | .pmStates => 0x9
  | .pmeSupport => 0
  | .aspmSupport | .maxPayload | .extendedTag | .tenBitTag | .flr | .timeoutRanges | .timeoutDisable => linkCap c
  | .msixEntries => 192
  | .totalVfs | .initialVfs => 128
  | .vfOffset | .vfStride => 1
  | .vfDevice => 0x7209
  | .pageSizes => 4096 + 8192 + 65536
  | .scaledFlowControl => 1
  | .l1Substates => 3
  | .acsControls => 0x7F
  | .dvsecVendor => if s.hl.effCxl then 0x1E98 else 0
  | .gpfDurationUs => if s.hl.effCxl then 2 else 0
  | .gpfPowerMw => if s.hl.effCxl then 19000 else 0
  | .componentBlock => if s.hl.effCxl then 0xC0000 else 0
  | .deviceBlock => if s.hl.effCxl then 0xD0000 else 0

/-- A capability value of a VF: PCI Express, MSI-X, AER and ARI (R227). -/
def vfCapValue (c : CfgCap) : Nat :=
  match c with
  | .first => 0x50
  | .header o => capHeader o.toNat vfCaps
  | .msixEntries => 1
  | _ => linkCap c

/-- The headers of the CXL DVSECs behind the first have offsets that the manual does not give: the first one's next field is free
(R221, Table 8.3; log 4). -/
def capAnswer (c : CfgCap) (s : State) : State :=
  if s.hl.effCxl ∧ c = .header 0x300 then cfgAnswer .pf 4 (capValue s c % 2 ^ 20 + 2 ^ 20 * (freeOf 12 s).toNat) (nextFree s)
  else cfgAnswer .pf 4 (capValue s c) s

/-! ### AER (R234, R238) -/

/-- A function's AER. -/
def aerOf (s : State) : Fn → Aer
  | .pf => s.hl.pfAer
  | .vf v => s.hl.vfAer[v]

/-- The error status: the uncorrectable errors, then the correctable ones, at the bits of PCI Express (PRESUMED, log 145). -/
def aerStatus (a : Aer) : Nat :=
  (putB a.poisoned 12 ||| putB a.timeout 14 ||| putB a.unexpected 16 ||| putB a.unsupported 20 ||| putB a.uncorrInternal 22).toNat
    + 2 ^ 32 * (putB a.corrInternal 14 ||| putB a.logOver 15).toNat

/-- The host reads the error status, or clears it with the header log. -/
def aerAccess (fn : Fn) (clear : Bool) (s : State) : State :=
  if clear then cfgDone fn (modAer fn (fun _ => {}) s) else cfgAnswer fn 8 (aerStatus (aerOf s fn)) s

/-- The vectors of a function. -/
def vectorsOf : Fn → List (Fin 192)
  | .pf => indices 192
  | .vf _ => [0]

/-- MSI-X Enable and the function mask are written: causes that arose while it was 0 are not signalled, and an unmasked
function sends what is pending (R348). -/
def setMsix (fn : Fn) (enable mask : Bool) (s : State) : State :=
  let fresh := enable && !msixOn s fn
  let s := match fn with
    | .pf => { s with hl := { s.hl with msixPf := enable, maskPf := mask } }
    | .vf v => { s with hl := { s.hl with msixVf := s.hl.msixVf.set v enable, maskVf := s.hl.maskVf.set v mask } }
  let s := if fresh then (vectorsOf fn).foldl (fun s i => modVec fn i (fun v => { v with cause := false }) s) s else s
  (vectorsOf fn).foldl (fun s i => releaseVector fn i s) s

/-- A configuration request of the PF. -/
def configPf (reg : CfgReg) (s : State) : State :=
  match reg with
  | .ident => cfgAnswer .pf 4 0x72081EB7 s
  | .device mps mrrs relaxed timeout =>
    cfgDone .pf { s with hl := { s.hl with mps := mps, mrrs := mrrs, relaxed := relaxed, timeoutCode := timeout } }
  | .power d3 => cfgDone .pf { s with hl := { s.hl with d3hot := d3 } }
  | .hdm d r => cfgDone .pf (setHdm d r s)
  | .bar i none => cfgAnswer .pf 8 (barRead s i) s
  | .bar i (some v) => cfgDone .pf (barWrite i v s)
  | .cap c => capAnswer c s
  | .aer clear => aerAccess .pf clear s
  | .sysPage n =>
    let ok := !s.hl.vfEnable && (decide (n = 4096) || decide (n = 8192) || decide (n = 65536))
    cfgDone .pf (if ok then { s with hl := { s.hl with sysPage := n } } else s)
  | .classCode => cfgAnswer .pf 3 (if s.hl.effCxl then 0x050210 else 0x058000) s
  | .subsystem => cfgAnswer .pf 4 0x00011EB7 s
  | .serialLo => cfgAnswer .pf 4 (engineId.toNat % 2 ^ 32) s
  | .serialHi => cfgAnswer .pf 4 (engineId.toNat / 2 ^ 32) s
  | .msix e m => cfgDone .pf (setMsix .pf e m s)

/-- A configuration request of an enabled VF: the PF's controls are not in it (R227, R239). -/
def configVf (v : Fin 128) (reg : CfgReg) (s : State) : State :=
  match reg with
  | .ident => cfgAnswer (.vf v) 4 0x72091EB7 s
  | .classCode => cfgAnswer (.vf v) 3 (if s.hl.effCxl then 0x050210 else 0x058000) s
  | .subsystem => cfgAnswer (.vf v) 4 0x00011EB7 s
  | .msix e m => cfgDone (.vf v) (setMsix (.vf v) e m s)
  | .cap c => cfgAnswer (.vf v) 4 (vfCapValue c) s
  | .aer clear => aerAccess (.vf v) clear s
  | .device _ _ _ _ | .power _ | .hdm _ _ | .bar _ (some _) | .sysPage _ => cfgDone (.vf v) s
  | .serialLo | .serialHi | .bar _ none => cfgAnswer (.vf v) 4 0 s

/-- A configuration request (R241): CRS until REPLAY has ended; none is answered by a stopped engine, in a drain or in scan. -/
def configRequest (fn : Fn) (reg : CfgReg) (s : State) : State :=
  if !s.pw.state.clocked || s.pc.drain.isSome || s.bt.scan then s
  else if booting s then send (.completion fn .crs false []) none s
  else match fn with
    | .pf => configPf reg s
    | .vf v => if vfOn s v then configVf v reg s else send (.completion fn .ur false []) none s

/-! ### SR-IOV and resets (R139, R228, R240, R344, Table 8.8) -/

/-- A VF's configuration and its vector at their reset values, its vector masked, its tenant's event queue empty. -/
def resetVf (v : Fin 128) (s : State) : State :=
  let s := { s with hl := { s.hl with
    vfVec := s.hl.vfVec.set v {}, msixVf := s.hl.msixVf.set v false, maskVf := s.hl.maskVf.set v false } }
  modTenant (ofTenant v) (fun t => { t with queue := [], qLatch := none }) s

/-- A VF reset: its tenant's unadmitted requests are discarded too. -/
def vfReset (v : Fin 128) (s : State) : State := resetVf v (dropUnadmitted (fun f => decide (f = .vf v)) s)

/-- Every exposed VF is reset, and exposure moves to the PF. -/
def clearVfs (s : State) : State :=
  let s := ((indices 128).filter fun v => vfOn s v).foldl (fun s v => vfReset v s) s
  { s with hl := { s.hl with vfEnable := false } }

/-- DMA stops as at drain phase D1, without a coda, and its channels are IDLE; a reserved channel takes up its copy again,
because the copy uses it from the cycle it is IDLE (R213, R214, Table 8.8; DEDUCED, log 25). -/
def resetDma (s : State) : State :=
  let mine := fun (n : Fin 32) => s.md.writes.filter fun w => match w.kind with
    | .copy m _ => decide (m = n)
    | .hold _ => false
  let redone := fun (n : Fin 32) => s.dm.ch[n].written / 64 - (mine n).length
  let back := (indices 32).foldl (fun k n => if s.dm.ch[n].copy then k + redone n else k) 0
  let s := (s.md.writes.filter fun w => w.isCopy).foldl (fun s w => cancelWrite w s) s
  let s := stopDma { s with
    md := { s.md with writes := s.md.writes.filter fun w => !w.isCopy }, duet := { s.duet with ptr := s.duet.ptr - back } }
  let ch := mapV s.dm.ch fun c => { c with
    issued := 0, written := 0, poison := false, sawPwf := false, sawMerge := false, endCode := none, groupStop := false
    fermataLate := false, abortLate := false, fermataAt := none, abortAt := none, durable := false, pauseNext := false
    haltNext := false, idleNext := false, liftCount := 0, age := 0, liftedAt := none, agedAt := none
    state := if c.copy then .fetch else .idle }
  let dma := match s.ks.owner with
    | .dma _ => true
    | _ => false
  let s := if dma then dropFill s else s
  { s with dm := { s.dm with ch := ch } }

/-- What a Hot Reset and a PF FLR do alike (Table 8.8). -/
def linkReset (s : State) : State :=
  let s := dropEgress (fun _ => true) (clearVfs (resetDma (dropUnadmitted (fun _ => true) s)))
  { s with
      gl := { s.gl with holPosted := none, holNonPosted := none }
      hl := { s.hl with
        numVfs := 0, ari := false, d3hot := false, bars := Vector.replicate 5 0, mps := 128, mrrs := 512, relaxed := true
        timeoutCode := 0, sysPage := 4096, msixPf := false, maskPf := false, pfVec := Vector.replicate 192 {}
        hdm := Vector.replicate 2 none, noCredit := Vector.replicate 3 none } }

/-- The link goes down or comes up: a LINK entry (Table 13.7). -/
def traceLink (s : State) : State := trace 0x0A 0 (hlStatus s.hl) 0 s

/-- A reset can arrive: the engine runs, outside a drain and scan. -/
def resettable (s : State) : Bool := s.pw.state.clocked && s.pc.drain.isNone && !s.bt.scan

/-- Hot Reset, or a link down. -/
def hotReset (s : State) : State :=
  if !resettable s then s
  else
    let s := logReset 2 0 (linkReset s)
    traceLink { s with hl := { s.hl with
      hotCount := s.hl.hotCount + 1, dlUp := false, width := 0, speed := 0, cxlMode := false } }

/-- PF FLR: a change the host proposed lapses as if withdrawn. -/
def pfFlr (s : State) : State :=
  if !resettable s then s
  else
    let s := if s.cs.mgmt then s else lapse 3 s
    let s := logReset 3 0 (linkReset s)
    { s with hl := { s.hl with pfFlrCount := s.hl.pfFlrCount + 1 } }

/-- A VF FLR. -/
def vfFlr (v : Fin 128) (s : State) : State :=
  if !resettable s || !vfOn s v then s
  else
    let s := logReset 4 (v.val + 1) (vfReset v s)
    { s with hl := { s.hl with vfFlrCount := s.hl.vfFlrCount + 1 } }

/-- VF Enable is written with NumVFs and ARI Capable Hierarchy (R228). -/
def vfEnable (on : Bool) (numVfs : BitVec 16) (ari : Bool) (s : State) : State :=
  if !resettable s || booting s then s
  else if s.hl.vfEnable then
    if on then s
    else
      let s := logReset 4 0 (clearVfs s)
      { s with hl := { s.hl with vfFlrCount := s.hl.vfFlrCount + 1, numVfs := min 128 numVfs.toNat, ari := ari } }
  else
    let n := min 128 numVfs.toNat
    let s := { s with hl := { s.hl with numVfs := n, ari := ari } }
    if !on then s
    else if !ari ∧ 7 < n then raise uHL cHL_SRIOV_REFUSED noCtx (numVfs.setWidth 32) 0 0 s
    else clearExposed { s with hl := { s.hl with vfEnable := true } }

/-- I/O, AtomicOp and prefixed requests complete as Unsupported Requests (R226). -/
def oddRequest (fn : Fn) (s : State) : State :=
  if !reaches s .bar0 || !stagingFree s false then s else unsupportedRead ⟨fn, .bar0, 0, 0, false, false, false⟩ s

/-- The link finishes training (R219, R220): in the CXL personality Flex Bus mode at 32 GT/s is CXL mode, and without it the
link runs as PCIe with the HDM decoders disabled (Table 2.8, n1). -/
def linkTrained (speed width : Fin 9) (flexBus : Bool) (s : State) : State :=
  let ok := decide (1 ≤ speed.val ∧ speed.val ≤ 5) && (decide (width = 1) || decide (width = 2) || decide (width = 4) || decide (width = 8))
  if !resettable s || !s.ks.scanned || !ok then s
  else
    let cxl := s.hl.effCxl && flexBus && decide (speed = 5)
    let s := traceLink { s with hl := { s.hl with
      dlUp := true, speed := BitVec.ofNat 4 speed.val, width := BitVec.ofNat 4 width.val, cxlMode := cxl } }
    if s.hl.effCxl && !cxl then
      raise uHL cHL_CXL_DOWN noCtx (hlStatus s.hl) 0 0 { s with hl := { s.hl with hdm := Vector.replicate 2 none } }
    else s

/-! ### The CXL memory device (R242, Table 8.9) -/

/-- A mailbox response: the device registers are reached in the CXL personality. -/
def mailbox (code : Nat) (words : State → List Nat) (s : State) : State :=
  if s.hl.effCxl && reaches s .bar0 then emit (.mailbox code (words s)) s else s

/-- Signed value of a CT_ENV sensor byte. -/
def hottest (s : State) : Int :=
  (bothSlots.filter fun x => (s.slot x).cart.isSome).foldl (fun m x => max m (s.slot x).envHot.toInt) (-128)

/-- Life Used: the highest engine-view spent in service, as a percentage of its budget, up to 100. -/
def lifeUsed (s : State) : Nat :=
  (serving s).foldl (fun m x => max m (min 100 (spentOf (s.slot x) * 100 / max 1 (s.slot x).budget))) 0

/-- Health: Dirty Shutdown Count, Life Used, and the temperature as a 16-bit value. -/
def healthWords (s : State) : List Nat := [s.pc.dirtyCount.toNat, lifeUsed s, signed 16 (hottest s)]

/-- Event records of a log: the overflow flag, the count, and each record's DPA and code. -/
def eventWords (log : MboxLog) (s : State) : List Nat :=
  (if s.hl.mboxOver[log] then 1 else 0) :: (s.hl.mbox[log]).length
    :: (s.hl.mbox[log]).flatMap fun e => [e.dpa, e.code.toNat]

/-- Records are cleared, oldest first, and the overflow flag with them. -/
def clearEvents (log : MboxLog) (n : Nat) (s : State) : State :=
  if s.hl.effCxl && reaches s .bar0 then
    { s with hl := { s.hl with mbox := modAt s.hl.mbox log (fun l => l.drop n), mboxOver := s.hl.mboxOver.set log false } }
  else s

/-- Shutdown state is recorded in the keep store and reported back. -/
def storeShutdown (v : Byte) (s : State) : State :=
  if s.hl.effCxl && reaches s .bar0 then formSettings .settings 0 { s with hl := { s.hl with shutdown := v } } else s

/-! ### Stalls (R62, R64, R350) -/

/-- The number of a staging kind in an event. -/
def creditCode : Credit → Nat
  | .posted => 0 | .nonPosted => 1 | .completion => 2

/-- The host's credits of a kind (Table 2.9, row 1): while it returns none egress waits, and after 1 ms that is signalled once; when it
returns some again egress goes on. -/
def creditStall (k : Credit) (credits : Nat) (s : State) : State :=
  let i := creditNum k
  let since := fun (e : Nat × Bool) (s : State) => { s with hl := { s.hl with noCredit := s.hl.noCredit.set i (some e) } }
  if !s.pw.state.clocked then s
  else if credits ≠ 0 then resumeEgress k s
  else match s.hl.noCredit[i] with
    | none => since (s.now, false) s
    | some (t, logged) =>
      if logged || decide (s.now < t + ms) then s
      else raise uGL cHL_CREDIT_STALL noCtx (lo32 (creditCode k)) 0 0
        (since (t, true) { s with gl := { s.gl with stall := { s.gl.stall with hostCredit := true } } })

/-- A vector's pending bit has been set for 1 s (R350). -/
def serviceStall (fn : Fn) (i : Fin 192) (s : State) : State :=
  let v := vecOf s fn i
  if !s.pw.state.clocked || !v.pending || v.reported || decide (s.now < v.pendSince + sec) then s
  else raise uGL cHOST_SERVICE_STALL noCtx (lo32 i.val) (lo32 fn.num) 0
    (modVec fn i (fun v => { v with reported := true })
      { s with gl := { s.gl with stall := { s.gl.stall with hostService := true } } })

/-- A staging kind has been full of blocked requests for 10 µs (R62): HOL_STALL once. -/
def holStall (k : Credit) (s : State) : State :=
  let w := decide (k = .posted)
  let s := noteHol s
  let was := match k with
    | .posted => s.gl.holPosted
    | .nonPosted => s.gl.holNonPosted
    | .completion => none
  match was with
  | some (since, false) =>
    if s.now < since + 10000 then s
    else
      let oldest := (staged s w).head?.elim 0xFF fun r => r.ctx.val
      let s := { s with gl := { s.gl with stall := { s.gl.stall with hol := true } } }
      let s := match k with
        | .posted => { s with gl := { s.gl with holPosted := some (since, true) } }
        | _ => { s with gl := { s.gl with holNonPosted := some (since, true) } }
      raise uGL cHOL_STALL noCtx (lo32 (creditCode k)) (lo32 oldest) 0 s
  | _ => s

/-! ### Token refill (R140, R142) -/

/-- One bucket is refilled and cut to its cap (R140). In the cycle of an accepted change the old rate is added, and nothing to a bucket
that the change brought (R142). -/
def refill (now : Nat) (t : Tenant) : Tenant :=
  let (unlimited, rate) := match t.was with
    | some (n, w) => if n = now then (w.unlimited, w.rate) else (t.unlimited, t.rate)
    | none => (t.unlimited, t.rate)
  if t.unlimited || unlimited then t
  else
    let n := t.tokens + rate.toNat
    let cap := 16 * t.cap.toNat
    { t with
        tokens := min n cap, refilled := t.refilled + rate.toNat, discarded := t.discarded + (n - cap)
        fresh := t.fresh.add now rate.toNat, cut := t.cut.add now (n - cap) }

/-- A refill cycle: GL_CYCLE is a multiple of 1000, from the end of BOOT on. -/
def refillDue (s : State) : Bool :=
  s.pw.state.clocked && s.gl.bootEnd.isSome && decide (glCycle s % 1000 = 0) && decide (s.tn.refillAt ≠ some s.now)

/-- The buckets are refilled; what waits for the tokens is served from the next cycle on (R51, R140). -/
def tokenRefill (s : State) : State :=
  if refillDue s then
    let s := mapTenants (refill s.now) s
    { s with tn := { s.tn with refillAt := some s.now } }
  else s

/-! ### The rows -/

/-- R242: GPF Phase 1 completes at once. -/
def execGpfPhase1 (s : State) : Host.Outcome State Fault Refusal :=
  act (fun s => if s.hl.effCxl && resettable s then emit (.gpf 1) s else s) s

/-- R19, R242: GPF Phase 2 is answered, and counted (Table 8.16). -/
def execGpfPhase2 (s : State) : Host.Outcome State Fault Refusal :=
  act (fun s => if s.hl.effCxl && resettable s then emit (.gpf 2) { s with hl := { s.hl with gpf := s.hl.gpf + 1 } } else s) s

/-- R241: a configuration request. -/
def execConfigRequest (fn : Fn) (reg : CfgReg) (s : State) : Host.Outcome State Fault Refusal := act (configRequest fn reg) s

/-- R240: a Hot Reset or a link down. -/
def execHotReset (s : State) : Host.Outcome State Fault Refusal := act (fun s => noteHol (hotReset s)) s

/-- R240: a PF FLR. -/
def execPfFlr (s : State) : Host.Outcome State Fault Refusal := act (fun s => noteHol (pfFlr s)) s

/-- R240: a VF FLR. -/
def execVfFlr (v : Fin 128) (s : State) : Host.Outcome State Fault Refusal := act (fun s => noteHol (vfFlr v s)) s

/-- R228: VF Enable is written. -/
def execVfEnable (on : Bool) (numVfs : BitVec 16) (ari : Bool) (s : State) : Host.Outcome State Fault Refusal :=
  act (fun s => noteHol (vfEnable on numVfs ari s)) s

/-- R226: a request of a kind that is not supported. -/
def execUnsupportedRequest (fn : Fn) (_kind : OddRequest) (s : State) : Host.Outcome State Fault Refusal :=
  act (fun s => noteHol (oddRequest fn s)) s

/-- R226: a vendor-defined message is discarded. -/
def execVendorDefinedMessage (s : State) : Host.Outcome State Fault Refusal := act id s

/-- Table 8.9: total, persistent and volatile capacity in 256 MiB, partition alignment, label storage, poison list, injection. -/
def execIdentifyMemoryDevice (s : State) : Host.Outcome State Fault Refusal :=
  act (mailbox 0 fun _ => [448, 448, 0, 0, 0, 0, 0]) s

/-- Table 8.9: persistent and volatile capacity in 256 MiB. -/
def execGetPartitionInfo (s : State) : Host.Outcome State Fault Refusal := act (mailbox 0 fun _ => [448, 0]) s

/-- Table 8.9: the device's health. -/
def execGetHealthInfo (s : State) : Host.Outcome State Fault Refusal := act (mailbox 0 healthWords) s

/-- Table 8.9: the shutdown state is stored and reported back. -/
def execSetShutdownState (v : Byte) (s : State) : Host.Outcome State Fault Refusal :=
  act (fun s => mailbox 0 (fun s => [s.hl.shutdown.toNat]) (storeShutdown v s)) s

/-- Table 8.9: the records of a log. -/
def execGetEventRecords (log : MboxLog) (s : State) : Host.Outcome State Fault Refusal := act (mailbox 0 (eventWords log)) s

/-- Table 8.9: records of a log are cleared. -/
def execClearEventRecords (log : MboxLog) (count : Nat) (s : State) : Host.Outcome State Fault Refusal :=
  act (fun s => mailbox 0 (fun _ => []) (clearEvents log count s)) s

/-- Table 8.9: one log, the Command Effects Log. -/
def execGetSupportedLogs (s : State) : Host.Outcome State Fault Refusal := act (mailbox 0 fun _ => [1]) s

/-- Table 8.9: the Command Effects Log, an entry for each of the eight commands; the manual gives the entries no content. -/
def execGetLog (s : State) : Host.Outcome State Fault Refusal :=
  act (mailbox 0 fun _ => (List.range 8).map fun k => (Config.commandEffects k).toNat) s

/-- R242: every other command returns Unsupported. -/
def execMailboxUnsupported (_opcode : BitVec 16) (s : State) : Host.Outcome State Fault Refusal := act (mailbox 1 fun _ => []) s

/-- R64: the host's credits of a kind are out, have been for 1 ms, or come back. -/
def execHlCreditStall (kind : Credit) (s : State) (credits : Nat := 0) : Host.Outcome State Fault Refusal :=
  act (creditStall kind credits) s

/-- R350: a vector has been pending for 1 s. -/
def execHostServiceStall (fn : Fn) (entry : Fin 192) (s : State) : Host.Outcome State Fault Refusal := act (serviceStall fn entry) s

/-- R62: head-of-line blocking has lasted 10 µs. -/
def execHolStall (kind : Credit) (s : State) : Host.Outcome State Fault Refusal := act (holStall kind) s

/-- R220: the host link is up. -/
def execHostLinkUp (speed width : Fin 9) (flexBus : Bool) (s : State) : Host.Outcome State Fault Refusal :=
  act (linkTrained speed width flexBus) s

/-- R269: BUSY clears; a change that it puts in effect can free a share (R62). -/
def execPageWriteDone (s : State) : Host.Outcome State Fault Refusal := act (fun s => noteHol (pageWriteDone s)) s

/-- R140: a refill cycle. -/
def execTokenRefill (s : State) : Host.Outcome State Fault Refusal := act tokenRefill s

/-- R161: a metronome tick advances LGT, wherever the island has power. -/
def execMetronomeTick (s : State) : Host.Outcome State Fault Refusal :=
  act (fun s => if s.pw.state = .off then s else { s with lg := advanceLgt s.lg }) s

/-- R161: a discipline interval of 32768 ticks ends, while CORE_CLK runs. -/
def execDisciplineInterval (cycles : Nat) (s : State) : Host.Outcome State Fault Refusal :=
  act (fun s => if s.pw.state.clocked then discipline cycles s else s) s

/-- R162: a ledger-second boundary. -/
def execSecondBoundary (s : State) : Host.Outcome State Fault Refusal := act secondBoundary s

/-- R166: the minute tick. -/
def execMinuteTick (s : State) : Host.Outcome State Fault Refusal := act minuteTick s

/-- R167: a frame is sealed. -/
def execFrameSealed (s : State) : Host.Outcome State Fault Refusal := act frameSealed s

/-- R341: the intake's oldest entry is written to the log. -/
def execEventLogWrite (s : State) : Host.Outcome State Fault Refusal :=
  act (fun s => if s.pw.state.clocked then writeEntry s else s) s

/-- R348: a vector's message is issued, or its pending bit is set. -/
def execMsixMessage (fn : Fn) (entry : Fin 192) (s : State) : Host.Outcome State Fault Refusal :=
  act (fun s => if s.pw.state.clocked then signalVector fn entry s else s) s

end Sys2Proof.Machine
end

