-- ==== Sys2Proof/Machine/Dispatch.lean ====
section
/-! DEFINITION. One arm per command: what each does to the block. -/

namespace Sys2Proof.Machine

/-- The effect of a command on everything but the queue, by the rule its meaning cites. -/
def exec (i : Instr) (s : State) : Host.Outcome State Fault Refusal :=
  match i with
  | .perstNRelease hlselCxl cardA cardB => Sys2Proof.Machine.execPerstNRelease hlselCxl cardA cardB s
  | .perstNAssertion => Sys2Proof.Machine.execPerstNAssertion s
  | .pfailNFall => Sys2Proof.Machine.execPfailNFall s
  | .drainEnd fails damaged => Sys2Proof.Machine.execDrainEnd fails s damaged
  | .pfailNRise => Sys2Proof.Machine.execPfailNRise s
  | .lossOfLock => Sys2Proof.Machine.execLossOfLock s
  | .referenceReturn => Sys2Proof.Machine.execReferenceReturn s
  | .railOutOfRange rail => Sys2Proof.Machine.execRailOutOfRange rail s
  | .thermalTrip tj => Sys2Proof.Machine.execThermalTrip tj s
  | .vbatLow v10mv => Sys2Proof.Machine.execVbatLow v10mv s
  | .ksBootScan => Sys2Proof.Machine.execKsBootScan s
  | .bootEnd => Sys2Proof.Machine.execBootEnd s
  | .replayEntry first second rest => Sys2Proof.Machine.execReplayEntry first second rest s
  | .ledgerReconcile writes => Sys2Proof.Machine.execLedgerReconcile s writes
  | .replayEnd => Sys2Proof.Machine.execReplayEnd s
  | .replayLate => Sys2Proof.Machine.execReplayLate s
  | .replayInhibitTimeout => Sys2Proof.Machine.execReplayInhibitTimeout s
  | .bootTestTimeout => Sys2Proof.Machine.execBootTestTimeout s
  | .quietEn ch v => Sys2Proof.Machine.execQuietEn ch v s
  | .standby ch v => Sys2Proof.Machine.execStandby ch v s
  | .disarm ch v => Sys2Proof.Machine.execDisarm ch v s
  | .standbyEntry => Sys2Proof.Machine.execStandbyEntry s
  | .standbyArmTimeout => Sys2Proof.Machine.execStandbyArmTimeout s
  | .hibernate ch v => Sys2Proof.Machine.execHibernate ch v s
  | .wake sources => Sys2Proof.Machine.execWake sources s
  | .wakeAlarm => Sys2Proof.Machine.execWakeAlarm s
  | .hostRead fn bar off len sense => Sys2Proof.Machine.execHostRead fn bar off len sense s
  | .hostWrite fn bar off data poison ro => Sys2Proof.Machine.execHostWrite fn bar off data poison ro s
  | .ingressMove => Sys2Proof.Machine.execIngressMove s
  | .lineAdmission req => Sys2Proof.Machine.execLineAdmission req s
  | .zeroLengthRead fn => Sys2Proof.Machine.execZeroLengthRead fn s
  | .pcFlushRead scope => Sys2Proof.Machine.execPcFlushRead scope s
  | .flushCompletion id => Sys2Proof.Machine.execFlushCompletion id s
  | .flushTimeout id => Sys2Proof.Machine.execFlushTimeout id s
  | .gpfPhase1 => Sys2Proof.Machine.execGpfPhase1 s
  | .gpfPhase2 => Sys2Proof.Machine.execGpfPhase2 s
  | .fence scope => Sys2Proof.Machine.execFence scope s
  | .configRequest fn reg => Sys2Proof.Machine.execConfigRequest fn reg s
  | .hotReset => Sys2Proof.Machine.execHotReset s
  | .pfFlr => Sys2Proof.Machine.execPfFlr s
  | .vfFlr v => Sys2Proof.Machine.execVfFlr v s
  | .vfEnable on numVfs ari => Sys2Proof.Machine.execVfEnable on numVfs ari s
  | .unsupportedRequest fn kind => Sys2Proof.Machine.execUnsupportedRequest fn kind s
  | .vendorDefinedMessage => Sys2Proof.Machine.execVendorDefinedMessage s
  | .identifyMemoryDevice => Sys2Proof.Machine.execIdentifyMemoryDevice s
  | .getPartitionInfo => Sys2Proof.Machine.execGetPartitionInfo s
  | .getHealthInfo => Sys2Proof.Machine.execGetHealthInfo s
  | .setShutdownState v => Sys2Proof.Machine.execSetShutdownState v s
  | .getEventRecords log => Sys2Proof.Machine.execGetEventRecords log s
  | .clearEventRecords log count => Sys2Proof.Machine.execClearEventRecords log count s
  | .getSupportedLogs => Sys2Proof.Machine.execGetSupportedLogs s
  | .getLog => Sys2Proof.Machine.execGetLog s
  | .mailboxUnsupported opcode => Sys2Proof.Machine.execMailboxUnsupported opcode s
  | .completionTimeout ch => Sys2Proof.Machine.execCompletionTimeout ch s
  | .hlCreditStall kind credits => Sys2Proof.Machine.execHlCreditStall kind s credits
  | .hostServiceStall fn entry => Sys2Proof.Machine.execHostServiceStall fn entry s
  | .holStall kind => Sys2Proof.Machine.execHolStall kind s
  | .energyRecompute vhold10mv => Sys2Proof.Machine.execEnergyRecompute vhold10mv s
  | .writeBack sense => Sys2Proof.Machine.execWriteBack sense s
  | .lineWrite slot bank => Sys2Proof.Machine.execLineWrite slot bank s
  | .trySenseResult slot bank differ next rest => Sys2Proof.Machine.execTrySenseResult slot bank differ next rest s
  | .correctionRewrite sense writes => Sys2Proof.Machine.execCorrectionRewrite sense s writes
  | .poisonRewrite sense writes => Sys2Proof.Machine.execPoisonRewrite sense s writes
  | .gapMove slot bank sense first second rest => Sys2Proof.Machine.execGapMove slot bank sense first second rest s
  | .scrub slot sense => Sys2Proof.Machine.execScrub slot sense s
  | .scrubNow ch v => Sys2Proof.Machine.execScrubNow ch v s
  | .scrubPause ch v => Sys2Proof.Machine.execScrubPause ch v s
  | .injectionArm ch v => Sys2Proof.Machine.execInjectionArm ch v s
  | .writeInhibit slot => Sys2Proof.Machine.execWriteInhibit slot s
  | .inhibitClear slot peak => Sys2Proof.Machine.execInhibitClear slot peak s
  | .fieldHoldEntry => Sys2Proof.Machine.execFieldHoldEntry s
  | .fieldRepeat => Sys2Proof.Machine.execFieldRepeat s
  | .prsntNFall slot card => Sys2Proof.Machine.execPrsntNFall slot card s
  | .debounceEnd slot => Sys2Proof.Machine.execDebounceEnd slot s
  | .supervisorReady slot => Sys2Proof.Machine.execSupervisorReady slot s
  | .authTimeout slot => Sys2Proof.Machine.execAuthTimeout slot s
  | .linkTraining slot pwrgd width => Sys2Proof.Machine.execLinkTraining slot pwrgd width s
  | .headerClassify slot => Sys2Proof.Machine.execHeaderClassify slot s
  | .prsntNOpen slot => Sys2Proof.Machine.execPrsntNOpen slot s
  | .release ch slot v => Sys2Proof.Machine.execRelease ch slot v s
  | .releaseComplete slot => Sys2Proof.Machine.execReleaseComplete slot s
  | .reauth ch slot v => Sys2Proof.Machine.execReauth ch slot v s
  | .svSoft ch slot v => Sys2Proof.Machine.execSvSoft ch slot v s
  | .svSoftTimeout slot => Sys2Proof.Machine.execSvSoftTimeout slot s
  | .supervisorPassthrough ch slot v => Sys2Proof.Machine.execSupervisorPassthrough ch slot v s
  | .idRead slot link => Sys2Proof.Machine.execIdRead slot link s
  | .auth slot link tag => Sys2Proof.Machine.execAuth slot link tag s
  | .wearRead slot link => Sys2Proof.Machine.execWearRead slot link s
  | .wearCharge slot link => Sys2Proof.Machine.execWearCharge slot link s
  | .expoRead slot link page => Sys2Proof.Machine.execExpoRead slot link page s
  | .clockSync slot link => Sys2Proof.Machine.execClockSync slot link s
  | .sensorRead slot link => Sys2Proof.Machine.execSensorRead slot link s
  | .indicator slot link mode => Sys2Proof.Machine.execIndicator slot link mode s
  | .alertRead slot link => Sys2Proof.Machine.execAlertRead slot link s
  | .fieldTest slot link pattern results => Sys2Proof.Machine.execFieldTest slot link pattern results s
  | .powerNotice slot link on => Sys2Proof.Machine.execPowerNotice slot link on s
  | .supervisorPoll slot busy => Sys2Proof.Machine.execSupervisorPoll slot busy s
  | .svTimeout slot => Sys2Proof.Machine.execSvTimeout slot s
  | .supervisorRetry slot answered => Sys2Proof.Machine.execSupervisorRetry slot answered s
  | .svalert slot => Sys2Proof.Machine.execSvalert slot s
  | .exposureSecond slot hottest field => Sys2Proof.Machine.execExposureSecond slot hottest field s
  | .flitLcrcError slot => Sys2Proof.Machine.execFlitLcrcError slot s
  | .linkIdleTimeout slot => Sys2Proof.Machine.execLinkIdleTimeout slot s
  | .retrainEnd slot up => Sys2Proof.Machine.execRetrainEnd slot up s
  | .migratePacer => Sys2Proof.Machine.execMigratePacer s
  | .duetAbort ch v => Sys2Proof.Machine.execDuetAbort ch v s
  | .cut ch v => Sys2Proof.Machine.execCut ch v s
  | .formatDone failed => Sys2Proof.Machine.execFormatDone s failed
  | .tnModeWrite ch v pos => Sys2Proof.Machine.execTnModeWrite ch v s pos
  | .tnModePersist ctx => Sys2Proof.Machine.execTnModePersist ctx s
  | .tokenRefill => Sys2Proof.Machine.execTokenRefill s
  | .csStage ch off be v => Sys2Proof.Machine.execCsStage ch off be v s
  | .digestRecompute => Sys2Proof.Machine.execDigestRecompute s
  | .countersign ch v => Sys2Proof.Machine.execCountersign ch v s
  | .withdraw ch v => Sys2Proof.Machine.execWithdraw ch v s
  | .windowLapse => Sys2Proof.Machine.execWindowLapse s
  | .secretCommit ch v => Sys2Proof.Machine.execSecretCommit ch v s
  | .metronomeTick => Sys2Proof.Machine.execMetronomeTick s
  | .disciplineInterval cycles => Sys2Proof.Machine.execDisciplineInterval cycles s
  | .secondBoundary => Sys2Proof.Machine.execSecondBoundary s
  | .minuteTick => Sys2Proof.Machine.execMinuteTick s
  | .ledgerWrite writes => Sys2Proof.Machine.execLedgerWrite s writes
  | .frameSealed => Sys2Proof.Machine.execFrameSealed s
  | .timeSync ch v => Sys2Proof.Machine.execTimeSync ch v s
  | .lgConsumedSeqWrite ch v => Sys2Proof.Machine.execLgConsumedSeqWrite ch v s
  | .latch ch v => Sys2Proof.Machine.execLatch ch v s
  | .start ch n v => Sys2Proof.Machine.execStart ch n v s
  | .fermata ch n v => Sys2Proof.Machine.execFermata ch n v s
  | .pauseReached n => Sys2Proof.Machine.execPauseReached n s
  | .resume ch n v => Sys2Proof.Machine.execResume ch n v s
  | .abort ch n v => Sys2Proof.Machine.execAbort ch n v s
  | .kick ch n v => Sys2Proof.Machine.execKick ch n v s
  | .doorbell ch n v => Sys2Proof.Machine.execDoorbell ch n v s
  | .swRequest ch v => Sys2Proof.Machine.execSwRequest ch v s
  | .gpioRequest pin level => Sys2Proof.Machine.execGpioRequest pin level s
  | .descriptorFetch n host => Sys2Proof.Machine.execDescriptorFetch n host s
  | .burstOpen n => Sys2Proof.Machine.execBurstOpen n s
  | .beatRead sense => Sys2Proof.Machine.execBeatRead sense s
  | .beatWrite n host poison => Sys2Proof.Machine.execBeatWrite n host poison s
  | .barrierReached n => Sys2Proof.Machine.execBarrierReached n s
  | .coda n => Sys2Proof.Machine.execCoda n s
  | .busError n => Sys2Proof.Machine.execBusError n s
  | .ksWdata ch be v => Sys2Proof.Machine.execKsWdata ch be v s
  | .ksRdata ch => Sys2Proof.Machine.execKsRdata ch s
  | .commit ch v => Sys2Proof.Machine.execCommit ch v s
  | .discard ch v => Sys2Proof.Machine.execDiscard ch v s
  | .ksBufExpired => Sys2Proof.Machine.execKsBufExpired s
  | .pageWriteStart => Sys2Proof.Machine.execPageWriteStart s
  | .pageWriteDone => Sys2Proof.Machine.execPageWriteDone s
  | .spPoll port sdi sckFall sckRise => Sys2Proof.Machine.execSpPoll port sdi sckFall sckRise s
  | .spWriteFrame port sdi sckFall sckRise => Sys2Proof.Machine.execSpWriteFrame port sdi sckFall sckRise s
  | .spReadFrame port sdi sckFall sckRise => Sys2Proof.Machine.execSpReadFrame port sdi sckFall sckRise s
  | .spModeChange port => Sys2Proof.Machine.execSpModeChange port s
  | .masterTransaction ch port v => Sys2Proof.Machine.execMasterTransaction ch port v s
  | .masterTransactionEnd port sdo => Sys2Proof.Machine.execMasterTransactionEnd port sdo s
  | .stretchTimeout port => Sys2Proof.Machine.execStretchTimeout port s
  | .flushTx ch port v => Sys2Proof.Machine.execFlushTx ch port v s
  | .flushRx ch port v => Sys2Proof.Machine.execFlushRx ch port v s
  | .spDataAccess ch port wr be v => Sys2Proof.Machine.execSpDataAccess ch port wr be v s
  | .evPop ch v => Sys2Proof.Machine.execEvPop ch v s
  | .evRdSeqWrite ch v => Sys2Proof.Machine.execEvRdSeqWrite ch v s
  | .evEntryLatch ch => Sys2Proof.Machine.execEvEntryLatch ch s
  | .evRouteWrite ch v => Sys2Proof.Machine.execEvRouteWrite ch v s
  | .evTraceMark ch v => Sys2Proof.Machine.execEvTraceMark ch v s
  | .evTraceSelWrite port v => Sys2Proof.Machine.execEvTraceSelWrite port v s
  | .traceDataFetch ch => Sys2Proof.Machine.execTraceDataFetch ch s
  | .twEvPop t v => Sys2Proof.Machine.execTwEvPop t v s
  | .twEvEntryLatch t => Sys2Proof.Machine.execTwEvEntryLatch t s
  | .eventLogWrite => Sys2Proof.Machine.execEventLogWrite s
  | .msixMessage fn entry => Sys2Proof.Machine.execMsixMessage fn entry s
  | .traceSpill writes => Sys2Proof.Machine.execTraceSpill s writes
  | .run ch v => Sys2Proof.Machine.execRun ch v s
  | .testEntry => Sys2Proof.Machine.execTestEntry s
  | .stop ch v => Sys2Proof.Machine.execStop ch v s
  | .exit ch v => Sys2Proof.Machine.execExit ch v s
  | .testStart n => Sys2Proof.Machine.execTestStart n s
  | .sramBist failing => Sys2Proof.Machine.execSramBist failing s
  | .clkMetro cycles => Sys2Proof.Machine.execClkMetro cycles s
  | .holdup capUf esrMohm vchg10mv => Sys2Proof.Machine.execHoldup capUf esrMohm vchg10mv s
  | .vholdCmp risingMv fallingMv => Sys2Proof.Machine.execVholdCmp risingMv fallingMv s
  | .temp slot readings => Sys2Proof.Machine.execTemp slot readings s
  | .phyLb errors => Sys2Proof.Machine.execPhyLb errors s
  | .mlLb slot errors eyeMilliUi => Sys2Proof.Machine.execMlLb slot errors eyeMilliUi s
  | .mramRef slot offsetMv tmrPercent bank => Sys2Proof.Machine.execMramRef slot offsetMv tmrPercent bank s
  | .wdrv slot deviationPermille die => Sys2Proof.Machine.execWdrv slot deviationPermille die s
  | .mag slot offMax onMin onMax sensor inhibitSeen => Sys2Proof.Machine.execMag slot offMax onMin onMax sensor inhibitSeen s
  | .array slot repaired unrepaired last => Sys2Proof.Machine.execArray slot repaired unrepaired last s
  | .remeasure ch v => Sys2Proof.Machine.execRemeasure ch v s
  | .writebackAll ch v => Sys2Proof.Machine.execWritebackAll ch v s
  | .apertureWrite ch v => Sys2Proof.Machine.execApertureWrite ch v s
  | .readClear ch off be => Sys2Proof.Machine.execReadClear ch off be s
  | .registerWrite ch off be v => Sys2Proof.Machine.execRegisterWrite ch off be v s
  | .hostLinkUp speed width flexBus => Sys2Proof.Machine.execHostLinkUp speed width flexBus s
  | .shortDrain steps pages fails damaged => Sys2Proof.Machine.execShortDrain steps s pages fails damaged
  | .lossOfVbat => Sys2Proof.Machine.execLossOfVbat s
  | .startFromOff => Sys2Proof.Machine.execStartFromOff s
  | .unexpectedCompletion => Sys2Proof.Machine.execUnexpectedCompletion s

end Sys2Proof.Machine
end

