-- ==== Sys2Proof/Machine/Step.lean ====
section
/-! DEFINITION. One step of the block: the command at the front of the queue, or one cycle of CORE_CLK on an empty queue. -/

namespace Sys2Proof.Machine

/-- One cycle passes on an idle block, while CORE_CLK runs: a minute that closed in it gives way to the next, a seal that is due ends,
and reads that can be served now are (DESIGN CHOICE, log 2). -/
def idle (s : State) : State := if s.pw.state.clocked then serveReads (sealDue (passCycle s)) else s

/-- The front command runs on the state with the queue's rest; an empty queue lets one cycle pass. -/
def step (s : State) : Host.Outcome State Fault Refusal :=
  match s.pending with
  | [] => .next (idle s)
  | c :: rest => exec c { s with pending := rest }

/-- The state with the command a word spells at the front of its queue; no word spells one (log 1). -/
def State.withFetchWord (s : State) (nbits w : Nat) : State :=
  match decodeTableWord nbits w with
  | some c => { s with pending := c :: s.pending }
  | none => s

end Sys2Proof.Machine
end

