-- ==== Sys2Proof/Safety.lean ====
section
/-! DEFINITION. The terms the claims use: what a command answers, who may write a register now, the forms the block's byte
memories keep, and the books of Table 1.5. -/

namespace Sys2Proof.Machine

/-- The command answers a next state, and that state has the property. -/
def Gives (c : Instr) (s : State) (P : State → Prop) : Prop := ∃ t, exec c s = .next t ∧ P t

/-- CORE_CLK runs, no drain is in progress, and the engine is not in scan. -/
abbrev Running (s : State) : Prop := s.pw.state.clocked = true ∧ s.pc.drain = none ∧ s.bt.scan = false

/-- A state in which the engine serves register writes: REPLAY has ended, no drain or scan runs, and no entry to HIBERNATE is
in progress (R323, Table 9.8). -/
abbrev Serves (s : State) : Prop := Running s ∧ afterReplay s = true ∧ s.pw.entering = false

/-- The channel may write the register now: the host through BAR0 or, where the G5 window holds the register, through it
(R231); or the management controller over SP0 while that port is a slave (R245). -/
abbrev MayWrite (ch : Chan) (off : Nat) (s : State) : Prop :=
  Serves s ∧ (ch = .bar0 ∨ (ch = .g5 ∧ g5Reaches off = true) ∨ (ch = .sp0 ∧ s.sp0.master = false))

/-- The open minute goes on through the next cycle, so that a cycle that an arbiter takes changes no counter (Table 6.4). -/
abbrev MinuteOpen (s : State) : Prop := s.lg.closing = none

/-- The host link takes what the block sends: the host returns credits of every kind, and egress holds nothing back (Table 2.9). -/
abbrev LinkOpen (s : State) : Prop := (∀ k : Credit, hasCredit s k = true) ∧ s.egress = [] ∧ MinuteOpen s

/-- Nothing that a command meets changes while its arbiters grant others first: the minute goes on, no tag was returned in this very
cycle (R51), and every registered inhibit is in force (R127). -/
abbrev Still (s : State) : Prop :=
  MinuteOpen s ∧ (∀ r ∈ s.gl.relTags, r.1 < s.now) ∧ ∀ x n, inhibitedAt s x = some n → n ≤ s.now

/-- Nothing at all is of this very cycle: neither what `Still` says, nor an emptied buffer slot, a refilled or cut bucket, or a change
taken into effect (R51, R138, R140). What the arbiters judge now they judge alike in the cycles that follow. -/
abbrev Settled (s : State) : Prop :=
  Still s ∧ (∀ n : Fin 32, s.dm.ch[n].relBeats.cycle < s.now) ∧ ∀ c : Ctx, (s.tenant c).fresh.cycle < s.now ∧
    (s.tenant c).cut.cycle < s.now ∧ ∀ n w, (s.tenant c).was = some (n, w) → n < s.now

/-- The states agree but for the cycle count and the arbiters' records of their grants (R59, R60). -/
abbrev Arbitrated (s t : State) : Prop :=
  t = { s with now := t.now, gl := { s.gl with
    arbTag := t.gl.arbTag, arbBank := t.gl.arbBank, arbEgress := t.gl.arbEgress, arbCrypto := t.gl.arbCrypto
    maxArb := t.gl.maxArb, maxGrants := t.gl.maxGrants } }

/-- The keep store's bytes and the descriptor SRAM's bytes have their canonical form. -/
abbrev MemoriesOk (s : State) : Prop := memOk factoryImage s.ks.mem = true ∧ memOk sramDefault s.dm.sram = true

/-- The tag book (Table 1.5, R54, R55): no class exceeds its reservation, the shared part holds at most 416 tags, and no context
holds more than 64 of those. -/
abbrev TagBook (s : State) : Prop :=
  inShared s ≤ 416 ∧ (∀ k ∈ [TagClass.hrd, .hwr, .wbk, .dma, .duet, .ledg, .int], inReserve s k ≤ k.reserved) ∧
  ∀ c : Ctx, sharedOf s c ≤ 64

/-- The hold-slot book (Table 1.5, R24): the sized cap is at most 32 steps, and no more than 131072 slots are dirty. -/
abbrev SlotBook (s : State) : Prop := s.pc.sized ≤ 32 ∧ dirty s ≤ 131072

/-- The token book (Table 1.5): every token a bucket was refilled with is spent, in the bucket or discarded. -/
abbrev TokenBook (s : State) : Prop :=
  ∀ c : Ctx, (s.tenant c).refilled = (s.tenant c).spent + (s.tenant c).tokens + (s.tenant c).discarded

/-- The books of Table 1.5 that hold at every edge; with the beat book, at most 16 filled beat buffers a channel. -/
abbrev BooksBalance (s : State) : Prop := TagBook s ∧ SlotBook s ∧ TokenBook s ∧ ∀ n : Fin 32, s.dm.ch[n].beats.length ≤ 16

/-! ### Kinds of commands, for what a command leaves alone -/

/-- Work of a slot's link and supervisor sequencer (chapter 03). -/
def slotWork : Instr → Bool
  | .debounceEnd .. | .supervisorReady .. | .authTimeout .. | .releaseComplete .. | .svSoftTimeout .. | .idRead .. | .auth ..
  | .wearRead .. | .wearCharge .. | .expoRead .. | .clockSync .. | .sensorRead .. | .indicator .. | .alertRead .. | .fieldTest ..
  | .powerNotice .. | .supervisorPoll .. | .svTimeout .. | .supervisorRetry .. | .svalert .. | .exposureSecond ..
  | .flitLcrcError .. | .linkIdleTimeout .. => true
  | _ => false

/-- Work of the media units (chapter 04). -/
def mediaWork : Instr → Bool
  | .writeBack .. | .lineWrite .. | .trySenseResult .. | .correctionRewrite .. | .poisonRewrite .. | .gapMove .. | .scrub ..
  | .writeInhibit .. | .fieldRepeat .. => true
  | _ => false

/-- Work of the ledger and the trace (chapters 06, 13). -/
def ledgerWork : Instr → Bool
  | .metronomeTick .. | .disciplineInterval .. | .secondBoundary .. | .minuteTick .. | .ledgerWrite .. | .frameSealed ..
  | .traceSpill .. => true
  | _ => false

/-- Work of the DMA channels (chapter 07). -/
def channelWork : Instr → Bool
  | .pauseReached .. | .descriptorFetch .. | .burstOpen .. | .beatRead .. | .beatWrite .. | .barrierReached .. | .coda ..
  | .busError .. | .completionTimeout .. => true
  | _ => false

/-- Configuration, mailbox, interrupt and link work of the host link (chapter 08). -/
def linkWork : Instr → Bool
  | .configRequest .. | .vendorDefinedMessage .. | .identifyMemoryDevice .. | .getPartitionInfo .. | .getHealthInfo ..
  | .setShutdownState .. | .getEventRecords .. | .clearEventRecords .. | .getSupportedLogs .. | .getLog ..
  | .mailboxUnsupported .. | .gpfPhase1 .. | .gpfPhase2 .. | .hostLinkUp .. | .msixMessage .. | .unexpectedCompletion ..
  | .hlCreditStall .. | .hostServiceStall .. | .holStall .. => true
  | _ => false

/-- Work of the serial masters (chapter 09). -/
def portWork : Instr → Bool
  | .spModeChange .. | .masterTransactionEnd .. | .stretchTimeout .. => true
  | _ => false

/-- A start of the core (Table 12.2). -/
def startWork : Instr → Bool
  | .perstNRelease .. | .referenceReturn .. => true
  | _ => false

/-- The commands at which bytes of the keep store change: a page write starts, a drain works on one or is cut short, and the scan
finishes a wipe (chapter 10). -/
def keepWork : Instr → Bool
  | .pageWriteStart .. | .ksBootScan .. | .drainEnd .. | .shortDrain .. => true
  | _ => false

/-- The commands at which the parties' secrets in use change (chapter 05). -/
def secretWork : Instr → Bool
  | .pageWriteDone .. | .ksBootScan .. | .drainEnd .. => true
  | _ => false

/-- A cartridge goes in or out. -/
def handWork : Instr → Bool
  | .prsntNFall .. | .prsntNOpen .. => true
  | _ => false

end Sys2Proof.Machine
end

