-- ==== Sys2Proof/Certificates/Slice0/Obligations.lean ====
section
/-! DEFINITION. The statements of this slice: what the commands do, by the rules of the manual. -/

open Sys2Proof Sys2Proof.Machine

/-! ### The queue and the block as a whole -/

/-- Each step takes the command at the front of the queue and is that command's execution on the state with the queue's rest. -/
def Obligations.StepRunsFrontCommand : Prop :=
  ∀ (c : Instr) (rest : List Instr) (s : State), s.pending = c :: rest → step s = exec c { s with pending := rest }

/-- On an empty queue a step lets one cycle of CORE_CLK pass where the clock runs (R312), and changes nothing but the cycle
count, save that a minute that closed in the cycle gives way to the next one and a seal that is due ends (R166, Table 6.4), and that
a read which can be served now is. The step itself is the model's choice (log 2). -/
def Obligations.EmptyQueueLetsACyclePass : Prop :=
  (∀ s : State, s.pending = [] → s.pw.state.clocked = false → step s = .next s) ∧
  (∀ s : State, s.pending = [] → s.pw.state.clocked = true → MinuteOpen s → s.lg.sealEnd = none → s.gl.ingress = [] →
    step s = .next { s with now := s.now + 1 }) ∧
  (∀ (s : State) (k : Closing), s.pending = [] → s.pw.state.clocked = true → s.lg.closing = some k → s.gl.ingress = [] →
    ∃ t, step s = .next t ∧ t.now = s.now + 1 ∧ t.lg.closing = none ∧ t.lg.minute = k.next ∧ t.pc = s.pc ∧ t.gl = s.gl ∧
      (k.merge = false → ∀ c : Ctx, t.lg.live[c] = {}) ∧ (k.merge = true → t.lg.live = s.lg.live) ∧
      ∀ c : Ctx, (t.tenant c).used = 0 ∧ (t.tenant c).quotaHit = false)

/-- The block never stops: every step, from every state and with every command in front, answers a next state. -/
def Obligations.EveryStepAnswers : Prop := ∀ s : State, ∃ t, step s = .next t

/-- A command's execution leaves the queue of waiting commands alone. -/
def Obligations.CommandsLeaveTheQueue : Prop :=
  ∀ (c : Instr) (s t : State), exec c s = .next t → t.pending = s.pending

/-- What commands leave alone, unit by unit: the keep store's bytes change only at a page write, a drain or the scan (chapter 10), the
parties' secrets in use only where they are loaded, zeroised or a start begins, the fuses only when an accepted change's apply ends
(R156) or the scan finds it unfinished, the cartridges outside the slots only by hand and at a start; and the work of slots, media, ledger, DMA channels, host link and serial
masters changes none of the units named. -/
def Obligations.CommandsLeaveOtherUnitsAlone : Prop :=
  ∀ (c : Instr) (s t : State), exec c s = .next t →
    (keepWork c = false → t.ks.mem = s.ks.mem) ∧
    (secretWork c = false → startWork c = false → t.cs.kHost = s.cs.kHost ∧ t.cs.kMgmt = s.cs.kMgmt) ∧
    (c ≠ .pageWriteDone → c ≠ .ksBootScan → t.bt.fuses = s.bt.fuses) ∧
    (handWork c = false → startWork c = false → t.shelf = s.shelf) ∧
    (slotWork c = true → t.gl = s.gl ∧ t.pc = s.pc ∧ t.duet = s.duet ∧ t.tn = s.tn ∧ t.cs = s.cs ∧ t.lg = s.lg ∧ t.dm = s.dm ∧ t.hl = s.hl ∧
      t.sp0 = s.sp0 ∧ t.sp1 = s.sp1 ∧ t.bt = s.bt ∧ t.pw = s.pw) ∧
    (mediaWork c = true → t.cs = s.cs ∧ t.sp0 = s.sp0 ∧ t.sp1 = s.sp1 ∧ t.ks = s.ks ∧ t.bt = s.bt ∧ t.pw = s.pw) ∧
    (ledgerWork c = true → t.pc = s.pc ∧ t.duet = s.duet ∧ t.cs = s.cs ∧ t.hl = s.hl ∧ t.sp0 = s.sp0 ∧ t.sp1 = s.sp1 ∧
      t.bt = s.bt ∧ t.pw = s.pw ∧ ((∀ w, c ≠ .ledgerWrite w ∧ c ≠ .traceSpill w) → t.md = s.md)) ∧
    (channelWork c = true → t.cs = s.cs ∧ t.bt = s.bt ∧ t.pw = s.pw) ∧
    (linkWork c = true → t.ct = s.ct ∧ t.duet = s.duet ∧ t.md = s.md ∧ t.cs = s.cs ∧ t.dm = s.dm ∧ t.sp0 = s.sp0 ∧ t.sp1 = s.sp1 ∧
      t.bt = s.bt ∧ t.pw = s.pw) ∧
    (portWork c = true → t.gl = s.gl ∧ t.pc = s.pc ∧ t.ct = s.ct ∧ t.duet = s.duet ∧ t.md = s.md ∧ t.tn = s.tn ∧ t.cs = s.cs ∧ t.lg = s.lg ∧
      t.hl = s.hl ∧ t.ks = s.ks ∧ t.bt = s.bt)

/-- The byte memories keep their canonical form through every step, whatever the command. -/
def Obligations.StepKeepsMemoryForm : Prop := ∀ s t : State, MemoriesOk s → step s = .next t → MemoriesOk t

/-- R24, R40, R55, R56 (Table 1.5): the books of request tags, hold slots, DMA buffer beats and bandwidth tokens balance after every
step from a state where they balance: no context holds more than 64 shared tags, GL_TAG_COUNT shows free and in-use tags that sum to
1024, and the three slot registers sum to 131072. -/
def Obligations.StepKeepsTheBooks : Prop :=
  (∀ s t : State, BooksBalance s → step s = .next t → BooksBalance t) ∧
  (∀ s : State, BooksBalance s → (regValue .bar0 { off := 0x0048 } s).toNat / 65536 = s.gl.tags.length ∧
    (regValue .bar0 { off := 0x0048 } s).toNat % 65536 + (regValue .bar0 { off := 0x0048 } s).toNat / 65536 = 1024) ∧
  (∀ s : State, BooksBalance s → (regValue .bar0 { off := 0x0410 } s).toNat + (regValue .bar0 { off := 0x040C } s).toNat +
    (regValue .bar0 { off := 0x0414 } s).toNat = 131072)

/-- Tables 15.2 to 15.9 and R245: the state after reset has the memories' canonical form and balanced books, no command waits, the engine is in BOOT with SP0 a slave and SP1 a
master, nothing is admitted or in flight, and registers whose reset value the register index gives as a number show it. (The
register index gives values at the end of BOOT; that the model's reset state is BOOT's first cycle is log 5.) -/
def Obligations.ResetStateAndMemoryForm : Prop :=
  MemoriesOk State.reset ∧ BooksBalance State.reset ∧ State.reset.pending = [] ∧ State.reset.pw.state = .boot ∧ State.reset.sp0.master = false ∧
  State.reset.sp1.master = true ∧ State.reset.gl.ingress = [] ∧ State.reset.gl.tags = [] ∧ State.reset.pc.slots = [] ∧
  ∀ p ∈ ([(0x0000, 0x72084807), (0x0004, 0x4200), (0x0048, 0x400), (0x0054, 0x20), (0x0408, 0x20), (0x0438, 0x4000), (0x0808, 0x100),
    (0x080C, 0x2), (0x0C04, 0x40), (0x0D08, 0xF), (0x0D0C, 0x200), (0x1420, 0xFFFFFF00), (0x1804, 0x400), (0x2008, 0x00100007), (0x3400, 0x40), (0x3418, 0x00400040),
    (0x3808, 0xD000), (0x3C08, 0x000307DA), (0x4008, 0x41), (0x4024, 0x1000)] : List (Nat × Word)),
    regValue .bar0 { off := p.1 } State.reset = p.2

/-! ### Power, reset and start-up -/

/-- What D0 and D1 of Table 1.3 leave: a drain of the given cause that began in this cycle toward the hold target, no request
waiting for admission, no flush, every DMA channel idle with an empty buffer, the hold charger off and no arm of STANDBY;
every dirty line, the media unit, the keep store's bytes, the duet and, where no minute closes, the contexts as they were. That a drain
which finds a hold area pending keeps to the second header is the model's choice (log 134). -/
abbrev DrainBegun (cause : Nat) (s t : State) : Prop :=
  (∃ d, t.pc.drain = some d ∧ d.cause = cause ∧ d.cycle = s.now ∧ d.target = holdTarget s ∧
    (d.early = true ↔ s.pw.state = .boot ∨ s.pw.state = .replay ∨ s.pc.replayPending = true)) ∧
  t.gl.ingress = [] ∧ t.pc.flushes = [] ∧ (∀ n : Fin 32, t.dm.ch[n].state = .idle ∧ t.dm.ch[n].beats = []) ∧
  t.pw.chgEn = false ∧ t.pw.armed = none ∧ t.pw.state = s.pw.state ∧ t.cs.state ≠ .opened ∧
  t.pc.slots = s.pc.slots ∧ t.md = s.md ∧ t.ks.mem = s.ks.mem ∧ (MinuteOpen s → t.tn = s.tn) ∧ t.duet = s.duet ∧
  t.now = s.now ∧ t.out = []

/-- R31, R240, R314, R326, R374 (Table 12.7): with CORE_CLK running, no drain and no scan, each of PFAIL_N's fall, PERST_N's
assertion, a core rail out of range, the loss of lock and a junction at 125 °C or more starts the drain with D0 and D1. In HIBERNATE a
PFAIL_N fall moves the island to VBAT, and a loss of lock and an assertion of PERST_N change no state of service; a loss of lock in scan
(R310) starts no drain and the engine powers down. -/
def Obligations.DrainsBegin : Prop :=
  (∀ s, Running s → Gives .pfailNFall s fun t => DrainBegun 0 s t ∧ t.pw.mainPower = false) ∧
  (∀ s, Running s → Gives .perstNAssertion s fun t => DrainBegun 1 s t ∧ t.pw.perstLow = true) ∧
  (∀ s (r : Fin 5), Running s → Gives (.railOutOfRange r) s fun t => DrainBegun 1 s t ∧ t.pw.rails = s.pw.rails.set r false) ∧
  (∀ s, Running s → Gives .lossOfLock s fun t => DrainBegun 2 s t ∧ t.gl.lock = false ∧ t.gl.holdover = true) ∧
  (∀ s (tj : BitVec 8), Running s → 125 ≤ tj.toNat → tj.toNat < 128 →
    Gives (.thermalTrip tj) s fun t => DrainBegun 3 s t ∧ t.pw.thermTrip = true) ∧
  (∀ s, s.pw.state = .hibernate → s.pw.vbat = true →
    exec .pfailNFall s = .next { s with out := [], pw := { s.pw with mainPower := false, fromVbat := true, coreOn := false } }) ∧
  (∀ s, s.pw.state = .hibernate → exec .lossOfLock s = .next { s with out := [], gl := { s.gl with refOk := false } }) ∧
  (∀ s, s.pw.state = .hibernate → exec .perstNAssertion s = .next { s with out := [], pw := { s.pw with perstLow := true } }) ∧
  (∀ s, s.pw.state = .test → s.bt.scan = true → s.pw.mainPower = true → s.gl.refOk = true →
    Gives .lossOfLock s fun t => t.pw.state = .hibernate ∧ t.bt.scan = false ∧ t.pc.drain = none ∧ t.ks.mem = s.ks.mem)

/-- R31, R34 (Table 1.3, D3 to D6 and End): a drain with a hold target, with no media write in progress, ends with a header that
counts every dirty slot, an entry for each in admission order, damaged where the cells fail it, and, when it is proven, the commit
record; the engine enters HIBERNATE, or OFF where neither main power nor VBAT feeds the island. A short drain leaves no commit record:
the header and its first entries, or, where it fell short before its header, the hold area as it was.
That a short drain may stop behind any of its writes is the model's choice (log 42). -/
def Obligations.DrainEndsInHeaderEntriesAndCommit : Prop :=
  (∀ s d x c fails damaged, s.pc.drain = some d → d.target = some x → d.early = false → d.noTarget = false → d.cause ≠ 5 →
    s.md.writes = [] → (s.slot x).cart = some c →
    Gives (.drainEnd fails damaged) s fun t => ∃ c' h, (t.slot x).cart = some c' ∧ c'.hold.header0 = some h ∧ h.commit = true ∧
      h.boot = s.ks.bootCount.toNat ∧ h.total = s.pc.slots.length ∧
      (∀ i (hi : i < s.pc.slots.length), ∃ e, c'.hold.entries[i]? = some e ∧ e.index = i ∧ e.boot = s.ks.bootCount.toNat ∧
        e.data = s.pc.slots[i].data ∧ e.mask = s.pc.slots[i].mask ∧ e.media = s.pc.slots[i].media ∧
        e.ctx = s.pc.slots[i].ctx ∧ e.asn = s.pc.slots[i].asn ∧ e.tempo = s.pc.slots[i].tempo ∧
        (e.damaged = true ↔ i ∈ damaged)) ∧
      t.pc.drain = none ∧ t.pw.coreOn = (decide (d.cause = 0) && s.pw.mainPower) ∧
      t.pw.state = (if s.pw.mainPower || s.pw.vbat then .hibernate else .off)) ∧
  (∀ s d x c fails damaged k pages, s.pc.drain = some d → d.target = some x → d.early = false → d.noTarget = false →
    s.md.writes = [] → (s.slot x).cart = some c →
    Gives (.shortDrain (k + 1) pages fails damaged) s fun t => ∃ c' h, (t.slot x).cart = some c' ∧ c'.hold.header0 = some h ∧
      h.commit = false ∧ h.total = s.pc.slots.length ∧ h.boot = s.ks.bootCount.toNat ∧
      (∀ i (hi : i < s.pc.slots.length), i < k → ∃ e, c'.hold.entries[i]? = some e ∧ e.index = i ∧ e.data = s.pc.slots[i].data ∧
        e.media = s.pc.slots[i].media) ∧ t.pc.drain = none ∧
      t.pw.state = (if s.pw.mainPower || s.pw.vbat then .hibernate else .off)) ∧
  (∀ s d x c fails damaged pages, s.pc.drain = some d → d.target = some x → d.noTarget = false → s.md.writes = [] →
    (s.slot x).cart = some c → Gives (.shortDrain 0 pages fails damaged) s fun t => (∃ c', (t.slot x).cart = some c' ∧ c'.hold = c.hold) ∧
      t.pc.drain = none ∧ t.pw.state = (if s.pw.mainPower || s.pw.vbat then .hibernate else .off))

/-- R314, R317 (Table 12.2), R327: a PERST_N release in OFF or HIBERNATE, with main power and the reference present, is cycle 0 of
a start in BOOT: the keep store's bytes, the fuses and the ledger time are kept, a seated cartridge is kept and debounced, no
request, dirty line or tag is left, and the personality strap is sampled. In any other state nothing starts.
What the state holds at cycle 0 where no register gives it is the model's choice (logs 5, 21). -/
def Obligations.PerstReleaseStartsBoot : Prop :=
  (∀ s hl a b, s.pw.state = .off ∨ s.pw.state = .hibernate → s.pw.mainPower = true → s.gl.refOk = true →
    Gives (.perstNRelease hl a b) s fun t =>
      t.pw.state = .boot ∧ t.now = 0 ∧ t.gl.strapCxl = hl ∧ t.gl.ingress = [] ∧ t.gl.tags = [] ∧ t.pc.slots = [] ∧
      t.pc.drain = none ∧ t.ks.mem = s.ks.mem ∧ t.ks.scanned = false ∧ t.bt.fuses = s.bt.fuses ∧ t.lg.lgt = s.lg.lgt ∧
      (∀ x c, (s.slot x).cart = some c → (t.slot x).cart = some c ∧ (t.slot x).state = .debounce) ∧
      t.pw.wakeCause = (if s.pw.coreOn then s.pw.wakeCause else if s.pw.state = .off then 0 else 1)) ∧
  (∀ s hl a b, s.pw.state ≠ .off → s.pw.state ≠ .hibernate →
    exec (.perstNRelease hl a b) s = .next { s with out := [], pw := { s.pw with perstLow := false } }) ∧
  (∀ s, s.pw.state = .hibernate → s.gl.lock = false → s.pw.mainPower = true → s.pw.perstLow = false →
    Gives .referenceReturn s fun t => t.pw.state = .boot ∧ t.now = 0 ∧ t.ks.mem = s.ks.mem ∧ t.pc.slots = []) ∧
  (∀ s, s.pw.state.clocked = true → exec .referenceReturn s =
    .next { s with out := [], gl := { s.gl with refOk := true, lock := true, holdover := false } })

/-- R313, R325, R366: main power's return and the island's sources wake a HIBERNATE engine while main power is present, by the
lowest enabled code, and raise CORE_ON; the first powering from VAON raises it from OFF; VBAT's loss without main power is OFF;
a VBAT below 2.4 V sets VBAT_LOW and, while the core runs, is logged. -/
def Obligations.IslandWakesAndSupplies : Prop :=
  (∀ s, s.pw.state = .hibernate → s.pw.coreOn = false → exec .pfailNRise s = .next { s with out := [], pw := { s.pw with
    mainPower := true, coreOn := true, wakeCause := 2, wakeN := !s.pw.perstLow } }) ∧
  (∀ s src c, s.pw.state = .hibernate → s.pw.coreOn = false → s.pw.mainPower = true →
    lowestCode (src &&& wakeEnabled s s.pw.islandEn s.pw.islandAfter) = some c → c ≠ 2 →
    exec (.wake src) s = .next { s with out := [], pw := { s.pw with
      coreOn := true, wakeCause := BitVec.ofNat 4 c, wakeN := !s.pw.perstLow } }) ∧
  (∀ s e, s.pw.state = .hibernate → s.pw.coreOn = false → s.pw.mainPower = true → s.pw.tripWake = false →
    bit s.pw.islandEn 1 = true → s.pw.islandAfter ≠ 0 → s.pw.lpEnter = some e →
    s.pw.islandAfter.toNat * 32768 ≤ (s.lg.lgt - e.1) / tick1 →
    exec .wakeAlarm s = .next { s with out := [], pw := { s.pw with
      coreOn := true, wakeCause := 4, wakeN := !s.pw.perstLow } }) ∧
  (∀ s, s.pw.state = .off → exec .startFromOff s = .next { s with
    out := [], pw := { s.pw with mainPower := true, coreOn := true, wakeCause := 0, wakeN := !s.pw.perstLow }
    lg := { s.lg with islandLost := true } }) ∧
  (∀ s, s.pw.state = .hibernate → s.pw.mainPower = false → exec .lossOfVbat s = .next { s with
    out := [], pw := { s.pw with vbat := false, state := .off, coreOn := false }, lg := { s.lg with islandLost := true } }) ∧
  (∀ s v, v.toNat < 240 → s.pw.vbatLow = false → s.pw.state.clocked = true →
    exec (.vbatLow v) s = .next (raise uPW cVBAT_LOW noCtx (v.setWidth 32) 0 0
      { s with out := [], pw := { s.pw with vbat10mv := v, vbatLow := true } })) ∧
  (∀ s v, 240 ≤ v.toNat → exec (.vbatLow v) s = .next { s with out := [], pw := { s.pw with vbat10mv := v, vbatLow := false } })

/-- R287, R328, R329 (Table 12.2): the keep-store scan ends in BOOT with the units' values loaded, and the personality and the
aperture slot size in effect follow the scanned settings and the strap (R218, R223); BOOT ends in REPLAY when the scan and
SRAM_BIST have ended and both slots are settled; REPLAY ends in ACTIVE, or QUIET by QUIET_EN, when the replay and the
reconciliation are done, the hold area that was read can be erased, the tests are over and no cause of REST stands.
Which cartridge's hold area a start reads, and the changes that a drain's phase K accepted, are the model's choices (logs 136, 137). -/
def Obligations.BootScanReplayAndService : Prop :=
  (∀ s, s.pw.state = .boot → s.ks.scanned = false → Gives .ksBootScan s fun t =>
    t.ks.scanned = true ∧ t.hl.slotLog2Eff = t.hl.slotLog2 ∧
    t.hl.effCxl = (decide (t.hl.persNext = 3) || (decide (t.hl.persNext ≠ 2) && t.gl.strapCxl))) ∧
  (∀ s, s.pw.state = .boot → s.ks.scanned = true → s.bt.sramDone = true → s.pc.drain = none → s.ks.late = [] →
    slotSettled s .a = true → slotSettled s .b = true → Gives .bootEnd s fun t =>
      t.pw.state = .replay ∧ t.gl.bootEnd = some s.now ∧ t.pw.tBoot = lo32 (s.now / us) ∧ t.sp0.page = 0 ∧ t.sp1.page = 0) ∧
  (∀ s, s.pw.state = .replay → s.pc.drain = none → areaAbsent s = false → eraseWaits s = false → s.ks.late = [] →
    s.pc.reconciled = true → replayDone s = true → startWritesOver s = true → testsOver s = true → s.bt.causes = [] → Gives .replayEnd s fun t =>
      t.pw.state = (if s.pw.quietEn then .quiet else .active) ∧ t.pc.replayPending = false ∧
      t.hl.memActive = s.hl.effCxl ∧ t.pc.slots = s.pc.slots ∧
      (∀ x c, areaSlot s = some x → (t.slot x).cart = some c → c.hold.header0 = none ∧ c.hold.header1 = none)) ∧
  (∀ s, s.pw.state = .boot ∧ (s.ks.scanned = false ∨ s.bt.sramDone = false ∨ slotSettled s .a = false ∨ slotSettled s .b = false) →
    exec .bootEnd s = .next { s with out := [] })

/-- R35, R37, R329: in REPLAY the next entry that belongs to the drain, a whole line, is written to its home with the entry's key, tempo
and data when its write verifies, past the hold buffer, and the position advances; with the last entry examined the ledger is
reconciled and the engine's ASN starts again at 0. REPLAY not ended by 750 ms, and an inhibit of the hold target that has lasted 500 ms,
put the engine in REST with a replay pending, which is HELD; before those times nothing happens.
That the entry is written under its own key number is the model's choice (log 73). -/
def Obligations.ReplayWritesHomeOrRests : Prop :=
  (∀ s c p e k j w, s.pw.state = .replay → s.pc.drain = none → Still s → s.duet.state = .soloA → areaSlot s = some .a →
    replayReady s [(.a, e.media)] = true → tagFree s .wbk e.ctx = true → s.md.injArmed = false →
    (s.slot .a).cart = some c → nextEntry c.hold s.pc.replayIdx = some (p, e) → e.mask = fullMask →
    Gives (.replayEntry (some k) j w) s fun t =>
      (∃ c', (t.slot .a).cart = some c' ∧ (lineAt c' e.media).data = e.data ∧ (lineAt c' e.media).keyCtx = e.ctx.val ∧
        (lineAt c' e.media).keyGen = e.keyGen ∧ (lineAt c' e.media).tempo = e.tempo.bits ∧
        (lineAt c' e.media).poison = e.poison ∧ (∀ n, n ≠ e.media → lineAt c' n = lineAt c n)) ∧
      t.pc.replayIdx = p + 1 ∧ t.pc.replayCount = s.pc.replayCount + 1 ∧ t.pc.slots = s.pc.slots) ∧
  (∀ s w, s.pw.state = .replay → s.pc.drain = none → replayDone s = true → s.pc.reconciled = false →
    areaAbsent s = false → Gives (.ledgerReconcile w) s fun t =>
      t.pc.reconciled = true ∧ t.pc.asn = 0 ∧ t.lg.islandLost = false ∧ t.pc.slots = s.pc.slots ∧ t.pw.state = .replay) ∧
  (∀ s, s.pw.state = .replay → s.pc.drain = none → 750 * ms ≤ s.now →
    Gives .replayLate s fun t => t.pw.state = .rest ∧ t.pc.replayPending = true ∧ restMode t = 2 ∧ t.pc.slots = s.pc.slots) ∧
  (∀ s, s.now < 750 * ms → exec .replayLate s = .next { s with out := [] }) ∧
  (∀ s x n, s.pw.state = .replay → s.pc.drain = none → areaSlot s = some x → inhibitedAt s x = some n → n + 500 * ms ≤ s.now →
    Gives .replayInhibitTimeout s fun t => t.pw.state = .rest ∧ t.pc.replayPending = true ∧ restMode t = 2)

/-! ### Low power -/

/-- R317, R320, R322 (Tables 12.2 to 12.5): a write of PW_CTRL stores QUIET_EN, and ACTIVE and QUIET follow it; STANDBY arms in
ACTIVE and QUIET where Table 12.4 holds and lapses an OPEN change; DISARM clears the arm with OK; the arm clears after 1 s with
TIMEOUT; an armed engine whose link has reached L1.2 enters STANDBY; an enabled source, and the alarm, bring it back to the
state it left with the cause recorded. -/
def Obligations.QuietAndStandby : Prop :=
  (∀ ch s v, MayWrite ch 0x4004 s → usual s = true → bit v 1 = false → bit v 2 = false → bit v 3 = false →
    Gives (.quietEn ch v) s fun t => t.pw.quietEn = bit v 0 ∧ t.pw.state = (if bit v 0 then .quiet else .active) ∧
      t = { s with out := [], ev := t.ev, pw := { s.pw with quietEn := bit v 0, state := t.pw.state } }) ∧
  (∀ ch s v, MayWrite ch 0x4004 s → usual s = true → lowPowerOk s = true → v = putB s.pw.quietEn 0 →
    Gives (.standby ch v) s fun t => t.pw.armed = some s.now ∧ t.cs.state ≠ .opened ∧
      t = { s with out := [], ev := t.ev, cs := t.cs, pw := { s.pw with armed := some s.now, state := t.pw.state } }) ∧
  (∀ ch s v n, MayWrite ch 0x4004 s → usual s = true → s.pw.armed = some n → v = putB s.pw.quietEn 0 →
    Gives (.disarm ch v) s fun t => t.pw.armed = none ∧ t.pw.lastResult = cOK ∧ t.md = s.md ∧ t.gl = s.gl ∧ t.cs = s.cs) ∧
  (∀ s n, s.pw.armed = some n → n + sec ≤ s.now →
    exec .standbyArmTimeout s = .next { s with out := [], pw := { s.pw with armed := none, lastResult := cTIMEOUT } }) ∧
  (∀ s n, s.pw.armed = some n → usual s = true → lowPowerOk s = true → s.sp0.inFrame = false → s.pc.drain = none →
    Gives .standbyEntry s fun t => t.pw.state = .standby ∧ t.pw.armed = none ∧ t.pw.standbyFrom = s.pw.state ∧
      t.pw.lpEnter = some (s.lg.lgt, .standby) ∧ (∀ x, (t.slot x).link ≠ .active) ∧ t.gl = s.gl ∧ t.tn = s.tn) ∧
  (∀ s, s.pw.state = .standby → Gives (.wake 0x040) s fun t => t.pw.state = s.pw.standbyFrom ∧ t.pw.wakeCause = 6) ∧
  (∀ s e, s.pw.state = .standby → bit s.pw.wakeEn 1 = true → s.pw.wakeAfter ≠ 0 → s.pw.lpEnter = some e →
    s.pw.wakeAfter.toNat * 32768 ≤ (s.lg.lgt - e.1) / tick1 →
    Gives .wakeAlarm s fun t => t.pw.state = s.pw.standbyFrom ∧ t.pw.wakeCause = 4)

/-- R323 (Table 12.6): HIBERNATE, written where it may be requested and Table 12.4 holds, marks the engine as entering, copies the
wake settings to the island and starts the drain on main power, after which a further register write is refused. -/
def Obligations.HibernateEntryDrains : Prop :=
  (∀ ch s, MayWrite ch 0x4004 s → hibernateState s = true → lowPowerOk s = true →
    Gives (.hibernate ch (putB s.pw.quietEn 0)) s fun t => t.pw.entering = true ∧ t.pw.islandEn = s.pw.wakeEn ∧
      t.pw.islandAfter = s.pw.wakeAfter ∧ (∃ d, t.pc.drain = some d ∧ d.cause = 4) ∧ t.gl.ingress = [] ∧ t.pw.state.clocked = true) ∧
  (∀ ch s off v, Running s → afterReplay s = true → s.pw.entering = true → (ch = .bar0 ∨ (ch = .sp0 ∧ s.sp0.master = false)) →
    off = 0x4008 ∨ off = 0x0438 → Gives (.registerWrite ch (BitVec.ofNat 16 off) allBytes v) s fun t =>
      t = { s with out := [], ev := t.ev, pc := t.pc, pw := t.pw } ∧ t.pw.wakeEn = s.pw.wakeEn ∧ t.pc.lowwater = s.pc.lowwater ∧
      (if off = 0x4008 then t.pw.wrongState = true else t.pc.wrongState = true))

/-! ### Self-test -/

/-- A test that ran in BOOT passed, with its measured detail words: it runs no more and BT_BOOT_DONE records it. -/
abbrev BootTestPassed (i : Fin 16) (d : Word × Word × Word × Word) (s t : State) : Prop :=
  t.bt = { s.bt with running := s.bt.running.filter (fun j => decide (j ≠ i)), bootDone := s.bt.bootDone ||| bitMask i,
                     details := s.bt.details.set i d } ∧ t.pw = s.pw ∧ t.tn = s.tn ∧ t.ks = s.ks ∧ t.gl = s.gl ∧ t.out = []

/-- The test runs, in BOOT and outside a run of the driver's. -/
abbrev InBoot (i : Fin 16) (s : State) : Prop := s.pw.state = .boot ∧ s.bt.run = 0 ∧ i ∈ s.bt.running

/-- R292 (Table 11.1): each test whose measurements meet its criterion passes, and its measurements are the detail words. -/
def Obligations.TestsPassByTheirCriteria : Prop :=
  (∀ s n, InBoot 1 s → 7808594 ≤ n → n ≤ 7816406 → Gives (.clkMetro n) s fun t =>
    ∃ d, BootTestPassed 1 d s t ∧ t.lg = s.lg) ∧
  (∀ s r f, InBoot 3 s → 5445 ≤ r → r ≤ 5555 → 5445 ≤ f → f ≤ 5555 → Gives (.vholdCmp r f) s fun t =>
    ∃ d, BootTestPassed 3 d s t ∧ t.pc = s.pc) ∧
  (∀ s a b, InBoot 4 s → s.bt.fail = 0 → (a - b).natAbs ≤ 3 → Gives (.temp none [a, b]) s fun t =>
    BootTestPassed 4 (lo32 (a - b).natAbs, 0, 0, 0) s t) ∧
  (∀ s, InBoot 5 s → Gives (.phyLb 0) s fun t => BootTestPassed 5 (0, 0, 0, 0) s t) ∧
  (∀ s x e, InBoot (testBit 6 x) s → 200 ≤ e → Gives (.mlLb x 0 e) s fun t =>
    BootTestPassed (testBit 6 x) (0, 0, 0, 0) s t ∧ (t.slot x).lbFail = false) ∧
  (∀ s x o r b, InBoot (testBit 7 x) s → o ≤ 15 → 80 ≤ r → Gives (.mramRef x o r b) s fun t =>
    BootTestPassed (testBit 7 x) (lo32 o, lo32 b, 0, 0) s t) ∧
  (∀ s x v n, InBoot (testBit 8 x) s → v ≤ 50 → Gives (.wdrv x v n) s fun t =>
    BootTestPassed (testBit 8 x) (lo32 v, lo32 n, 0, 0) s t) ∧
  (∀ s x o lo hi n, InBoot (testBit 9 x) s → o < 50 → 360 ≤ lo → hi ≤ 440 → Gives (.mag x o lo hi n true) s fun t =>
    ∃ d, BootTestPassed (testBit 9 x) d s t ∧ t.md = { s.md with coil := none })

/-- R27, R293: a HOLDUP whose three readings agree sets the capacitance to the smallest and the resistance to the largest, and
SIZED_STEPS to what the energy of Table 1.2 pays for, at most the steps that are good. -/
def Obligations.HoldupSizesTheBuffer : Prop :=
  ∀ s c1 c2 c3 r1 r2 r3 (v : BitVec 16), (2 : Fin 16) ∈ s.bt.running → s.bt.run ≠ 2 →
    (let c := min (min c1 c2) c3
     let r := max (max r1 r2) r3
     max (max c1 c2) c3 * 100 ≤ c * 105 → r ≤ min (min r1 r2) r3 + 10 → r < 255 →
     (bit s.bt.bootDone 3 && bit s.bt.bootFail 3) = false →
     Gives (.holdup [c1, c2, c3] [r1, r2, r3] v) s fun t =>
       t.pc.capUf = c ∧ t.pc.esrMohm = r ∧ t.pc.charge10mv = v ∧ t.pc.remeasure = false ∧
       t.pc.sized = min (min 32 ((energyNj c r v.toNat - 6350000) / 1048576)) (32 - s.bt.badSteps.length) ∧
       t.pc.live ≤ t.pc.sized ∧ t.pc.availNj = energyNj c r v.toNat ∧ t.pc.slots = s.pc.slots)

/-- R302 (Table 11.2), R295: a CLK_METRO outside its limits leaves DISC_HOLD at 1, a VHOLD_CMP outside them sets SIZED_STEPS to 0,
and a BOOT test still running 150 ms after cycle 0 fails; each is recorded as failed. -/
def Obligations.TestFailuresHaveTheirOutcome : Prop :=
  (∀ s n, InBoot 1 s → n < 7808594 ∨ 7816406 < n → Gives (.clkMetro n) s fun t =>
    t.lg.discHold = true ∧ t.bt.bootFail = s.bt.bootFail ||| 2 ∧ t.bt.lastResult = cBT_FAIL) ∧
  (∀ s r f, InBoot 3 s → 5555 < r → Gives (.vholdCmp r f) s fun t =>
    t.pc.sized = 0 ∧ t.pc.live = 0 ∧ t.bt.bootFail = s.bt.bootFail ||| 8) ∧
  (∀ s, s.pw.state = .boot → s.bt.run = 0 → s.bt.running = [5] → 150 * ms ≤ s.now → Gives .bootTestTimeout s fun t =>
    t.bt.running = [] ∧ t.bt.bootFail = s.bt.bootFail ||| 32 ∧ t.bt.lastResult = cTIMEOUT ∧ t.pw = s.pw)

/-- R297, R299, R304: RUN starts a run of the driver's tests: from REST at once, from ACTIVE and QUIET once no line admitted as posted
is dirty; the first waiting and ready test starts when the limits allow it; STOP skips what has not started; EXIT of a run that
stayed leaves TEST. -/
def Obligations.RunsOfTheDriver : Prop :=
  (∀ ch s, MayWrite ch 0x3C04 s → usual s = true → maskBad s.bt.mask = false → noPosted s = false → s.bt.stay = false →
    Gives (.run ch 0) s fun t => t.bt.run = 1 ∧ t.pw.state = s.pw.state ∧ t.cs.state ≠ .opened ∧ t.pc = s.pc) ∧
  (∀ s, s.bt.run = 1 → usual s = true → s.pc.drain = none → noPosted s = true → s.bt.mask = 0x2 →
    Gives .testEntry s fun t => t.pw.state = .test ∧ t.bt.run = 2 ∧ t.bt.todo = [1] ∧ t.bt.done = 0 ∧ t.bt.fail = 0) ∧
  (∀ s i, nextTest s = some i → testFits s i = true → Running s → Gives (.testStart i) s fun t =>
    t.bt.running = s.bt.running ++ [i] ∧ i ∉ t.bt.todo ∧ s.bt.peakMw ≤ t.bt.peakMw ∧ t.bt.done = s.bt.done ∧ t.out = []) ∧
  (∀ ch s, MayWrite ch 0x3C04 s → s.pw.state = .test → s.bt.run = 2 → s.bt.stay = true → s.bt.running ≠ [] →
    (∀ i ∈ s.bt.todo, i ∉ s.bt.running) → Gives (.stop ch 8) s fun t => t.bt.todo = [] ∧ t.bt.stopped = true ∧ t.bt.running = s.bt.running ∧ t.pw.state = .test) ∧
  (∀ ch s, MayWrite ch 0x3C04 s → s.pw.state = .test → s.bt.run = 3 → s.bt.causes = [] → s.pc.replayPending = false →
    Gives (.exit ch (putB s.bt.stay 3)) s fun t => t.bt.run = 0 ∧ t.pw.state = (if s.pw.quietEn then .quiet else .active))

/-- R306, R332, R301: SRAM_BIST with no failing row opens the log and the trace and repairs nothing; the end of ARRAY for a bank
charges the bank's writes to the provider's column, 24 576 wear units, and moves to the next bank. -/
def Obligations.SramBistAndArray : Prop :=
  (∀ s, InBoot 0 s → s.ks.scanned = true → Gives (.sramBist []) s fun t =>
    t.bt.sramDone = true ∧ t.ev.logOpen = true ∧ t.bt.badSteps = [] ∧ t.bt.soft = s.bt.soft ∧
    t.bt.bootDone = s.bt.bootDone ||| 1 ∧ t.ks = s.ks) ∧
  (∀ s x c, testBit 10 x ∈ s.bt.running → inhibited s x = false → (s.slot x).cart = some c → s.bt.arrayA < 127 → s.bt.arrayB < 127 →
    Gives (.array x 0 0 false) s fun t =>
      t.bt.arrayA = s.bt.arrayA + (if x = .a then 1 else 0) ∧ t.bt.arrayB = s.bt.arrayB + (if x = .b then 1 else 0) ∧
      t.lg.live[provider].wear = s.lg.live[provider].wear + 24576 ∧ (t.slot x).uncharged = (s.slot x).uncharged + 24576 ∧
      t.slot x.other = s.slot x.other ∧ t.bt.running = s.bt.running)

/-! ### Host requests -/

/-- No request, flush or failure message of any context waits, so that nothing holds a read back. -/
abbrev NothingWaits (s : State) : Prop :=
  s.gl.ingress = [] ∧ s.pc.flushes = [] ∧ s.pc.slots = [] ∧ ∀ c : Ctx, (s.tenant c).failMsg = false

/-- R57, R141, R234, R235 (Table 8.5): a host read of bytes of one line of its context's partition, which the lock, the bounds and
the engine's state permit, which finds an entry of staging and share, its tokens and a tag, and whose line no earlier write and no
line-write on its bank hold back, completes with the line's bytes: the dirty line's where a slot holds the whole line, else those
of the good media line under the context's key; it is counted in OPS and READ. A refused one is recorded in HL_REFUSE with
the first code of R234's order, is counted, and completes as an Unsupported Request.
That a read which can be served completes within its command, whose clock runs to its arbiters' grants, is the model's choice (logs
105, 121). -/
def Obligations.HostReadsReturnTheLine : Prop :=
  (∀ s fn bar c o off len h, reaches s .bar0 = true → s.hl.effCxl = false → targetOf s fn bar off = .media c o → 0 < len → o % 64 + len ≤ 64 →
    s.gl.ingress = [] → refusalOf s c false o len = none → stagingFree s false = true → shareFree s c = true →
    ((s.judged c).unlimited = true ∨ hasTokens s c 1 = true) → tagFree s .hrd c = true → s.pw.entering = false → LinkOpen s →
    writeWaits s (lineIn s c 0 + o / 64) = false →
    dirtyOf s (lineIn s c 0 + o / 64) = some h → h.mask = fullMask → h.poison = false →
    Gives (.hostRead fn bar off len []) s fun t =>
      t.out = [.completion fn .sc false (((lineBytes h.data).drop (o % 64)).take len)] ∧ t.gl.ingress = [] ∧
      t.lg.live[c].read = s.lg.live[c].read + 1 ∧ t.lg.live[c].ops = s.lg.live[c].ops + 1 ∧ t.pc = s.pc ∧ t.md = s.md ∧ t.ct = s.ct) ∧
  (∀ s fn bar c o off len x n, reaches s .bar0 = true → s.hl.effCxl = false → targetOf s fn bar off = .media c o → 0 < len →
    o % 64 + len ≤ 64 → s.gl.ingress = [] → refusalOf s c false o len = none → stagingFree s false = true → shareFree s c = true →
    ((s.judged c).unlimited = true ∨ hasTokens s c 1 = true) → tagFree s .hrd c = true → s.pw.entering = false → LinkOpen s →
    writeWaits s (lineIn s c 0 + o / 64) = false → lineReady s (lineIn s c 0 + o / 64) = true →
    dirtyOf s (lineIn s c 0 + o / 64) = none →
    readHome s (lineIn s c 0 + o / 64) = some (x, n) → s.md.injArmed = false →
    (lineOn s x n).err = 0 → (lineOn s x n).version = 1 → (lineOn s x n).poison = false →
    (lineOn s x n).fresh = false → (lineOn s x n).keyCtx = c.val → (lineOn s x n).keyGen = (s.tenant c).keyNo →
    (lineOn s x n).tweak = o / 64 →
    Gives (.hostRead fn bar off len []) s fun t =>
      t.out = [.completion fn .sc false (((lineBytes (lineOn s x n).data).drop (o % 64)).take len)] ∧
      t.lg.live[c].read = s.lg.live[c].read + 1 ∧ t.pc = s.pc) ∧
  (∀ s fn bar c o off len code, reaches s .bar0 = true → s.hl.effCxl = false → targetOf s fn bar off = .media c o → 0 < len →
    o % 4096 + len ≤ 4096 → s.gl.ingress = [] → refusalOf s c false o len = some code → stagingFree s false = true →
    shareFree s c = true → tagFree s .hrd c = true → LinkOpen s →
    Gives (.hostRead fn bar off len []) s fun t => t.out = [.completion fn .ur false []] ∧ t.hl.refValid = true ∧
      t.hl.refCode = code ∧ t.hl.refCtx = ctxByte c ∧ t.hl.refWrite = false ∧ t.hl.refOff = BitVec.ofNat 64 o ∧
      t.hl.refCount = s.hl.refCount + 1 ∧ t.lg.live[c].errRefused = s.lg.live[c].errRefused + 1 ∧ t.pc = s.pc ∧ t.ct = s.ct)

/-- R18, R19, R61, R119: a host write that is not refused stands in staging, behind those before it, with its lines, the fences of its
context and the mode in effect at its registration, and is counted in OPS; the oldest staged request whose share has room moves
into the share. A refused write leaves no request, is recorded and is signalled as an Unsupported Request. -/
def Obligations.HostWritesAreRegistered : Prop :=
  (∀ s fn bar c o off data ro, reaches s .bar0 = true → s.hl.effCxl = false → targetOf s fn bar off = .media c o → data ≠ [] →
    o % 4096 + data.length ≤ 4096 → stagingFree s true = true → refusalOf s c true o data.length = none →
    Gives (.hostWrite fn bar off data false ro) s fun t =>
      (∃ r, t.gl.ingress = s.gl.ingress ++ [r] ∧ r.id = s.gl.nextReq ∧ r.fn = fn ∧ r.ctx = c ∧ r.write = true ∧ r.off = o ∧
        r.len = data.length ∧ r.parts = lineParts 65 o data ∧ r.fence = s.gl.fences[c] ∧ r.verified = servedVerified s c ∧
        r.unlimited = (s.judged c).unlimited ∧ r.quota = (s.judged c).quota ∧
        r.stage = .staging ∧ r.poison = false ∧ r.tag = none) ∧
      t.gl.nextReq = s.gl.nextReq + 1 ∧ t.lg.live[c].ops = s.lg.live[c].ops + 1 ∧ t.pc = s.pc ∧ t.md = s.md ∧ t.ct = s.ct ∧ t.out = []) ∧
  (∀ s fn bar c o off data ro code, reaches s .bar0 = true → s.hl.effCxl = false → targetOf s fn bar off = .media c o → data ≠ [] →
    o % 4096 + data.length ≤ 4096 → stagingFree s true = true → refusalOf s c true o data.length = some code →
    Gives (.hostWrite fn bar off data false ro) s fun t => t.gl.ingress = s.gl.ingress ∧ t.hl.refCode = code ∧
      t.hl.refWrite = true ∧ t.hl.refCount = s.hl.refCount + 1 ∧ t.pc = s.pc ∧ t.out = []) ∧
  (∀ s r, reaches s .bar0 = true → (∀ q ∈ s.gl.ingress, q.write = true) → (∀ f ∈ s.pc.flushes, f.stage = .staging → r.id < f.before) →
    s.gl.ingress.find? (fun r => decide (r.stage = .staging) && shareFree s r.ctx) = some r →
    Gives .ingressMove s fun t =>
      t.gl.ingress = update (fun q => q.id = r.id) (fun q => { q with stage := .share }) s.gl.ingress ∧ t.pc = s.pc ∧ t.tn = s.tn ∧ t.out = [])

/-- R23, R24, R29, R53, R85, R106, R107, R141: the one line of a posted write that comes to the admission point of a SOLO duet, with room under
the cap and the energy, within the budget and without a quota, takes a hold slot with its bytes, its context's tempo and the next
ASN, is charged its price, and the request retires. -/
def Obligations.LineAdmissionTakesASlot : Prop :=
  ∀ s r p, s.gl.ingress = [r] → r.write = true → r.kind = .media → r.parts = [p] → r.stage = .share → r.tag = none → r.verified = false →
    r.unverified = 0 → s.hl.effCxl = false → forcedVerified s = false → mediaBeats s = [] → MinuteOpen s → usual s = true → s.pc.drain = none → s.bt.scan = false → s.pw.entering = false →
    tagFree s .hwr r.ctx = true → (r.unlimited = true ∨ hasTokens s r.ctx r.lines = true) → s.duet.state = .soloA → (s.slot .a).serves = true →
    dirtyOf s (r.base + p.off) = none → dirty s + s.pc.relSlots.at s.now < capLines s → rsvdNj s + 256 ≤ s.pc.availNj →
    spentOf (s.slot .a) + (writeTempo s r.ctx).price ≤ (s.slot .a).budget → r.quota = 0xFFFFFFFF →
    Gives (.lineAdmission r.id) s fun t =>
      (∃ h, t.pc.slots = s.pc.slots ++ [h] ∧ h.ctx = r.ctx ∧ h.off = p.off ∧ h.media = r.base + p.off ∧ h.data = mergeLine 0 p.data p.mask ∧
        h.mask = p.mask ∧ h.tempo = writeTempo s r.ctx ∧ h.asn = s.pc.asn + 1 ∧ h.verified = false ∧ h.issued = false ∧
        h.poison = r.poison ∧ h.left = [(.a, r.base + p.off)]) ∧
      t.pc.asn = s.pc.asn + 1 ∧ t.gl.ingress = [] ∧ (t.tenant r.ctx).lastAsn = s.pc.asn + 1 ∧
      (t.tenant r.ctx).used = (s.tenant r.ctx).used + (writeTempo s r.ctx).price ∧
      (t.slot .a).uncharged = (s.slot .a).uncharged + (writeTempo s r.ctx).price ∧ t.slot .b = s.slot .b ∧ t.md = s.md

/-- R22, R23, R232 (Table 1.14): with every covered write durable, a zero-length read of a function completes, and a read of PC_FLUSH
by the PF, in a tenant's window or over SP0 completes with DONE = 1 and the ASN reached; a waiting flush completes when its writes
are durable; 40 ms after its registration it completes all the same: a zero-length read with FLUSH_LATE, and a flush read with DONE = 0,
where a covered write is not durable.
That a flush which is due completes within a command is the model's choice (logs 105, 108). -/
def Obligations.FlushesComplete : Prop :=
  (∀ s fn, reaches s .bar0 = true → memOn s fn = true → NothingWaits s → stagingFree s false = true → shareFree s fn.ctx = true →
    tagFree s .hrd fn.ctx = true → LinkOpen s → Gives (.zeroLengthRead fn) s fun t =>
    t.out = [.completion fn .sc false []] ∧ t.pc.flushes = [] ∧ t.pc.asn = s.pc.asn ∧ t.lg.live[fn.ctx].ops = s.lg.live[fn.ctx].ops + 1) ∧
  (∀ s, reaches s .bar0 = true → memOn s .pf = true → NothingWaits s → stagingFree s false = true → shareFree s provider = true →
    tagFree s .hrd provider = true → LinkOpen s → Gives (.pcFlushRead .all) s fun t =>
    .flushDone s.pc.nextFlush true (BitVec.ofNat 31 s.pc.asn) ∈ t.out ∧ t.pc.flushes = [] ∧
    .completion .pf .sc false (leBytes 4 (1 + 2 * (s.pc.asn % 2 ^ 31))) ∈ t.out) ∧
  (∀ s (n : Fin 128), reaches s .bar0 = true → memOn s .pf = true → NothingWaits s → vfOn s n = false →
    stagingFree s false = true → shareFree s (ofTenant n) = true → tagFree s .hrd (ofTenant n) = true → LinkOpen s →
    Gives (.pcFlushRead (.tenant n)) s fun t => .flushDone s.pc.nextFlush true (BitVec.ofNat 31 s.pc.asn) ∈ t.out ∧ t.pc.flushes = []) ∧
  (∀ s f fn, s.pc.flushes = [f] → f.zero = some fn → f.waits = [] → f.stage = .tagged → f.tag.isSome = true →
    f.lost = none → s.gl.ingress = [] → s.pc.slots = [] → LinkOpen s → Gives (.flushCompletion f.id) s fun t => t.pc.flushes = [] ∧ t.out = [.completion fn .sc false []] ∧ t.md = s.md ∧ t.tn = s.tn) ∧
  (∀ s f fn, s.pc.flushes = [f] → f.zero = some fn → f.cycle + 40000000 ≤ s.now → LinkOpen s →
    Gives (.flushTimeout f.id) s fun t => t.pc.flushes = [] ∧ t.out = [.completion fn .sc false []] ∧ t.pc.slots = s.pc.slots ∧
      (flushDurable s f = true → t.ev = s.ev) ∧
      (flushDurable s f = false → s.ev.logOpen = true → ∃ e ∈ t.ev.intake, e.code = cFLUSH_LATE ∧ e.unit = uPC)) ∧
  (∀ s f, s.pc.flushes = [f] → f.zero = none → f.read = none → f.cycle + 40000000 ≤ s.now →
    Gives (.flushTimeout f.id) s fun t => t.pc.flushes = [] ∧ t.out = [.flushDone f.id (flushDurable s f) (BitVec.ofNat 31 (durableAsn s f))]) ∧
  (∀ s f, s.pc.flushes = [f] → s.now < f.cycle + 40000000 → exec (.flushTimeout f.id) s = .next { s with out := [] })

/-- R58, R57: GL_FENCE orders the later writes of every context behind its earlier ones, a tenant window's fence those of its tenant
alone, with no completion; a write behind a fence is not admitted while an earlier write of its context has lines not admitted. -/
def Obligations.FencesOrderContexts : Prop :=
  (∀ s, MayWrite .bar0 0x0050 s → Gives (.fence .all) s fun t => (∀ c : Ctx, t.gl.fences[c] = s.gl.fences[c] + 1) ∧
    t = { s with out := [], gl := { s.gl with fences := t.gl.fences } }) ∧
  (∀ s, MayWrite .sp0 0x0050 s → Gives (.fence .serial) s fun t => (∀ c : Ctx, t.gl.fences[c] = s.gl.fences[c] + 1) ∧
    t = { s with out := [], gl := { s.gl with fences := t.gl.fences } }) ∧
  (∀ s be v, MayWrite .bar0 0x0050 s → exec (.registerWrite .bar0 0x0050 be v) s = exec (.fence .all) s) ∧
  (∀ s (n : Fin 128), Serves s → Gives (.fence (.tenant n)) s fun t =>
    (∀ c : Ctx, t.gl.fences[c] = s.gl.fences[c] + (if c.val = n.val then 1 else 0)) ∧
    t = { s with out := [], gl := { s.gl with fences := t.gl.fences } }) ∧
  (∀ s q r, s.gl.ingress = [q, r] → q.id < r.id → q.write = true → r.write = true → q.kind = .media → q.parts ≠ [] → q.ctx = r.ctx →
    q.fence < r.fence → Gives (.lineAdmission r.id) s fun t => t.pc = s.pc ∧ t.tn = s.tn ∧ t.gl.ingress = s.gl.ingress ∧ t.out = [])

/-- R226, R227, R241 (Tables 8.1, 8.2): configuration requests are answered with CRS in BOOT and REPLAY and afterwards with the
values of the tables; I/O, AtomicOp and prefixed requests complete as Unsupported Requests, which the function signals; a
vendor-defined message changes nothing. -/
def Obligations.ConfigurationAndOddRequests : Prop :=
  (∀ s fn r, s.pw.state = .boot ∨ s.pw.state = .replay → s.pc.drain = none → s.bt.scan = false → LinkOpen s →
    Gives (.configRequest fn r) s (Arbitrated { s with out := [.completion fn .crs false []] })) ∧
  (∀ s, Serves s → LinkOpen s → Gives (.configRequest .pf .ident) s
    (Arbitrated { s with out := [.completion .pf .sc false [0xB7, 0x1E, 0x08, 0x72]] })) ∧
  (∀ s v, Serves s → vfOn s v = true → LinkOpen s → Gives (.configRequest (.vf v) .ident) s
    (Arbitrated { s with out := [.completion (.vf v) .sc false [0xB7, 0x1E, 0x09, 0x72]] })) ∧
  (∀ s, Serves s → LinkOpen s → Gives (.configRequest .pf .classCode) s
    (Arbitrated { s with out := [.completion .pf .sc false (if s.hl.effCxl then [0x10, 0x02, 0x05] else [0x00, 0x80, 0x05])] })) ∧
  (∀ s d, Serves s → LinkOpen s → Gives (.configRequest .pf (.power d)) s
    (Arbitrated { s with out := [.completion .pf .sc false []], hl := { s.hl with d3hot := d } })) ∧
  (∀ s a b rel (c : BitVec 4), Serves s → LinkOpen s → Gives (.configRequest .pf (.device a b rel c)) s
    (Arbitrated { s with out := [.completion .pf .sc false []],
                         hl := { s.hl with mps := a, mrrs := b, relaxed := rel, timeoutCode := c } })) ∧
  (∀ s fn k, Serves s → s.gl.ingress = [] → stagingFree s false = true → shareFree s fn.ctx = true → tagFree s .hrd fn.ctx = true →
    LinkOpen s → Gives (.unsupportedRequest fn k) s fun t =>
    t.out = [.completion fn .ur false []] ∧ t.gl.ingress = [] ∧ t.pc = s.pc ∧
    (match fn with
      | .pf => t.hl.pfAer.unsupported = true
      | .vf v => t.hl.vfAer[v].unsupported = true)) ∧
  (∀ s, exec .vendorDefinedMessage s = .next { s with out := [] })

/-- R228, R240 (Table 8.8): a Hot Reset and a PF FLR discard every request and flush not admitted, stop DMA without a coda, clear VF
Enable, and leave the hold slots, the media, the contexts' partitions and the keep store; only the Hot Reset takes the link down,
and only the PF FLR lapses a change the host proposed. A VF FLR resets one VF and discards its tenant's requests; VF Enable exposes
the VFs that the request names.
That a reserved copy channel fetches again is the model's choice (log 25). -/
def Obligations.HostResets : Prop :=
  (∀ s, Running s → Gives .hotReset s fun t => t.hl.dlUp = false ∧ t.hl.vfEnable = false ∧ t.hl.hotCount = s.hl.hotCount + 1 ∧
    t.pc.flushes = [] ∧ (∀ r ∈ t.gl.ingress, r.parts = [] ∧ r.write = true) ∧
    (∀ n : Fin 32, t.dm.ch[n].beats = [] ∧ t.dm.ch[n].state = (if s.dm.ch[n].copy then .fetch else .idle)) ∧
    t.pc.slots = s.pc.slots ∧ t.ks.mem = s.ks.mem ∧ t.cs = s.cs ∧ t.pw = s.pw) ∧
  (∀ s, Running s → Gives .pfFlr s fun t => t.hl.dlUp = s.hl.dlUp ∧ t.hl.vfEnable = false ∧
    t.hl.pfFlrCount = s.hl.pfFlrCount + 1 ∧ t.pc.flushes = [] ∧ t.pc.slots = s.pc.slots ∧
    (s.cs.state = .opened → s.cs.mgmt = false → t.cs.state = .idle) ∧ (s.cs.mgmt = true → t.cs = s.cs)) ∧
  (∀ s v, Running s → vfOn s v = true → Gives (.vfFlr v) s fun t => t.hl.vfVec[v] = {} ∧ t.hl.msixVf[v] = false ∧
    t.hl.vfFlrCount = s.hl.vfFlrCount + 1 ∧ (∀ r ∈ t.gl.ingress, r.fn = .vf v → r.parts = []) ∧ t.dm = s.dm ∧ t.cs = s.cs ∧
    t.pc.slots = s.pc.slots ∧ t.hl.vfEnable = s.hl.vfEnable) ∧
  (∀ s n ari, Serves s → s.hl.vfEnable = false → n.toNat ≤ 128 → (ari = true ∨ n.toNat ≤ 7) →
    Gives (.vfEnable true n ari) s fun t => t = { s with
      out := [], gl := { s.gl with holPosted := t.gl.holPosted, holNonPosted := t.gl.holNonPosted }
      hl := { s.hl with numVfs := n.toNat, ari := ari, vfEnable := true, pfVec := t.hl.pfVec } } ∧
      ∀ i : Fin 192, t.hl.pfVec[i] = { s.hl.pfVec[i] with pending := s.hl.pfVec[i].pending && !neverSignalled t .pf i }) ∧
  (∀ s (n : BitVec 16), Serves s → s.hl.vfEnable = false → 7 < n.toNat → n.toNat ≤ 128 → Gives (.vfEnable true n false) s fun t =>
    t.hl.vfEnable = false ∧ t.hl.numVfs = n.toNat ∧ t.pc = s.pc)

/-- R220, R218, R64, R62, R350 (Tables 2.9, 8.8): the link that finishes training is up at its speed and width, in CXL mode only in the CXL
personality with Flex Bus at 32 GT/s; each of the three stalls sets its bit of GL_STALL once its time is over; while the host returns no
credits of a kind egress holds what takes them, and with the credits it goes out. -/
def Obligations.LinkUpAndStalls : Prop :=
  (∀ s (sp w : Fin 9) flex, Running s → s.ks.scanned = true → 1 ≤ sp.val → sp.val ≤ 5 → (w = 1 ∨ w = 2 ∨ w = 4 ∨ w = 8) →
    Gives (.hostLinkUp sp w flex) s fun t => t.hl.dlUp = true ∧ t.hl.speed = BitVec.ofNat 4 sp.val ∧
      t.hl.width = BitVec.ofNat 4 w.val ∧ t.hl.cxlMode = (s.hl.effCxl && flex && decide (sp = 5)) ∧ t.gl = s.gl ∧ t.pc = s.pc) ∧
  (∀ s k, s.pw.state.clocked = true → hasCredit s k = true → Gives (.hlCreditStall k 0) s fun t =>
    t = { s with out := [], hl := { s.hl with noCredit := s.hl.noCredit.set (creditNum k) (some (s.now, false)) } }) ∧
  (∀ s k c, s.pw.state.clocked = true → s.hl.noCredit[creditNum k] = some (c, false) → c + ms ≤ s.now → s.ev.logOpen = true →
    Gives (.hlCreditStall k 0) s fun t => t.gl = { s.gl with stall := { s.gl.stall with hostCredit := true } } ∧
      (∃ e ∈ t.ev.intake, e.code = cHL_CREDIT_STALL ∧ e.unit = uGL) ∧ t.egress = s.egress ∧ t.pc = s.pc) ∧
  (∀ s k n o g, s.pw.state.clocked = true → n ≠ 0 → s.egress = [(o, g)] → o.credit = some k →
    Gives (.hlCreditStall k n) s fun t => t.out = [o] ∧ t.egress = [] ∧ hasCredit t k = true ∧ t.pc = s.pc ∧
      ∀ id, g = some id → ∀ tag ∈ t.gl.tags, tag.id ≠ id) ∧
  (∀ s d, Serves s → hasCredit s .completion = false → Gives (.configRequest .pf (.power d)) s fun t =>
    t.out = [] ∧ t.egress = s.egress ++ [(.completion .pf .sc false [], none)] ∧ t.hl.d3hot = d) ∧
  (∀ s (i : Fin 192), s.pw.state.clocked = true → s.hl.pfVec[i].pending = true → s.hl.pfVec[i].reported = false →
    s.hl.pfVec[i].pendSince + sec ≤ s.now → Gives (.hostServiceStall .pf i) s fun t =>
      t.gl.stall = { s.gl.stall with hostService := true } ∧ t.hl.pfVec[i].reported = true ∧ t.pc = s.pc) ∧
  (∀ s c, s.gl.holPosted = some (c, false) → blocked s true = true → c + 10000 ≤ s.now → Gives (.holStall .posted) s fun t =>
    t.gl.stall = { s.gl.stall with hol := true } ∧ t.gl.holPosted = some (c, true) ∧ t.gl.ingress = s.gl.ingress) ∧
  (∀ s c, s.gl.holNonPosted = some (c, false) → blocked s false = true → c + 10000 ≤ s.now → Gives (.holStall .nonPosted) s fun t =>
    t.gl.stall = { s.gl.stall with hol := true } ∧ t.gl.holNonPosted = some (c, true) ∧ t.gl.ingress = s.gl.ingress)

/-- R242 (Table 8.9): in the CXL personality, after REPLAY, the mailbox answers each of its eight commands with return code 0 and any
other with Unsupported; Set Shutdown State is stored and reported back; Clear Event Records removes the oldest records of its log; GPF
Phase 1 is answered at once, and Phase 2 is answered and counted.
The order of the responses' words, and that Clear Event Records clears the overflow flag, are the model's choice (log 112). -/
def Obligations.CxlMailboxAnswers : Prop :=
  ∀ s, Serves s → s.hl.effCxl = true →
    exec .identifyMemoryDevice s = .next { s with out := [.mailbox 0 [448, 448, 0, 0, 0, 0, 0]] } ∧
    exec .getPartitionInfo s = .next { s with out := [.mailbox 0 [448, 0]] } ∧
    Gives .getHealthInfo s (fun t => (∃ a b, t.out = [.mailbox 0 [s.pc.dirtyCount.toNat, a, b]] ∧ a ≤ 100) ∧ t = { s with out := t.out }) ∧
    (∀ v, Gives (.setShutdownState v) s fun t => t.hl.shutdown = v ∧ t.out = [.mailbox 0 [v.toNat]] ∧ t.gl = s.gl ∧ t.pc = s.pc) ∧
    (∀ l, Gives (.getEventRecords l) s fun t => t = { s with out := t.out } ∧ ∃ rest, t.out =
      [.mailbox 0 ((if s.hl.mboxOver[l] then 1 else 0) :: (s.hl.mbox[l]).length :: rest)]) ∧
    (∀ l n, Gives (.clearEventRecords l n) s fun t => t.hl.mbox[l] = (s.hl.mbox[l]).drop n ∧ t.hl.mboxOver[l] = false ∧
      t.out = [.mailbox 0 []] ∧ t = { s with out := t.out, hl := { s.hl with mbox := t.hl.mbox, mboxOver := t.hl.mboxOver } }) ∧
    exec .getSupportedLogs s = .next { s with out := [.mailbox 0 [1]] } ∧
    Gives .getLog s (fun t => (∃ w, t.out = [.mailbox 0 w] ∧ w.length = 8) ∧ t = { s with out := t.out }) ∧
    (∀ op, exec (.mailboxUnsupported op) s = .next { s with out := [.mailbox 1 []] }) ∧
    exec .gpfPhase1 s = .next { s with out := [.gpf 1] } ∧
    exec .gpfPhase2 s = .next { s with out := [.gpf 2], hl := { s.hl with gpf := s.hl.gpf + 1 } }

/-! ### Hold buffer and media -/

/-- R25, R105, R119: the oldest slot that can be written back, all of its bytes held and one home open, is issued: a line-write to that
home, of the slot's data under its context's key at the slot's tempo, with no pulse yet; the slot stays dirty until the verify.
That the command's clock runs to its arbiters' grants is the model's choice (log 121). -/
def Obligations.WriteBackIssuesALineWrite : Prop :=
  (∀ s h x cl e, writesRun s = true → Still s → s.pc.slots.find? (fun h => canIssue s h) = some h → issuable s h = [(x, cl)] → h.mask = fullMask →
    h.first = x → Gives (.writeBack e) s fun t =>
      (∃ w, t.md.writes = s.md.writes ++ [w] ∧ w.slot = x ∧ w.cline = cl ∧ w.kind = .hold h.id ∧ w.tempo = h.tempo ∧ w.used = 0 ∧
        w.fired = false ∧ w.line.data = h.data ∧ w.line.keyCtx = h.ctx.val ∧ w.line.keyGen = (s.tenant h.ctx).keyNo ∧
        w.line.tweak = h.off ∧ w.line.poison = h.poison) ∧
      t.pc.slots = update (fun g => g.id = h.id) (fun g => { g with issued := true }) s.pc.slots ∧ t.pc.asn = s.pc.asn ∧ t.tn = s.tn ∧
      t.lg = s.lg) ∧
  (∀ s e, writesRun s = true → s.pc.slots = [] → exec (.writeBack e) s = .next { s with out := [] })

/-- R109: a pulse is counted, at most 8 and none on an inhibited slot; a try whose sense differs goes on while pulses are left; a try
that passes stores the line and frees the slot that has no other home left. -/
def Obligations.TriesPulseVerifyAndPass : Prop :=
  (∀ s x b w, writeOn s x b = some w → w.fired = false → w.held = false → inhibited s x = false → w.used < 8 → writesRun s = true →
    exec (.lineWrite x b) s = .next (modWrite x b (fun w => { w with fired := true, used := w.used + 1 }) { s with out := [] })) ∧
  (∀ s x b w, writeOn s x b = some w → 8 ≤ w.used → exec (.lineWrite x b) s = .next { s with out := [] }) ∧
  (∀ s x b w n p q, writeOn s x b = some w → w.fired = true → inhibited s x = false → writesRun s = true → 0 < n → w.used < 8 →
    s.pc.slots ≠ [] → exec (.trySenseResult x b n p q) s =
      .next (modWrite x b (fun w => { w with fired := false, held := false }) { s with out := [] })) ∧
  (∀ s x b w h c p q, writeOn s x b = some w → w.fired = true → inhibited s x = false → writesRun s = true → w.kind = .hold h.id →
    w.second = false → w.poisonMerge = false → s.md.injArmed = false → s.pc.slots = [h] → h.left = [(x, w.cline)] → h.reqs = [] →
    s.duet.state ≠ .mirrorDegraded → (s.slot x).cart = some c → w.cline < userLines c.big →
    Gives (.trySenseResult x b 0 p q) s fun t => lineOn t x w.cline = w.line ∧ (∀ n, n ≠ w.cline → lineOn t x n = lineOn s x n) ∧
      t.pc.slots = [] ∧ t.pc.writebackAll = false ∧ writeOn t x b = none ∧ t.tn = s.tn ∧ t.lg = s.lg)

/-- R110, R112: a line-write that fails all its tries and its relocation is quarantined under its context, its line is poisoned, its slot
is freed, and the context's ERR_HARD counts it. Here the spare's write fails, and the writes of the quarantine entry and of the
poison pass.
That these writes are made in the command is the model's choice (log 34). -/
def Obligations.FailedWritesAreQuarantined : Prop :=
  ∀ s x b w h c n, writeOn s x b = some w → w.fired = true → inhibited s x = false → writesRun s = true → w.kind = .hold h.id →
    w.used = 8 → 0 < n → w.second = false → s.pc.slots = [h] → h.left = [(x, w.cline)] → h.reqs = [] → h.chans = [] →
    (s.slot x).cart = some c → sparesUsed c b.val < 256 → s.md.injArmed = false →
    Gives (.trySenseResult x b n none []) s fun t =>
      (∃ c', (t.slot x).cart = some c' ∧ c'.quarantine = c.quarantine ++ [⟨h.ctx, w.cline, w.line⟩] ∧
        (lineAt c' w.cline).poison = true ∧ ∀ m, m ≠ w.cline → lineAt c' m = lineAt c m) ∧
      t.pc.slots = [] ∧ writeOn t x b = none ∧ t.lg.live[h.ctx].errHard = s.lg.live[h.ctx].errHard + 1 ∧
      t.md.tFailed = s.md.tFailed + 2 ∧ t.ks = s.ks ∧ t.gl.ingress = s.gl.ingress

/-- R117: a correction rewrite stores the line again at lento without its wrong bits, and a poison rewrite marks it poisoned; the wear is
the provider's. -/
def Obligations.RewritesRepairOrPoison : Prop :=
  (∀ s r e n k w, nextRewrite s false = some r → tagFree s .wbk provider = true → s.md.injArmed = false → 0 < n → s.md.rewrite ≤ n →
    readLineCells (lineOn s r.slot r.cline) e = .good n 0 → Gives (.correctionRewrite e (some k :: w)) s fun t =>
      lineOn t r.slot r.cline = { lineOn s r.slot r.cline with err := 0 } ∧
      t.md.rewrites = s.md.rewrites.erase r ∧ t.lg.live[provider].wear = s.lg.live[provider].wear + 1 ∧ t.pc = s.pc ∧ t.tn = s.tn) ∧
  (∀ s r e code k w, nextRewrite s true = some r → tagFree s .wbk provider = true → s.md.injArmed = false →
    readLineCells (lineOn s r.slot r.cline) e = .bad code → Gives (.poisonRewrite e (some k :: w)) s fun t =>
      (lineOn t r.slot r.cline).poison = true ∧ (∀ m, m ≠ r.cline → lineOn t r.slot m = lineOn s r.slot m) ∧
      t.md.rewrites = s.md.rewrites.erase r ∧ t.lg.live[provider].wear = s.lg.live[provider].wear + 1 ∧ t.pc = s.pc)

/-- R121, R122, R125: a gap move of a bank whose count has reached PERIOD, with the line it copies read good, moves GAP down by one, or from 0
to the top with START one further, and no line's data change; one whose copy and its relocation fail leaves START, GAP and every line, and
logs PWF for the engine; scrub reads the next line of the pass, of the gap regions and of the recorded spares, and moves on, and writes nothing.
That a move and its writes are one command, and what a scrub finds in a line that serves no address, are the model's choices (logs 34, 68). -/
def Obligations.GapMovesAndScrub : Prop :=
  (∀ s x (b : Fin 128) e c k j w, (s.slot x).cart = some c → s.md.wlPeriod ≤ s.md.gapCount[bankNo x b] → takesWrite s x b.val = true →
    tagFree s .wbk provider = true → s.md.injArmed = false →
    (∀ cl, logicalLine c b.val (nextLevel c b.val).2.1 = some cl → ∃ n, readLineCells (lineAt c cl) e = .good n 0) →
    Gives (.gapMove x b e (some k) (some j) w) s fun t => ∃ c', (t.slot x).cart = some c' ∧
      bankLevel c' b.val = (if (bankLevel c b.val).2 = 0 then (((bankLevel c b.val).1 + 1) % bankLines c.big, bankLines c.big)
        else ((bankLevel c b.val).1, (bankLevel c b.val).2 - 1)) ∧
      (∀ n, (lineAt c' n).data = (lineAt c n).data) ∧ (∀ k, k ≠ b.val → bankLevel c' k = bankLevel c k) ∧ t.pc = s.pc ∧ t.tn = s.tn) ∧
  (∀ s x (b : Fin 128) e c w, (s.slot x).cart = some c → s.md.wlPeriod ≤ s.md.gapCount[bankNo x b] → takesWrite s x b.val = true →
    tagFree s .wbk provider = true → (logicalLine c b.val (nextLevel c b.val).2.1).isSome = true → s.ev.logOpen = true →
    Gives (.gapMove x b e none none w) s fun t => ∃ c', (t.slot x).cart = some c' ∧
      c'.levels = c.levels ∧ c'.lines = c.lines ∧ c'.quarantine = c.quarantine ∧
      (∃ v ∈ t.ev.intake, v.code = cPWF ∧ v.unit = uMD ∧ v.ctx = 0xFF) ∧
      t.md.gapCount[bankNo x b] = s.md.gapCount[bankNo x b] - s.md.wlPeriod ∧ t.pc = s.pc ∧ t.tn = s.tn) ∧
  (∀ s x e c, (s.slot x).cart = some c → (s.slot x).serves = true → scrubRuns s = true → linkReady s x = true →
    (s.slot x).expoLine = none → bankHeld s x (bankOf (sweepAt c 128 0 (scrubPos s x)).1) = false → scrubPos s x + 1 < sweepTotal c →
    Gives (.scrub x e) s fun t => scrubPos t x = scrubPos s x + 1 ∧ scrubPos t x.other = scrubPos s x.other ∧
      t.md.scrubActive = true ∧ (t.slot x).cart = some c ∧ t.pc = s.pc ∧ t.tn = s.tn ∧ t.md.writes = s.md.writes) ∧
  (∀ s x e c, (s.slot x).cart = some c → (s.slot x).serves = true → scrubRuns s = true → linkReady s x = true →
    (s.slot x).expoLine = none → bankHeld s x (bankOf (sweepAt c 128 0 (scrubPos s x)).1) = false → sweepTotal c ≤ scrubPos s x + 1 →
    Gives (.scrub x e) s fun t => scrubPos t x = 0 ∧ t.md.passes = s.md.passes + 1 ∧ t.md.progress = 0)

/-- R127 to R130, R64 (Table 2.9): FLDINH_N's fall registers the slot's inhibit and puts its line-writes on the re-verify list; its rise
clears it and keeps its length; an inhibit of 50 ms puts an ACTIVE or QUIET engine in FIELD_HOLD, the last clear takes it out; while it
lasts FIELD repeats every 60 s and GL_STALL.FIELD_PERSIST stands. -/
def Obligations.FieldInhibitsAndHolds : Prop :=
  (∀ s x, (s.slot x).cart.isSome = true → s.pw.state.clocked = true → inhibitedAt s x = none → Gives (.writeInhibit x) s fun t =>
    inhibitedAt t x = some s.now ∧ inhibitedAt t x.other = inhibitedAt s x.other ∧ (t.slot x).fldLow = true ∧
    t.md.writes = s.md.writes.map (fun w => if w.slot = x then { w with held := true, fired := false } else w) ∧
    t.pc = s.pc ∧ t.pw = s.pw ∧ t.ev = s.ev ∧ t.gl = s.gl) ∧
  (∀ s x n p, inhibitedAt s x = some n → s.duet.bindDue = none → Gives (.inhibitClear x p) s fun t =>
    inhibitedAt t x = none ∧ inhibitedAt t x.other = inhibitedAt s x.other ∧ (t.slot x).fldLow = false ∧ t.md.writes = s.md.writes ∧
    (s.pw.state = .fieldHold → (s.slot x.other).serves = false →
      t.pw.state = (if s.pw.quietEn then .quiet else .active)) ∧ t.pc = s.pc ∧ t.ks = s.ks) ∧
  (∀ s x n, usual s = true → s.pc.drain = none → (s.slot x).serves = true → inhibitedAt s x = some n → n + 50 * ms ≤ s.now →
    Gives .fieldHoldEntry s fun t => t.pw.state = .fieldHold ∧ t.pw.armed = none ∧ t.md.lastField = s.now ∧ t.pc = s.pc) ∧
  (∀ s, s.pw.state = .fieldHold → s.md.lastField + 60 * sec ≤ s.now → Gives .fieldRepeat s fun t =>
    t.gl.stall = { s.gl.stall with fieldPersist := true } ∧ t.md = { s.md with lastField := s.now } ∧ t.pw = s.pw ∧ t.pc = s.pc)

/-- R30: the live energy follows the measured VHOLD by the arithmetic of R27, LIVE_STEPS is what it pays for within SIZED_STEPS, and
DEGRADED shows that it is less; HOLD_DEGRADED is raised where that begins. -/
def Obligations.LiveEnergyFollowsVhold : Prop :=
  ∀ s (v : BitVec 16), s.pw.state.clocked = true → (2 : Fin 16) ∉ s.bt.running → s.pc.measured = true →
    Gives (.energyRecompute v) s fun t =>
      t.pc.availNj = 45 * s.pc.capUf * ((v.toNat * 1000) * (v.toNat * 1000) - (550000 + 291 * s.pc.esrMohm) * (550000 + 291 * s.pc.esrMohm))
        / 1000000000 ∧
      t.pc.live = min (min 32 ((t.pc.availNj - 6350000) / 1048576)) s.pc.sized ∧ (t.pc.degraded = true ↔ t.pc.live < s.pc.sized) ∧
      t.pc.sized = s.pc.sized ∧ t.pc.slots = s.pc.slots ∧ t.md = s.md ∧ t.gl = s.gl ∧
      (s.pc.degraded = true → t.ev = s.ev ∧ t.hl = s.hl)

/-- R45, R125, R133, R293 (Tables 1.17, 4.13, 4.22): the commands of PC_CTRL, MD_CTRL and MD_INJECT set what they name and nothing else. -/
def Obligations.HoldAndMediaCommands : Prop :=
  (∀ ch s v, MayWrite ch 0x043C s → usualField s = true → bit v 1 = false → bit v 2 = false → exec (.writebackAll ch v) s =
    .next { s with out := [], pc := { s.pc with writebackAll := true } }) ∧
  (∀ ch s v, MayWrite ch 0x043C s → usual s = true → bit v 0 = false → bit v 2 = false → exec (.remeasure ch v) s =
    .next { s with out := [], pc := { s.pc with remeasure := true } }) ∧
  (∀ ch s v, MayWrite ch 0x0804 s → bit v 0 = false → exec (.scrubPause ch v) s =
    .next { s with out := [], md := { s.md with scrubPause := bit v 1 } }) ∧
  (∀ ch s v x, MayWrite ch 0x0804 s → usual s = true → serving s = [x] → Gives (.scrubNow ch v) s fun t =>
    scrubPos t x = 0 ∧ t.md.scrubActive = true ∧ t.md.scrubPause = bit v 1 ∧ t = { s with out := [], md := t.md }) ∧
  (∀ ch s v, MayWrite ch 0x0840 s → usual s = true → fld v 0 4 ≤ 12 → exec (.injectionArm ch v) s =
    .next { s with out := [], md := { s.md with
      injCount := BitVec.ofNat 4 (fld v 0 4), injStored := bit v 7, injArmed := true } })

/-! ### Cartridges, their supervisors and the duet -/

/-- R90, R73, R79, R80 (Table 3.6): a cartridge that closes presence of an EMPTY slot is debounced for 10 ms, then seated, powered and
logged; 50 ms after its presence its supervisor is ready and authentication starts; 40 ms later a slot that has not passed becomes
AUTH_FAILED.
What a new cartridge and one from outside the slots hold is the model's choice (log 6). -/
def Obligations.InsertionReachesAuthentication : Prop :=
  (∀ s x serial big, (s.slot x).cart = none → (s.slot x).state = .empty → Gives (.prsntNFall x (.made serial big)) s fun t =>
    (t.slot x).state = .debounce ∧ (t.slot x).fallAt = s.now ∧ (t.slot x).cart = some { serial := serial, big := big } ∧
    t.slot x.other = s.slot x.other ∧ t.shelf = s.shelf ∧ t.ev = s.ev) ∧
  (∀ s x i c, (s.slot x).cart = none → (s.slot x).state = .empty → s.shelf[i]? = some c → Gives (.prsntNFall x (.shelf i)) s fun t =>
    (t.slot x).state = .debounce ∧ (∃ c', (t.slot x).cart = some c' ∧ c'.serial = c.serial ∧ c'.lines = c.lines ∧
      c'.sv.unpowered = c.sv.unpowered + 1) ∧ t.shelf = s.shelf.eraseIdx i) ∧
  (∀ s x, (s.slot x).state = .debounce → (s.slot x).fallAt + 10000000 ≤ s.now → s.pw.state.clocked = true → s.ev.logOpen = true →
    Gives (.debounceEnd x) s fun t => (t.slot x).state = .powering ∧ (t.slot x).present = true ∧ (t.slot x).pwren = true ∧
      (t.slot x).cart = (s.slot x).cart ∧ (∃ e ∈ t.ev.intake, e.code = cCART_SEATED ∧ e.unit = uCT x) ∧ t.slot x.other = s.slot x.other) ∧
  (∀ s x, (s.slot x).state = .debounce → s.now < (s.slot x).fallAt + 10000000 →
    exec (.debounceEnd x) s = .next { s with out := [] }) ∧
  (∀ s x, (s.slot x).state = .powering → (s.slot x).fallAt + 50000000 ≤ s.now → (s.slot x).powerAt = none → (s.slot x).pwren = true →
    s.pw.state.clocked = true → Gives (.supervisorReady x) s fun t => (t.slot x).state = .auth ∧ (t.slot x).svReady = true ∧
      (t.slot x).authStart = s.now ∧ (t.slot x).authTries = 0 ∧ (0x0B : BitVec 7) ∈ (t.slot x).svDue ∧ t.slot x.other = s.slot x.other ∧ t.ev = s.ev) ∧
  (∀ s x, (s.slot x).state = .auth → (s.slot x).authStart + 40000000 ≤ s.now → s.ev.logOpen = true → Gives (.authTimeout x) s fun t =>
    (t.slot x).state = .authFailed ∧ (t.slot x).link = .down ∧ (t.slot x).outstanding = none ∧
    (∃ e ∈ t.ev.intake, e.code = cCART_AUTH_FAIL ∧ e.unit = uCT x) ∧ (t.slot x).cart = (s.slot x).cart)

/-- R69, R71, R70, R81 (Tables 3.2, 3.6): a powered link trains to width 8, or to 4 as degraded, and otherwise the slot fails; a header
of the bound engine and serial, or a tag one generation ahead of the record, makes the cartridge BOUND and takes it into service where
the record names it; any other is SPARE, FOREIGN where it has a header. -/
def Obligations.TrainingAndClassing : Prop :=
  (∀ s x (w : Fin 9), (s.slot x).state = .training → (s.slot x).link = .train → loopBackFirst s x = false → (w = 8 ∨ w = 4) →
    s.pw.state = .active → Gives (.linkTraining x true w) s fun t => (t.slot x).link = .active ∧ (t.slot x).width = BitVec.ofNat 4 w.val ∧
      (t.slot x).linkDegraded = decide (w = 4) ∧ (t.slot x).state = .training ∧ t.slot x.other = s.slot x.other ∧
      t.hl.pfAer.corrInternal = (s.hl.pfAer.corrInternal || decide (w = 4))) ∧
  (∀ s x (w : Fin 9), (s.slot x).state = .training → (s.slot x).link = .train → loopBackFirst s x = false → s.duet.format = none →
    s.pw.state = .active → Gives (.linkTraining x false w) s fun t => (t.slot x).state = .failed ∧ (t.slot x).pwren = false ∧
      (t.slot x).link = .down ∧ t.duet = s.duet) ∧
  (∀ s x c, (s.slot x).state = .training → (s.slot x).cart = some c → linkUp (s.slot x) = true → c.saved = [] → c.header = true →
    c.tagEngine = engineId → c.tagGen = s.duet.gen → recordSlot s.duet (s.slot x).serial = some x → s.duet.names x = true → stale s x = false →
    s.pw.state = .active → (s.slot x).eolWarn = true → Gives (.headerClassify x) s fun t => (t.slot x).state = .inService ∧ (t.slot x).bound = true ∧
      (t.slot x).foreign = false ∧ (t.slot x).insTests = [4, 7, 8, 9] ∧ (t.slot x).tested = false ∧
      t.duet = { s.duet with mibA := t.duet.mibA, mibB := t.duet.mibB } ∧ t.ks = s.ks) ∧
  (∀ s x c, (s.slot x).state = .training → (s.slot x).cart = some c → linkUp (s.slot x) = true → c.saved = [] →
    (c.tagGen ≠ s.duet.gen ∧ c.tagGen ≠ (s.duet.gen + 1) % 2 ^ 32 ∨ c.header = false ∨ c.tagEngine ≠ engineId ∨ recordSlot s.duet (s.slot x).serial = none) →
    (s.slot x).eolWarn = true → Gives (.headerClassify x) s fun t => (t.slot x).state = .spare ∧ (t.slot x).bound = false ∧
      (t.slot x).foreign = c.header ∧ t.duet = s.duet ∧ t.ks = s.ks)

/-- R91, R92, R79, R262 (Tables 3.8, 3.11): RELEASE of a SPARE slot owes the supervisor its final commands; when they are answered and no
write is bound to the slot it is powered off and SAFE_TO_REMOVE; presence that opens then empties the slot and leaves the cartridge,
with its contents, outside; REAUTH of a SPARE starts authentication again; SV_SOFT gives software the select for at most 100 ms. -/
def Obligations.ReleaseRemovalAndReauthentication : Prop :=
  (∀ s ch x, MayWrite ch (slotBase x + 4) s → usualField s = true → (s.slot x).state = .spare → s.duet.format = none →
    (s.slot x).svDue = [] → Gives (.release ch x (ctCtrl (s.slot x))) s fun t => (t.slot x).state = .releasing ∧ (t.slot x).svDue = [4, 6, 11] ∧
      (t.slot x).cart = (s.slot x).cart ∧ t.slot x.other = s.slot x.other ∧ t.ev = s.ev ∧ t.duet = s.duet) ∧
  (∀ s x c, (s.slot x).state = .releasing → (s.slot x).cart = some c → slotClean s x = true → finalDone (s.slot x) = true → s.ev.logOpen = true →
    Gives (.releaseComplete x) s fun t => (t.slot x).state = .safeToRemove ∧ (t.slot x).pwren = false ∧ (t.slot x).link = .down ∧
      (∃ c', (t.slot x).cart = some c' ∧ c'.lines = c.lines ∧ c'.sv.vcart = false) ∧
      (∃ e ∈ t.ev.intake, e.code = cCART_SAFE ∧ e.unit = uCT x) ∧ t.slot x.other = s.slot x.other) ∧
  (∀ s x c, (s.slot x).state = .safeToRemove → (s.slot x).cart = some c → (s.slot x).uncharged = 0 → s.bt.running = [] → s.bt.run = 0 →
    s.pw.state = .active → s.bt.causes = [] → Gives (.prsntNOpen x) s fun t => (t.slot x).state = .empty ∧ (t.slot x).cart = none ∧
      (∃ c', t.shelf = s.shelf ++ [c'] ∧ c'.serial = c.serial ∧ c'.lines = c.lines ∧ c'.header = c.header ∧ c'.hold = c.hold) ∧
      t.duet = s.duet ∧ t.slot x.other = s.slot x.other ∧ t.ks = s.ks) ∧
  (∀ s ch x, MayWrite ch (slotBase x + 4) s → notTest s = true → (s.slot x).cart.isSome = true → (s.slot x).state = .spare → (s.slot x).uncharged = 0 → s.duet.format = none →
    s.bt.running = [] → s.bt.run = 0 → Gives (.reauth ch x (ctCtrl (s.slot x))) s fun t => (t.slot x).state = .auth ∧
      (t.slot x).identified = false ∧ (t.slot x).bound = false ∧ (t.slot x).link = .down ∧ (t.slot x).authStart = s.now ∧
      (t.slot x).cart = (s.slot x).cart ∧ t.slot x.other = s.slot x.other) ∧
  (∀ s ch x, MayWrite ch (slotBase x + 4) s → notTest s = true → (s.slot x).svSoft = false → Gives (.svSoft ch x (ctCtrl (s.slot x))) s fun t =>
    (t.slot x).svSoft = true ∧ (t.slot x).softSince = s.now ∧ t = modSlot x (fun _ => t.slot x) { s with out := [] }) ∧
  (∀ s x, (s.slot x).svSoft = true → (s.slot x).softSince + 100000000 ≤ s.now → s.sp1.txn = none → s.ev.logOpen = true →
    Gives (.svSoftTimeout x) s fun t => (t.slot x).svSoft = false ∧ (∃ e ∈ t.ev.intake, e.code = cSV_SOFT_TIMEOUT ∧ e.unit = uCT x) ∧
      t.pc = s.pc ∧ t.duet = s.duet)

/-- The sequencer can put a new request to the supervisor of a cartridge: none is unanswered, no pass-through waits, SP1 is the master,
the supervisor's last executed request carried the slot's present toggle, and its exposure is known. -/
abbrev CanAsk (s : State) (x : Slot) (c : Cart) : Prop :=
  svFree s x = true ∧ (s.slot x).cart = some c ∧ (s.slot x).outstanding = none ∧ (s.slot x).passthrough = none ∧ s.sp1.master = true ∧
  (∀ d, c.sv.done = some d → d.toggle = (s.slot x).toggle) ∧ ((s.slot x).exposed = true ∨ c.sv.exposed = false)

/-- The bits of the frame of a request to a supervisor (R74). -/
abbrev frameOut (opc : BitVec 7) (toggle : Bool) (req : List Byte) : Out :=
  .sdo .p1 ((requestFrame { opc := opc, payload := req, toggle := toggle, repeats := 0, cycle := 0, extra := [], soft := false }).flatMap
    byteBits)

/-- The request was sent and answered: its frame went out, RES and the payload came back, the toggle flipped, and SV_FAULT is clear. -/
abbrev AnswerTaken (s t : State) (x : Slot) (opc : BitVec 7) (req payload : List Byte) : Prop :=
  t.out = [frameOut opc (!(s.slot x).toggle) req, .supervisor x cOK payload] ∧ (t.slot x).outstanding = none ∧ (t.slot x).svFault = false ∧
  (t.slot x).toggle = !(s.slot x).toggle ∧ t.slot x.other = s.slot x.other ∧ t.pc = s.pc ∧ t.duet = s.duet

/-- R75, R77, R78, R79, R83, R87, R89 (Tables 3.4, 3.5): each supervisor command that is owed and answered returns its response and leaves
its effect: the identity record gives serial, type and budget, a right tag passes authentication and a wrong one is counted, WEAR_CHARGE adds
the uncharged units, CLOCK_SYNC slews a small offset and steps a large one, INDICATOR sets the lamp, ALERT_READ clears the alerts. -/
def Obligations.SupervisorCommandsAreAnswered : Prop :=
  (∀ s x c, CanAsk s x c → authTurn s x = true → (s.slot x).identified = false → c.identOk = true → c.proto = 1 →
    Gives (.idRead x .answered) s fun t => AnswerTaken s t x 1 [] (identityRecord c) ∧ (t.slot x).identified = true ∧
      (t.slot x).serial = c.serial ∧ (t.slot x).budget = lifeBudget c.big ∧ (t.slot x).idType = (if c.big then 2 else 1) ∧
      (t.slot x).uncharged = (look c.serial s.ks.wear).getD 0) ∧
  (∀ s x c tag, CanAsk s x c → authTurn s x = true → (s.slot x).identified = true → leBytes 16 tag.toNat = expectedTag s (s.slot x) →
    Gives (.auth x .answered tag) s fun t => AnswerTaken s t x 2 (leBytes 16 (s.slot x).nonce.toNat) (leBytes 16 tag.toNat) ∧ (t.slot x).state = .training ∧
      (t.slot x).typeCode = BitVec.ofNat 4 (s.slot x).idType.toNat ∧ (3 : BitVec 7) ∈ (t.slot x).svDue ∧ (6 : BitVec 7) ∈ (t.slot x).svDue) ∧
  (∀ s x c tag, CanAsk s x c → authTurn s x = true → (s.slot x).identified = true → leBytes 16 tag.toNat ≠ expectedTag s (s.slot x) →
    Gives (.auth x .answered tag) s fun t => AnswerTaken s t x 2 (leBytes 16 (s.slot x).nonce.toNat) (leBytes 16 tag.toNat) ∧ (t.slot x).authTries = (s.slot x).authTries + 1 ∧
      (t.slot x).state = (if 2 ≤ (s.slot x).authTries then .authFailed else .auth)) ∧
  (∀ s x c, CanAsk s x c → svOwed s x 3 = true → c.sv.spent < 2 ^ 64 → Gives (.wearRead x .answered) s fun t =>
    AnswerTaken s t x 3 [] (leBytes 8 c.sv.spent ++ leBytes 8 (lifeBudget c.big)) ∧ (t.slot x).svSpent = c.sv.spent ∧
    (t.slot x).uncharged = (s.slot x).uncharged) ∧
  (∀ s x c, CanAsk s x c → svOwed s x 4 = true → c.sv.spent + (s.slot x).uncharged < 2 ^ 64 → Gives (.wearCharge x .answered) s fun t =>
    AnswerTaken s t x 4 (leBytes 8 (s.slot x).uncharged) (leBytes 8 (c.sv.spent + (s.slot x).uncharged)) ∧ (t.slot x).uncharged = 0 ∧
    (t.slot x).svSpent = c.sv.spent + (s.slot x).uncharged ∧ ∃ c', (t.slot x).cart = some c' ∧ c'.sv.spent = c.sv.spent + (s.slot x).uncharged) ∧
  (∀ s x c page b, CanAsk s x c → svOwed s x 5 = true → expoPage c.sv page.toNat = some b → Gives (.expoRead x .answered page) s fun t =>
    AnswerTaken s t x 5 [page] b) ∧
  (∀ s x c, CanAsk s x c → syncDue s x = true → lgtMs s.lg.lgt < 2 ^ 64 → c.sv.clockMs ≠ lgtMs s.lg.lgt → c.sv.clockMs ≤ lgtMs s.lg.lgt + 250 →
    lgtMs s.lg.lgt ≤ c.sv.clockMs + 250 → Gives (.clockSync x .answered) s fun t =>
      AnswerTaken s t x 6 (syncPayload s) (leBytes 8 c.sv.clockMs ++ [1]) ∧ (t.slot x).lastSync = s.now ∧
      ∃ c', (t.slot x).cart = some c' ∧ c'.sv.clockMs = c.sv.clockMs ∧ c'.sv.slewMs = (lgtMs s.lg.lgt : Int) - c.sv.clockMs) ∧
  (∀ s x c, CanAsk s x c → syncDue s x = true → lgtMs s.lg.lgt < 2 ^ 64 → c.sv.clockMs + 250 < lgtMs s.lg.lgt →
    Gives (.clockSync x .answered) s fun t => AnswerTaken s t x 6 (syncPayload s) (leBytes 8 c.sv.clockMs ++ [2]) ∧
      ∃ c', (t.slot x).cart = some c' ∧ c'.sv.clockMs = lgtMs s.lg.lgt ∧ c'.sv.slewMs = 0 ∧
        c'.sv.steps = lastN 8 (c.sv.steps ++ [(c.sv.clockMs, lgtMs s.lg.lgt)])) ∧
  (∀ s x c, CanAsk s x c → authed (s.slot x) = true → Gives (.sensorRead x .answered) s fun t =>
    AnswerTaken s t x 7 [] (c.sv.temps.toList ++ leBytes 2 c.sv.field.toNat) ∧ (t.slot x).envField = c.sv.field ∧
    (t.slot x).envHot = hottestOf c.sv.temps.toList) ∧
  (∀ s x c (m : Fin 3), CanAsk s x c → authed (s.slot x) = true → wantLamp (s.slot x) = BitVec.ofNat 2 m.val →
    Gives (.indicator x .answered m) s fun t => AnswerTaken s t x 8 (leBytes 1 m.val) [] ∧ ∃ c', (t.slot x).cart = some c' ∧ c'.sv.lamp = BitVec.ofNat 2 m.val) ∧
  (∀ s x c, CanAsk s x c → (s.slot x).alertPending = true → booting s = false → Gives (.alertRead x .answered) s fun t =>
    AnswerTaken s t x 9 [] (leBytes 2 c.sv.alerts.toNat) ∧ (t.slot x).alertPending = false ∧ ∃ c', (t.slot x).cart = some c' ∧ c'.sv.alerts = 0) ∧
  (∀ s x c p r, CanAsk s x c → testBit 9 x ∈ s.bt.running → Gives (.fieldTest x .answered p r) s fun t => AnswerTaken s t x 10 [p] (leBytes 8 r.toNat)) ∧
  (∀ s x c on, CanAsk s x c → svOwed s x 11 = true → noticeFits s x on = true → Gives (.powerNotice x .answered on) s fun t =>
    AnswerTaken s t x 11 [if on then 1 else 0] [] ∧ ∃ c', (t.slot x).cart = some c' ∧ c'.sv.vcart = on)

/-- The slot's cartridge is as it was but for its supervisor. -/
abbrev ButForSv (s t : State) (x : Slot) : Prop :=
  (t.slot x).cart.map (fun c => { c with sv := {} }) = (s.slot x).cart.map (fun c => { c with sv := {} })

/-- R74, R75, R76, R77, R87, R331 (Tables 3.4, 3.16): a pass-through command becomes busy with its payload, and one that only the engine may
send is turned away; a poll takes a saved answer, and after the limit repeats the request with its toggle; the third repeat unanswered is
SV_FAULT, logged once; a faulted supervisor is retried 10 s later, and its answer clears the fault; SVALERT_N is remembered; a second of
exposure is counted in its bins. -/
def Obligations.SupervisorPassThroughFaultsAndExposure : Prop :=
  (∀ s ch x (opc : BitVec 7) len, MayWrite ch (slotBase x + 0x34) s → (s.slot x).svBusy = false → (s.slot x).cart.isSome = true → len ≤ 64 →
    len ≤ (s.slot x).svFifo.length → listedOpc opc = true → engineOnly opc = false →
    Gives (.supervisorPassthrough ch x (BitVec.ofNat 32 (opc.toNat + 256 * len))) s fun t => (t.slot x).svBusy = true ∧
      (t.slot x).passthrough = some (opc, (s.slot x).svFifo.take len) ∧ (t.slot x).svFifo = [] ∧ (t.slot x).outstanding = (s.slot x).outstanding ∧
      t = modSlot x (fun _ => t.slot x) { s with out := [] }) ∧
  (∀ s ch x (opc : BitVec 7), MayWrite ch (slotBase x + 0x34) s → (s.slot x).svBusy = false → engineOnly opc = true →
    Gives (.supervisorPassthrough ch x (BitVec.ofNat 32 opc.toNat)) s fun t => (t.slot x).svBusy = false ∧
      (t.slot x).svRes = cPERMISSION ∧ (t.slot x).svLen = (s.slot x).svLen ∧ (t.slot x).svFifo = (s.slot x).svFifo ∧
      (t.slot x).passthrough = (s.slot x).passthrough ∧
      (s.ev.logOpen = true → ∃ e ∈ t.ev.intake, e.code = cPERMISSION ∧ e.unit = uCT x)) ∧
  (∀ s x c o d, (s.slot x).outstanding = some o → (s.slot x).cart = some c → svFree s x = true → c.sv.done = some d → d.toggle = o.toggle →
    d.opc = o.opc → d.payload = o.payload → d.response = [cOK] → o.opc = 8 → c.sv.rejected = none →
    (s.slot x).passthrough = none → ((s.slot x).exposed = true ∨ c.sv.exposed = false) →
    Gives (.supervisorPoll x false) s fun t => t.out = [.supervisor x cOK []] ∧ (t.slot x).outstanding = none ∧ (t.slot x).svFault = false ∧
      (t.slot x).cart = (s.slot x).cart) ∧
  (∀ s x o, (s.slot x).outstanding = some o → svFree s x = true → o.opc = 2 → o.cycle + 10000000 ≤ s.now → o.repeats < 3 →
    Gives (.supervisorPoll x true) s fun t => (t.slot x).outstanding = some { o with repeats := o.repeats + 1, cycle := s.now } ∧
      (t.slot x).toggle = (s.slot x).toggle ∧ t.out = (if s.sp1.master then [frameOut o.opc o.toggle o.payload] else []) ∧
      ButForSv s t x) ∧
  (∀ s x o, (s.slot x).outstanding = some o → 3 ≤ o.repeats → o.cycle + svLimit o.opc * 1000000 ≤ s.now → (s.slot x).state ≠ .auth →
    (s.slot x).svFault = false → s.ev.logOpen = true → Gives (.svTimeout x) s fun t => (t.slot x).svFault = true ∧
      (∃ e ∈ t.ev.intake, e.code = cSV_TIMEOUT ∧ e.unit = uCT x) ∧ (t.slot x).cart = (s.slot x).cart ∧ t.duet = s.duet) ∧
  (∀ s x o, (s.slot x).outstanding = some o → (s.slot x).svFault = true → (s.slot x).state ≠ .authFailed → o.cycle + 10000000000 ≤ s.now →
    svFree s x = true → Gives (.supervisorRetry x false) s fun t => (t.slot x).outstanding = some { o with cycle := s.now } ∧
      (t.slot x).svFault = true ∧ t.out = (if s.sp1.master then [frameOut o.opc o.toggle o.payload] else []) ∧ ButForSv s t x) ∧
  (∀ s x c o, (s.slot x).outstanding = some o → (s.slot x).svFault = true → (s.slot x).state ≠ .authFailed → o.cycle + 10000000000 ≤ s.now →
    svFree s x = true → s.sp1.master = true → (s.slot x).cart = some c → o.opc = 8 → o.payload.length ≤ 64 → (s.slot x).passthrough = none →
    c.sv.done = none → ((s.slot x).exposed = true ∨ c.sv.exposed = false) →
    Gives (.supervisorRetry x true) s fun t => (t.slot x).outstanding = none ∧ (t.slot x).svFault = false ∧
      t.out = [frameOut o.opc o.toggle o.payload, .supervisor x cOK []]) ∧
  (∀ s x, (s.slot x).cart.isSome = true → Gives (.svalert x) s fun t => (t.slot x).alertPending = true ∧
    t = modSlot x (fun _ => t.slot x) { s with out := [] }) ∧
  (∀ s x c hot (f : BitVec 16), (s.slot x).cart = some c → Gives (.exposureSecond x hot f) s fun t => ∃ c', (t.slot x).cart = some c' ∧
    total id c'.sv.tempBins.toList = total id c.sv.tempBins.toList + 1 ∧ total id c'.sv.fieldBins.toList = total id c.sv.fieldBins.toList + 1 ∧
    c'.sv.peakTemp = max c.sv.peakTemp hot.toInt ∧ c'.sv.peakField = max c.sv.peakField f.toNat ∧
    (250 ≤ f.toNat → c'.sv.exposed = true) ∧ (c.sv.exposed = true → c'.sv.exposed = true) ∧ t.slot x.other = s.slot x.other ∧ c'.lines = c.lines)

/-- R69, R70 (Table 3.2): four flit errors are replayed and the fifth retrains the link; an ACTIVE link idles after 10 000 cycles without
traffic; a retrain that succeeds makes it ACTIVE, and the third that fails within 1 s makes the slot FAILED. -/
def Obligations.LinksReplayIdleAndRetrain : Prop :=
  (∀ s x, (s.slot x).link = .active ∨ (s.slot x).link = .idle → (s.slot x).flitFails < 4 → exec (.flitLcrcError x) s =
    .next (modSlot x (fun t => { t with flitFails := t.flitFails + 1, replays := t.replays + 1 }) { s with out := [] })) ∧
  (∀ s x, (s.slot x).link = .active ∨ (s.slot x).link = .idle → 4 ≤ (s.slot x).flitFails → exec (.flitLcrcError x) s =
    .next (modSlot x (fun t => { t with flitFails := 0, link := .retrain, retrains := t.retrains + 1 }) { s with out := [] })) ∧
  (∀ s x, (s.slot x).link = .active → (s.slot x).linkUse + 10000 ≤ s.now →
    exec (.linkIdleTimeout x) s = .next (modSlot x (fun t => { t with link := .idle }) { s with out := [] })) ∧
  (∀ s x, s.now < (s.slot x).linkUse + 10000 → exec (.linkIdleTimeout x) s = .next { s with out := [] }) ∧
  (∀ s x, (s.slot x).link = .retrain → exec (.retrainEnd x true) s =
    .next (modSlot x (fun t => { t with link := .active, width := if t.linkDegraded then 4 else 8, linkUse := s.now, flitFails := 0 })
      { s with out := [] })) ∧
  (∀ s x, (s.slot x).link = .retrain → (s.slot x).failedRetrains.length < 2 → Gives (.retrainEnd x false) s fun t =>
    (t.slot x).link = .down ∧ (t.slot x).width = 0 ∧ (t.slot x).state = (s.slot x).state ∧ s.now ∈ (t.slot x).failedRetrains ∧ t.ev = s.ev) ∧
  (∀ s x a b, (s.slot x).link = .retrain → (s.slot x).failedRetrains = [a, b] → s.now < a + 1000000000 → s.now < b + 1000000000 →
    (s.slot x).serves = false → s.duet.format = none → s.ev.logOpen = true → s.pw.state = .active → Gives (.retrainEnd x false) s fun t =>
      (t.slot x).state = .failed ∧ (t.slot x).link = .down ∧ (∃ e ∈ t.ev.intake, e.code = cCART_GONE ∧ e.unit = uCT x) ∧ t.duet = s.duet)

/-- R96, R98, R100, R102, R388 (Tables 3.8, 3.18): a full format leaves a BOUND cartridge in service as SOLO, with the binding advanced; the
pacer grants at most four requests, one a period, while a copy runs; ABORT ends a migration back to SOLO of the source; CUT is remembered,
or starts the cut-over that waits for it.
The price of the header's line is the model's choice (log 16). -/
def Obligations.DuetFormatsCopiesAbortsAndCuts : Prop :=
  (∀ s x c, s.duet.format = some (.solo x) → (s.slot x).cart = some c → (s.slot x).tested = true → (s.slot x).state = .spare →
    inhibited s x = false → Gives (.formatDone []) s fun t =>
    t.duet.state = soloOf x ∧ t.duet.format = none ∧ (t.slot x).state = .inService ∧ (t.slot x).bound = true ∧
    (∃ c', (t.slot x).cart = some c' ∧ c'.header = true ∧ c'.hold = {} ∧ c'.quarantine = [] ∧ c'.trace = [] ∧ c'.serial = c.serial) ∧
    t.duet.names x = true ∧ t.duet.names x.other = false ∧ t.duet.gen = (s.duet.gen + 1) % 2 ^ 32 ∧
    t.lg.live[provider].wear = s.lg.live[provider].wear + BitVec.ofNat 40 (245760 * Tempo.moderato.price + Tempo.lento.price)) ∧
  (∀ s (n : Fin 32), s.dm.ch[n].copy = true → s.duet.pacerAt + s.duet.period.toNat ≤ s.now → Gives .migratePacer s fun t =>
    t.dm.migCount = min 4 (s.dm.migCount + 1) ∧ t.duet.pacerAt = s.now ∧ t.dm.ch = s.dm.ch ∧ t.pc = s.pc) ∧
  (∀ s, s.now < s.duet.pacerAt + s.duet.period.toNat → exec .migratePacer s = .next { s with out := [] }) ∧
  (∀ s ch v, MayWrite ch 0x0D04 s → usualField s = true → s.duet.state = .migrateCopy → s.duet.noAbort = false → bit v 9 = false →
    s.ev.logOpen = true → Gives (.duetAbort ch v) s fun t => t.duet.state = soloOf s.duet.source ∧
      t.duet.format = none ∧ t.duet.plan = [] ∧ (∀ h ∈ t.pc.slots, ∀ l ∈ h.left, l.1 = s.duet.source) ∧
      (∀ n : Fin 32, t.dm.ch[n].copy = false) ∧ ∃ e ∈ t.ev.intake, e.code = cMIG_ABORT) ∧
  (∀ s ch v, MayWrite ch 0x0D04 s → usual s = true → s.duet.state = .migrateCopy → s.duet.cutPending = false → bit v 8 = false →
    exec (.cut ch v) s = .next { s with out := [], duet := { s.duet with cutGiven := true } }) ∧
  (∀ s ch v, MayWrite ch 0x0D04 s → usual s = true → s.duet.state = .migrateCopy → s.duet.cutPending = true → bit v 8 = false →
    tagReady s s.duet.source.other = true → Gives (.cut ch v) s fun t => t.duet.state = .migrateCut ∧ t.duet.cutPending = false ∧ t.duet.gen = (s.duet.gen + 1) % 2 ^ 32 ∧
      t.pc.slots = s.pc.slots)

/-! ### Tenants and the countersign -/

/-- R18, R28, R134, R140, R142, R231, R283 (Table 5.8): TN_MODE of a tenant takes PERSIST and TEMPO, over the G5 window PERSIST only, of
the context that the position names; posted is refused while nothing backs it; the provider's is read-only; 1 s after the first write the
context's image is formed for the keep store; a refill cycle gives each bucket its rate up to its cap, and every token is in the bucket,
spent or discarded. -/
def Obligations.TenantModeAndTokens : Prop :=
  (∀ s ch pos v c, MayWrite ch 0x1014 s → ch ≠ .g5 → tnIndex s ch = c → c ≠ provider → notTest s = true → fld v 4 2 ≠ 0 →
    (bit v 0 = true ∨ (s.tenant c).persist = false ∨ toPostedOk s = true) → Gives (.tnModeWrite ch v pos) s fun t =>
      (t.tenant c).persist = bit v 0 ∧ (t.tenant c).tempo = tempoOf (BitVec.ofNat 2 (fld v 4 2)) ∧
      (t.tenant c).modeAt = some ((s.tenant c).modeAt.getD s.now) ∧ t = modTenant c (fun _ => t.tenant c) { s with out := [] }) ∧
  (∀ s (pos : Fin 33) v c, Serves s → pos ≠ 32 → toCtx pos.val = c → notTest s = true →
    (bit v 0 = true ∨ (s.tenant c).persist = false ∨ toPostedOk s = true) → Gives (.tnModeWrite .g5 v pos) s fun t =>
      (t.tenant c).persist = bit v 0 ∧ (t.tenant c).tempo = (s.tenant c).tempo ∧
      (t.tenant c).modeAt = some ((s.tenant c).modeAt.getD s.now) ∧ t = modTenant c (fun _ => t.tenant c) { s with out := [] }) ∧
  (∀ s ch pos v c, MayWrite ch 0x1014 s → ch ≠ .g5 → tnIndex s ch = c → c ≠ provider → notTest s = true → fld v 4 2 ≠ 0 → bit v 0 = false →
    (s.tenant c).persist = true → postedOk s = false → s.ev.logOpen = true → Gives (.tnModeWrite ch v pos) s fun t =>
      (t.tenant c).persist = true ∧ (t.tenant c).tempo = (s.tenant c).tempo ∧ (t.tenant c).wrongState = true ∧
      (∃ e ∈ t.ev.intake, e.code = cWRONG_STATE ∧ e.unit = uTN ∧ e.ctx = ctxByte c)) ∧
  (∀ s ch pos v, MayWrite ch 0x1014 s → ch ≠ .g5 → tnIndex s ch = provider → exec (.tnModeWrite ch v pos) s = .next { s with out := [] }) ∧
  (∀ s v, Serves s → exec (.tnModeWrite .g5 v 32) s = .next { s with out := [] }) ∧
  (∀ s c at', (s.tenant c).modeAt = some at' → at' + 1000000000 ≤ s.now → Gives (.tnModePersist c) s fun t => (t.tenant c).modeAt = none ∧
    (t.tenant c).persist = (s.tenant c).persist ∧ (∃ w ∈ t.ks.queue, w.kind.record = some (0x40 + c.val)) ∧ t.ks.mem = s.ks.mem ∧ t.pc = s.pc) ∧
  (∀ s c at', (s.tenant c).modeAt = some at' → s.now < at' + 1000000000 → exec (.tnModePersist c) s = .next { s with out := [] }) ∧
  (∀ s, refillDue s = true → (∀ (c : Ctx) n w, (s.tenant c).was = some (n, w) → n ≠ s.now) → Gives .tokenRefill s fun t =>
    (∀ c : Ctx, (s.tenant c).unlimited = false →
      (t.tenant c).tokens = min ((s.tenant c).tokens + (s.tenant c).rate.toNat) (16 * (s.tenant c).cap.toNat) ∧
      (t.tenant c).tokens + (t.tenant c).discarded = (s.tenant c).tokens + (s.tenant c).discarded + (s.tenant c).rate.toNat ∧
      (t.tenant c).refilled = (s.tenant c).refilled + (s.tenant c).rate.toNat) ∧
    (∀ c : Ctx, (s.tenant c).unlimited = true → t.tenant c = s.tenant c) ∧ t = { s with out := [], tn := t.tn } ∧
    t.tn.refillAt = some s.now) ∧
  (∀ s, refillDue s = false → exec .tokenRefill s = .next { s with out := [] })

/-- R149, R150, R151, R152 (Tables 5.6, 5.11): with both secrets set, the first write of a countersigned field opens a change of the next
number whose entry holds the value, and changes nothing in effect; without the secrets, or while the other party's change is open, it is
refused; 1 µs later the digest follows the entries and CS_OPEN is logged once. -/
def Obligations.StagingOpensAChange : Prop :=
  (∀ s ch (n : BitVec 9), MayWrite ch 0x4814 s → ch ≠ .g5 → notTest s = true → s.cs.hostSet = true → s.cs.mgmtSet = true → s.cs.state = .idle →
    5 ≤ n.toNat → n.toNat ≤ 300 → n ≠ s.cs.window → Gives (.csStage ch 0x4814 0xF (n.setWidth 32)) s fun t =>
      t.cs.state = .opened ∧ t.cs.mgmt = ch.mgmt ∧ t.cs.chgNo = s.cs.chgNo + 1 ∧ t.cs.entries = [⟨0x4814, 0x1FF, n.setWidth 32⟩] ∧
      t.cs.badTries = 0 ∧ t.cs.openAt = s.now ∧ t.cs.busyTill = some (s.now + 1000) ∧ t.cs.window = s.cs.window ∧ t.cs.chgWindow = s.cs.window ∧
      t = { s with out := [], cs := t.cs }) ∧
  (∀ s ch v c, MayWrite ch 0x102C s → ch ≠ .g5 → tnIndex s ch = c → c ≠ provider → notTest s = true → s.cs.hostSet = true →
    s.cs.mgmtSet = true → s.cs.state = .idle → v ≠ (s.tenant c).quota → Gives (.csStage ch 0x102C 0xF v) s fun t => t.cs.state = .opened ∧
      t.cs.entries = [⟨BitVec.ofNat 32 (0x102C + c.val * 65536 + 16777216), 0xFFFFFFFF, v⟩] ∧ t = { s with out := [], cs := t.cs }) ∧
  (∀ s ch (n : BitVec 9), MayWrite ch 0x4814 s → ch ≠ .g5 → notTest s = true → n ≠ s.cs.window → s.cs.state = .idle →
    (s.cs.hostSet && s.cs.mgmtSet) = false →
    Gives (.csStage ch 0x4814 0xF (n.setWidth 32)) s fun t => t.cs = { s.cs with wrongState := true, lastResult := cWRONG_STATE } ∧ t.tn = s.tn ∧
      (s.ev.logOpen = true → ∃ e ∈ t.ev.intake, e.code = cWRONG_STATE ∧ e.unit = uCS)) ∧
  (∀ s ch (n : BitVec 9), MayWrite ch 0x4814 s → ch ≠ .g5 → notTest s = true → n ≠ s.cs.window → s.cs.state = .opened → s.cs.mgmt ≠ ch.mgmt →
    s.now < windowEnd s → Gives (.csStage ch 0x4814 0xF (n.setWidth 32)) s fun t => t.cs = { s.cs with wrongState := true, lastResult := cWRONG_STATE }) ∧
  (∀ s e, s.cs.busyTill = some e → s.cs.opened = false → s.ev.logOpen = true → Gives .digestRecompute s fun t =>
    t.cs = { s.cs with busyTill := none, digest := changeDigest s, count := s.cs.entries.length, opened := true } ∧
    (∃ e ∈ t.ev.intake, e.code = cCS_OPEN ∧ e.d0 = s.cs.chgNo ∧ e.d1 = changeDigest s) ∧ t.tn = s.tn) ∧
  (∀ s e, s.cs.busyTill = some e → s.cs.opened = true → exec .digestRecompute s = .next { s with out := [], cs :=
    { s.cs with busyTill := none, digest := changeDigest s, count := s.cs.entries.length } })

/-- R149, R152, R153, R154, R276: the other party's right tag commits the change, whose acceptance is written to the keep store; a wrong tag
is counted, and the third lapses the change; the proposer cannot countersign; a change lapses when it is withdrawn or its window ends; a
party's first SECRET_COMMIT forms its write and zeroises the buffer, and a second is refused. -/
def Obligations.CountersignCommitsOrLapses : Prop :=
  (∀ s ch v, MayWrite ch 0x481C s → s.cs.state = .opened → s.now < windowEnd s → s.cs.mgmt ≠ ch.mgmt → s.cs.busyTill = none →
    wordBytes s.cs.tagLo ++ wordBytes v = changeTag s (counterSecret s) → s.cs.entries.findSome? (fun e => entryCode s s.cs.entries e) = none →
    Gives (.countersign ch v) s fun t => t.cs.state = .committing ∧ t.cs.lastResult = cOK ∧ t.cs.entries = s.cs.entries ∧
      t.cs.chgNo = s.cs.chgNo ∧ (∃ w ∈ t.ks.queue, w.kind = .acceptCommit ∨ ∃ c, w.kind = .acceptErase c) ∧ t.tn = s.tn ∧ t.ks.mem = s.ks.mem) ∧
  (∀ s ch v, MayWrite ch 0x481C s → s.cs.state = .opened → s.now < windowEnd s → s.cs.mgmt ≠ ch.mgmt → s.cs.busyTill = none →
    wordBytes s.cs.tagLo ++ wordBytes v ≠ changeTag s (counterSecret s) → s.ev.logOpen = true → Gives (.countersign ch v) s fun t =>
      t.cs.lastResult = cNOT_COUNTERSIGNED ∧ t.cs.state = (if 2 ≤ s.cs.badTries then .idle else .opened) ∧
      t.cs.badTries = (if 2 ≤ s.cs.badTries then 0 else s.cs.badTries + 1) ∧ (∃ e ∈ t.ev.intake, e.code = cCS_BADTAG) ∧ t.tn = s.tn ∧ t.ks = s.ks) ∧
  (∀ s ch v, MayWrite ch 0x481C s → s.cs.state = .opened → windowEnd s ≤ s.now → Gives (.countersign ch v) s fun t =>
    t.cs = { s.cs with lastResult := cNOT_COUNTERSIGNED } ∧ t.tn = s.tn ∧ t.ks = s.ks) ∧
  (∀ s ch v, MayWrite ch 0x481C s → s.cs.state = .opened → s.now < windowEnd s → s.cs.mgmt = ch.mgmt → Gives (.countersign ch v) s fun t =>
    t.cs = { s.cs with lastResult := cPERMISSION } ∧ t.tn = s.tn ∧ t.ks = s.ks) ∧
  (∀ s ch v, MayWrite ch 0x4820 s → s.cs.state = .opened → s.now < windowEnd s → s.cs.mgmt = ch.mgmt → bit v 1 = false → s.ev.logOpen = true →
    Gives (.withdraw ch v) s fun t => t.cs.state = .idle ∧ t.cs.lastResult = cNOT_COUNTERSIGNED ∧
      (∃ e ∈ t.ev.intake, e.code = cCS_LAPSED) ∧ t.tn = s.tn ∧ t.ks = s.ks) ∧
  (∀ s, s.cs.state = .opened → s.cs.openAt + s.cs.chgWindow.toNat * 1000000000 ≤ s.now → s.ev.logOpen = true → Gives .windowLapse s fun t =>
    t.cs.state = .idle ∧ t.cs.lastResult = cTIMEOUT ∧ (∃ e ∈ t.ev.intake, e.code = cCS_LAPSED) ∧ t.tn = s.tn ∧ t.ks = s.ks) ∧
  (∀ s, s.now < s.cs.openAt + s.cs.chgWindow.toNat * 1000000000 → exec .windowLapse s = .next { s with out := [] }) ∧
  (∀ s ch v, MayWrite ch 0x4820 s → notTest s = true → bit v 0 = false → ch.mgmt = false → s.cs.hostSet = false → s.cs.hostPend = false →
    bufferSecret s.cs.secretHost ≠ 0 → Gives (.secretCommit ch v) s fun t => t.cs.hostPend = true ∧ t.cs.secretHost = Vector.replicate 8 0 ∧
      t.cs.hostSet = false ∧ t.cs.secretMgmt = s.cs.secretMgmt ∧ (∃ w ∈ t.ks.queue, w.kind = .secretHost ∧ w.page = 0) ∧ t.ks.mem = s.ks.mem) ∧
  (∀ s ch v, MayWrite ch 0x4820 s → notTest s = true → bit v 0 = false → ch.mgmt = true → s.cs.mgmtSet = false → s.cs.mgmtPend = false →
    bufferSecret s.cs.secretMgmt ≠ 0 → Gives (.secretCommit ch v) s fun t => t.cs.mgmtPend = true ∧ t.cs.secretMgmt = Vector.replicate 8 0 ∧
      (∃ w ∈ t.ks.queue, w.kind = .secretMgmt ∧ w.page = 0)) ∧
  (∀ s ch v, MayWrite ch 0x4820 s → notTest s = true → bit v 0 = false → ch.mgmt = false → s.cs.hostSet = true →
    Gives (.secretCommit ch v) s fun t => t.cs = { s.cs with wrongState := true } ∧ t.ks = s.ks)

/-! ### The ledger -/

/-- R160, R161, R162, R163, R166, R170 (Table 6.4): a tick advances ledger time by 2^32 units trimmed by DISC and by at most 1000 ppm of
slew; an interval within 500 ppm moves DISC by a sixteenth of the difference, and one beyond it is discarded; a second boundary adds every
TN_SIZE to OCC; a minute tick closes the open minute in its cycle, a second that coincides with it counted in that minute, and a merge
goes on while a frame waits; as the cycle ends the counters of the metered contexts and the totals are frozen and an empty bank opens;
the seal, 8(k + 1) + 8 cycles after the tick, puts the frame in the queue and folds its totals.
The roundings are the model's choice (log 40). -/
def Obligations.LedgerTimeSecondsAndMinutes : Prop :=
  (∀ s, s.pw.state ≠ .off → s.lg.slew = 0 → exec .metronomeTick s = .next { s with out := [], lg := { s.lg with
    lgt := ((s.lg.lgt : Int) + 4294967296 + s.lg.disc * 4294967296 / 1000000000).toNat } }) ∧
  (∀ s, s.pw.state ≠ .off → s.lg.slew ≠ 0 → Gives .metronomeTick s fun t => t.lg.slew.natAbs ≤ s.lg.slew.natAbs ∧
    s.lg.slew.natAbs - t.lg.slew.natAbs ≤ 4294967 ∧ bit t.lg.flags 2 = true ∧ t = { s with out := [], lg := t.lg } ∧ t.lg.live = s.lg.live) ∧
  (∀ s, s.pw.state = .off → exec .metronomeTick s = .next { s with out := [] }) ∧
  (∀ s n, s.pw.state.clocked = true → 999500000 ≤ n → n ≤ 1000500000 → exec (.disciplineInterval n) s = .next { s with out := [], lg :=
    { s.lg with disc := s.lg.disc + ((n : Int) - 1000000000 - s.lg.disc) / 16, discHold := false, rangeRun := false } }) ∧
  (∀ s n, s.pw.state.clocked = true → n < 999500000 ∨ 1000500000 < n → s.ev.logOpen = true → Gives (.disciplineInterval n) s fun t =>
    t.lg = { s.lg with discHold := true, rangeRun := true } ∧
    (s.lg.rangeRun = false → ∃ e ∈ t.ev.intake, e.code = cMETRONOME_RANGE) ∧ (s.lg.rangeRun = true → t.ev = s.ev)) ∧
  (∀ s, ledgerRuns s = true → s.lg.secSeen < s.lg.lgt / (32768 * 4294967296) →
    Gives .secondBoundary s fun t => (∀ c : Ctx, t.lg.live[c] = { s.lg.live[c] with occ := s.lg.live[c].occ + (s.tenant c).size.setWidth 32 }) ∧
      t.lg.secSeen = s.lg.secSeen + 1 ∧ t.lg.lgt = s.lg.lgt ∧ t = { s with out := [], lg := t.lg }) ∧
  (∀ s, s.lg.sealEnd = none → MinuteOpen s → ledgerRuns s = true → s.lg.minute < minuteOf s.lg.lgt → framePending s = false →
    s.lg.merging = false → Gives .minuteTick s fun t => t.lg.closing = some
        { tick := s.now, merge := false, label := s.lg.minute, extra := 0, next := minuteOf s.lg.lgt, flags := 0, trail := [],
          step := none } ∧
      t.lg.minute = s.lg.minute ∧ t.tn = s.tn ∧ t.pc = s.pc ∧ t.lg.outq = s.lg.outq ∧ t.lg.frozen = s.lg.frozen ∧
      (60 * minuteOf s.lg.lgt ≤ s.lg.secSeen → t.lg.live = s.lg.live) ∧
      (s.lg.secSeen < 60 * minuteOf s.lg.lgt → t.lg.secSeen = s.lg.secSeen + 1 ∧ ∀ c : Ctx,
        t.lg.live[c] = { s.lg.live[c] with occ := s.lg.live[c].occ + (s.tenant c).size.setWidth 32 }) ∧
      ∀ x, (s.slot x).charged = true → (4 : BitVec 7) ∈ (t.slot x).svDue) ∧
  (∀ s, s.lg.sealEnd = none → MinuteOpen s → ledgerRuns s = true → s.lg.minute < minuteOf s.lg.lgt → framePending s = true →
    60 * minuteOf s.lg.lgt ≤ s.lg.secSeen → Gives .minuteTick s fun t => (∃ k, t.lg.closing = some k ∧ k.merge = true ∧
        k.next = minuteOf s.lg.lgt) ∧ t.lg.merging = true ∧ t.lg.live = s.lg.live ∧ t.lg.frozen = s.lg.frozen ∧
      (s.lg.merging = false → t.lg.mergeFirst = BitVec.ofNat 32 s.lg.minute) ∧ t.tn = s.tn) ∧
  (∀ s k, s.pending = [] → s.pw.state.clocked = true → s.lg.closing = some k → k.tick = s.now → k.merge = false → s.gl.ingress = [] →
    ∃ t, step s = .next t ∧ t.lg.minute = k.next ∧ t.lg.totals = {} ∧ (∀ c : Ctx, t.lg.live[c] = {} ∧ (t.tenant c).used = 0) ∧
      t.lg.outq = s.lg.outq ∧ t.lg.sealEnd = some (s.now + 8 * ((meteredCtx s).length + 1) + 8) ∧ ∃ u, t.lg.frozen = some u ∧
        u.minute = k.label ∧ u.ctx = meteredCtx s ∧ u.bank = s.lg.live ∧ u.totals = s.lg.totals ∧ u.trail = k.trail) ∧
  (∀ s u e, s.pending = [] → s.pw.state.clocked = true → MinuteOpen s → s.lg.frozen = some u → s.lg.sealEnd = some e → e ≤ s.now + 1 →
    s.gl.ingress = [] → ∃ t, step s = .next t ∧ t.lg.sealEnd = none ∧ t.lg.frozen = none ∧
      t.lg.outq = s.lg.outq ++ [{ marker := false, minute := u.minute, whole := frameRecords u, left := frameRecords u, sum := u.totals }] ++ u.trail ∧
      (frameRecords u).length = u.ctx.length + 1 ∧ t.lg.cumul = addSums s.lg.cumul u.totals ∧ t.lg.live = s.lg.live)

/-- R164, R166, R167, R168, R169, R172, R173, R174, R182 (Tables 6.10 to 6.12): a waiting record goes to the ring of the serving cartridge
at its sequence number, for one lento line of wear, and to the other member alone while one is write-inhibited; a marker is sealed alone, and a
frame once its last record has passed verify; LG_CONSUMED_SEQ takes a value up to
LG_SEALED_SEQ, and any other is RANGE; a TIME_SYNC within 250 ms is slewed, one beyond it closes the minute, whose next cycle is the host's time in a new
epoch (in the cycle of a tick without a second frame, chapter 06, Corners), and one out of range is refused; LATCH holds the cumulative totals with the open minute's.
That the offset is in whole milliseconds, rounded down, is the model's choice (log 15). -/
def Obligations.LedgerRingSyncAndLatch : Prop :=
  (∀ s u rest l more c k w, s.pc.drain = none → s.pc.reconciled = true → Still s → s.md.injArmed = false → s.lg.outq = u :: rest →
    u.left = l :: more → u.marker = false → s.lg.late = [] → s.duet.state = .soloA → (s.slot .a).serves = true → (s.slot .b).serves = false →
    (s.slot .a).cart = some c → ringReady s (.a, ringBase c.big + s.lg.writeSeq.toNat % 2 ^ 20) = true →
    unitRoom s u = true → tagFree s .ledg provider = true → writesRun s = true → Gives (.ledgerWrite (some k :: w)) s fun t =>
      (∃ c', (t.slot .a).cart = some c' ∧ look (s.lg.writeSeq.toNat % 2 ^ 20) c'.ring = some (withSeq s.lg.writeSeq.toNat l) ∧
        (∀ n, n ≠ s.lg.writeSeq.toNat % 2 ^ 20 → look n c'.ring = look n c.ring) ∧
        ∀ n, n ≠ ringBase c.big + s.lg.writeSeq.toNat % 2 ^ 20 → look n c'.lines = look n c.lines) ∧
      t.lg.writeSeq = s.lg.writeSeq + 1 ∧ t.lg.outq = { u with left := more } :: rest ∧
      t.lg.live[provider].wear = s.lg.live[provider].wear + BitVec.ofNat 40 Tempo.lento.price ∧ t.pc = s.pc ∧ t.lg.sealedSeq = s.lg.sealedSeq) ∧
  (∀ s u rest l more ca cb k w, s.pc.drain = none → s.pc.reconciled = true → Still s → s.md.injArmed = false → s.lg.outq = u :: rest →
    u.left = l :: more → u.marker = false → s.lg.late = [] → s.duet.state = .mirror → (s.slot .a).serves = true → (s.slot .b).serves = true →
    (s.slot .a).cart = some ca → (s.slot .b).cart = some cb → inhibited s .a = true →
    ringReady s (.b, ringBase cb.big + s.lg.writeSeq.toNat % 2 ^ 20) = true →
    unitRoom s u = true → tagFree s .ledg provider = true → writesRun s = true → Gives (.ledgerWrite (some k :: w)) s fun t =>
      (∃ c', (t.slot .b).cart = some c' ∧ look (s.lg.writeSeq.toNat % 2 ^ 20) c'.ring = some (withSeq s.lg.writeSeq.toNat l)) ∧
      (t.slot .a).cart = some ca ∧ (∃ e, t.lg.late = [e] ∧ e.slot = .a ∧ e.seq = s.lg.writeSeq.toNat) ∧
      t.lg.writeSeq = s.lg.writeSeq + 1 ∧ t.lg.sealedSeq = s.lg.sealedSeq ∧
      t.lg.live[provider].wear = s.lg.live[provider].wear + BitVec.ofNat 40 Tempo.lento.price) ∧
  (∀ s u l c k w, s.pc.drain = none → s.pc.reconciled = true → Still s → s.md.injArmed = false → s.lg.outq = [u] → u.left = [l] → u.whole = [l] →
    u.marker = true → s.lg.late = [] → s.duet.state = .soloA → (s.slot .a).serves = true → (s.slot .b).serves = false →
    (s.slot .a).cart = some c → ringReady s (.a, ringBase c.big + s.lg.writeSeq.toNat % 2 ^ 20) = true → unitRoom s u = true →
    tagFree s .ledg provider = true → writesRun s = true → Gives (.ledgerWrite (some k :: w)) s fun t =>
      t.lg.sealedSeq = s.lg.sealedSeq + 1 ∧ t.lg.owed = s.lg.owed + 1 ∧ t.lg.outq = [] ∧ t.lg.writeSeq = s.lg.writeSeq + 1) ∧
  (∀ s w, s.lg.outq = [] → s.lg.late = [] → exec (.ledgerWrite w) s = .next { s with out := [] }) ∧
  (∀ s u rest, s.lg.outq = u :: rest → u.marker = false → u.left = [] → unitLate s u = false → (∀ v ∈ rest.head?, v.left ≠ []) →
    Gives .frameSealed s fun t => t.lg.sealedSeq = s.lg.sealedSeq + BitVec.ofNat 32 u.whole.length ∧
    t.lg.sealedMinute = BitVec.ofNat 32 u.minute ∧ t.lg.outq = rest ∧ t.lg.owed = 0 ∧ t.lg.live = s.lg.live ∧
    (∃ w ∈ t.ks.queue, w.kind.record = some 0x20) ∧ t.pc = s.pc) ∧
  (∀ s ch v, MayWrite ch 0x1438 s → (v - s.lg.consumed).toNat ≤ (s.lg.sealedSeq - s.lg.consumed).toNat →
    Gives (.lgConsumedSeqWrite ch v) s fun t => t.lg = { s.lg with consumed := v, ringHigh := t.lg.ringHigh } ∧ t.pc = s.pc ∧ t.tn = s.tn) ∧
  (∀ s ch v, MayWrite ch 0x1438 s → (s.lg.sealedSeq - s.lg.consumed).toNat < (v - s.lg.consumed).toNat → s.ev.logOpen = true →
    Gives (.lgConsumedSeqWrite ch v) s fun t => t.lg = { s.lg with rangeErr := true } ∧ ∃ e ∈ t.ev.intake, e.code = cRANGE ∧ e.unit = uLG) ∧
  (∀ s ch v, MayWrite ch 0x1418 s → sealing s = false → syncTime s v < 2 ^ 32 * 60000 → withinGuard (syncOffset s (syncTime s v)) = true →
    Gives (.timeSync ch v) s fun t => t.lg.slew = syncOffset s (syncTime s v) * sec1 / 1000 ∧ t.lg.offset = syncOffset s (syncTime s v) ∧
      t.lg.unsynced = false ∧ t.lg.syncAge = 0 ∧ t.lg.action = 1 ∧ t.lg.lgt = s.lg.lgt ∧ t.lg.epoch = s.lg.epoch ∧ t.lg.live = s.lg.live ∧
      (t.lg.slew ≠ 0 → bit t.lg.flags 2 = true) ∧ t = { s with out := [], lg := t.lg }) ∧
  (∀ s ch v, MayWrite ch 0x1418 s → syncTime s v < 2 ^ 32 * 60000 → withinGuard (syncOffset s (syncTime s v)) = false →
    s.lg.sealEnd = none → MinuteOpen s → framePending s = false → s.lg.merging = false → s.ev.logOpen = true →
    Gives (.timeSync ch v) s fun t => t.lg.slew = 0 ∧ t.lg.action = 2 ∧ t.lg.unsynced = false ∧ t.lg.syncAge = 0 ∧
      t.lg.lgt = s.lg.lgt ∧ t.lg.minute = s.lg.minute ∧ t.lg.live = s.lg.live ∧ (∃ k, t.lg.closing = some k ∧
        k.tick = s.now ∧ k.merge = false ∧ k.label = s.lg.minute ∧ k.extra = 1 ∧ k.next = minuteOf (ofMs (syncTime s v)) ∧ k.flags = 2 ∧
        k.step = some (ofMs (syncTime s v)) ∧ ∃ m, k.trail = [m] ∧ m.marker = true) ∧
      ∃ e ∈ t.ev.intake, e.code = cLEDGER_STEP) ∧
  (∀ s ch v k, MayWrite ch 0x1418 s → syncTime s v < 2 ^ 32 * 60000 → withinGuard (syncOffset s (syncTime s v)) = false →
    s.lg.sealEnd = none → s.lg.closing = some k → framePending s = false → s.lg.merging = false → Gives (.timeSync ch v) s fun t =>
      t.lg.lgt = s.lg.lgt ∧ t.lg.action = 2 ∧ ∃ k', t.lg.closing = some k' ∧ k'.next = minuteOf (ofMs (syncTime s v)) ∧
        k'.flags = k.flags ||| 2 ∧ k'.step = some (ofMs (syncTime s v)) ∧ k'.label = k.label ∧ k'.extra = k.extra ∧ k'.merge = k.merge ∧ ∃ m, k'.trail = k.trail ++ [m] ∧ m.marker = true) ∧
  (∀ s k x, s.pending = [] → s.pw.state.clocked = true → s.lg.closing = some k → k.step = some x → s.gl.ingress = [] →
    ∃ t, step s = .next t ∧ t.lg.lgt = x ∧ t.lg.epoch = (s.lg.epoch + 1) % 65536 ∧ t.lg.minute = k.next ∧ t.lg.closing = none) ∧
  (∀ s ch v, MayWrite ch 0x1418 s → 2 ^ 32 * 60000 ≤ syncTime s v → Gives (.timeSync ch v) s fun t => t.lg.lgt = s.lg.lgt ∧ t.lg.slew = s.lg.slew ∧
    t.lg.action = 3 ∧ t.lg.unsynced = s.lg.unsynced ∧ t.lg.epoch = s.lg.epoch ∧ t.lg.live = s.lg.live) ∧
  (∀ s ch v, MayWrite ch 0x1448 s → sealing s = false → exec (.latch ch v) s = .next { s with out := [], lg :=
    { s.lg with latched := addSums s.lg.cumul s.lg.totals, latchBusy := false } }) ∧
  (∀ s ch v, MayWrite ch 0x1448 s → sealing s = true → exec (.latch ch v) s = .next { s with out := [], lg := { s.lg with latchBusy := true } })

/-! ### DMA -/

/-- R189, R190, R195, R205, R206, R207, R208 (Tables 7.8, 7.10, 7.12): START begins a chain at HEAD; FERMATA holds a channel that still reads, pauses a
STARVED one and marks one that has read all; a HOLDING channel with an empty buffer is PAUSED, and RESUME takes it on; ABORT ends a descriptor
with ABORTED behind its coda and idles a channel without one, and a FERMATA of an ABORT's cycle has no effect; KICK and a doorbell fetch again; a request line's pulse is counted by each paced
channel that selects it. -/
def Obligations.DmaChannelCommands : Prop :=
  (∀ s ch n v, MayWrite ch (chBase n) s → startOk s n = true → (v ||| 1) &&& 0x1F = 1 → Gives (.start ch n v) s fun t =>
    t.dm.ch[n].state = .fetch ∧ t.dm.ch[n].cur = s.dm.ch[n].head ∧ t.dm.ch[n].code = cOK ∧ t.dm.ch[n].desc = none ∧
    t.dm.ch[n].beats = [] ∧ (∀ m, m ≠ n → t.dm.ch[m] = s.dm.ch[m]) ∧ t.pc = s.pc ∧ t.dm.sram = s.dm.sram) ∧
  (∀ s ch n v, MayWrite ch (chBase n) s → (v ||| 1) &&& 0x1F = 1 → startOk s n = false → s.ev.logOpen = true → Gives (.start ch n v) s fun t =>
    t.dm = { s.dm with ch := t.dm.ch } ∧ t.dm.ch[n] = { s.dm.ch[n] with wrongState := true } ∧
    ∃ e ∈ t.ev.intake, e.code = cWRONG_STATE ∧ e.unit = uDM) ∧
  (∀ s ch n v, MayWrite ch (chBase n) s → (v ||| 2) &&& 0x1F = 2 → (s.dm.ch[n].state = .active ∨ s.dm.ch[n].state = .wait ∨ s.dm.ch[n].state = .fetch) →
    allRead s.dm.ch[n] = false → s.dm.ch[n].abortAt ≠ some s.now → Gives (.fermata ch n v) s fun t =>
      t.dm.ch[n] = { s.dm.ch[n] with state := .holding, pauseNext := true, fermataAt := some s.now } ∧
      (∀ m, m ≠ n → t.dm.ch[m] = s.dm.ch[m]) ∧ t.pc = s.pc) ∧
  (∀ s ch n v, MayWrite ch (chBase n) s → (v ||| 2) &&& 0x1F = 2 → (s.dm.ch[n].state = .barrier ∨ s.dm.ch[n].state = .coda) →
    s.dm.ch[n].abortAt ≠ some s.now → exec (.fermata ch n v) s =
      .next (modCh n (fun c => { c with fermataLate := true, pauseNext := true, fermataAt := some s.now }) { s with out := [] })) ∧
  (∀ s ch n v, MayWrite ch (chBase n) s → (v ||| 2) &&& 0x1F = 2 → fermataOk s n = true → s.dm.ch[n].abortAt = some s.now →
    exec (.fermata ch n v) s = .next { s with out := [] }) ∧
  (∀ s ch n v, MayWrite ch (chBase n) s → (v ||| 2) &&& 0x1F = 2 → s.dm.ch[n].state = .starved →
    s.dm.ch[n].abortAt ≠ some s.now → Gives (.fermata ch n v) s fun t =>
    t.dm.ch[n] = { s.dm.ch[n] with state := .paused, desc := none } ∧ t.pc = s.pc) ∧
  (∀ s n, s.dm.ch[n].state = .holding → s.dm.ch[n].beats = [] → Gives (.pauseReached n) s fun t =>
    t.dm.ch[n] = { s.dm.ch[n] with state := .paused, pauseNext := false } ∧ (∀ m, m ≠ n → t.dm.ch[m] = s.dm.ch[m]) ∧ t.pc = s.pc) ∧
  (∀ s n, s.dm.ch[n].beats ≠ [] → exec (.pauseReached n) s = .next { s with out := [] }) ∧
  (∀ s ch n v, MayWrite ch (chBase n) s → (v ||| 4) &&& 0x1F = 4 → resumeOk s n = true →
    s.dm.ch[n].abortAt ≠ some s.now → Gives (.resume ch n v) s fun t =>
    (s.dm.ch[n].desc = none → t.dm.ch[n] = { s.dm.ch[n] with state := .fetch }) ∧
    (s.dm.ch[n].desc ≠ none → s.dm.ch[n].burstOpen = true → t.dm.ch[n] = { s.dm.ch[n] with state := .active }) ∧
    (s.dm.ch[n].desc ≠ none → s.dm.ch[n].burstOpen = false → s.dm.ch[n].paced = true → s.dm.ch[n].issued = 0 →
      t.dm.ch[n] = { s.dm.ch[n] with state := .wait }) ∧ t.pc = s.pc) ∧
  (∀ s ch n v, MayWrite ch (chBase n) s → (v ||| 8) &&& 0x1F = 8 → (s.dm.ch[n].state = .fetch ∨ s.dm.ch[n].state = .starved ∨ s.dm.ch[n].state = .halted) →
    s.dm.ch[n].fermataAt ≠ some s.now → reservedCh s n = false → Gives (.abort ch n v) s fun t =>
      t.dm.ch[n] = { s.dm.ch[n] with state := .idle, desc := none, idleNext := false, abortAt := some s.now } ∧ t.pc = s.pc) ∧
  (∀ s ch n v d, MayWrite ch (chBase n) s → (v ||| 8) &&& 0x1F = 8 → s.dm.ch[n].state = .active → s.dm.ch[n].desc = some d → s.dm.ch[n].beats = [] →
    Gives (.abort ch n v) s fun t => t.dm.ch[n].state = .coda ∧ t.dm.ch[n].endCode = some cABORTED ∧ t.dm.ch[n].idleNext = true ∧
      t.dm.ch[n].desc = some d ∧ t.pc = s.pc) ∧
  (∀ s ch n v, MayWrite ch (chBase n) s → (v ||| 16) &&& 0x1F = 16 → kickOk s n = true → Gives (.kick ch n v) s fun t =>
    t.dm.ch[n] = { s.dm.ch[n] with state := .fetch } ∧ t.pc = s.pc) ∧
  (∀ s ch n v, MayWrite ch (chBase n + 0x38) s → s.dm.ch[n].paced = true → s.dm.ch[n].reqSel = 0 → Gives (.doorbell ch n v) s fun t =>
    t.dm.ch[n].pending = min (s.dm.ch[n].pending + v.toNat % 65536) 65535 ∧
    t.dm.ch[n].state = (if s.dm.ch[n].state = .starved then .fetch else s.dm.ch[n].state) ∧ t.pc = s.pc) ∧
  (∀ s ch v, MayWrite ch 0x1808 s → Gives (.swRequest ch v) s fun t => (∀ n : Fin 32, t.dm.ch[n] =
    if s.dm.ch[n].paced && decide (8 ≤ s.dm.ch[n].reqSel.toNat) && decide (s.dm.ch[n].reqSel.toNat < 12) && bit v (s.dm.ch[n].reqSel.toNat - 8)
      then { s.dm.ch[n] with pending := min (s.dm.ch[n].pending + 1) 65535 } else s.dm.ch[n]) ∧
    t = { s with out := [], dm := { s.dm with ch := t.dm.ch } }) ∧
  (∀ s (pin : Fin 16) level, s.pw.state.clocked = true → Gives (.gpioRequest pin level) s fun t => bit t.pw.gpioIn pin.val = level ∧
    (bit s.pw.gpioIn pin.val = level → t.dm = s.dm) ∧
    (∀ (n : Fin 32) (k : Fin 4), bit s.pw.gpioIn pin.val ≠ level → s.dm.ch[n].paced = true → s.dm.ch[n].reqSel.toNat = 12 + k.val →
      fld s.dm.reqGpio (8 * k.val) 8 = 128 + (if level then 64 else 0) + pin.val →
      t.dm.ch[n] = { s.dm.ch[n] with pending := min (s.dm.ch[n].pending + 1) 65535 }) ∧ t.pc = s.pc)

/-- R189, R190, R192, R193, R195, R197, R198, R201, R203 (Tables 7.3, 7.6): a fetched descriptor that passes every check is in the channel with
nothing read yet; one not owned starves the channel, a malformed one ends with BAD_DESCRIPTOR, and a malformed NEXT halts it; a paced burst opens
for one request; the granted channel's beat is read, and one no longer allowed ends the descriptor; a beat is written where it goes, in order.
That the data of a host source come with BEAT_WRITE is the model's choice (log 52). -/
def Obligations.DmaFetchesBurstsAndBeats : Prop :=
  (∀ s (n : Fin 32) host d, s.dm.ch[n].state = .fetch → s.pc.drain = none → s.dm.ch[n].format = true → bit s.dm.ch[n].cur 0 = false →
    hasCredit s .nonPosted = true →
    d = descG7 (lineBytes host) → bit d.ctrl 31 = true → nextOk d = true → shapeOk s.dm.ch[n].copy (lineBytes host) d = true →
    selfRange s d = none → selfNext s d = false → fetchCode s d = none → Gives (.descriptorFetch n host) s fun t =>
      t.dm.ch[n].desc = some d ∧ t.dm.ch[n].state = (if s.dm.ch[n].paced then .wait else .active) ∧ t.dm.ch[n].remain = d.length ∧
      t.dm.ch[n].issued = 0 ∧ t.dm.ch[n].written = 0 ∧ t.dm.ch[n].beats = [] ∧ t.dm.ch[n].burstOpen = (!s.dm.ch[n].paced) ∧
      (∀ m, m ≠ n → t.dm.ch[m] = s.dm.ch[m]) ∧ t.pc = s.pc ∧ t.lg = s.lg) ∧
  (∀ s (n : Fin 32) host, s.dm.ch[n].state = .fetch → s.pc.drain = none → s.dm.ch[n].format = true → bit s.dm.ch[n].cur 0 = false →
    hasCredit s .nonPosted = true →
    bit (descG7 (lineBytes host)).ctrl 31 = false → Gives (.descriptorFetch n host) s fun t => t.dm.ch[n].state = .starved ∧
      t.dm.ch[n].cur = s.dm.ch[n].cur ∧ t.pc = s.pc) ∧
  (∀ s (n : Fin 32) host d, s.dm.ch[n].state = .fetch → s.pc.drain = none → s.dm.ch[n].format = true → bit s.dm.ch[n].cur 0 = false →
    hasCredit s .nonPosted = true →
    d = descG7 (lineBytes host) → bit d.ctrl 31 = true → nextOk d = false → s.dm.ch[n].group = 0 → Gives (.descriptorFetch n host) s fun t =>
      t.dm.ch[n].state = .halted ∧ t.dm.ch[n].code = cBAD_DESCRIPTOR ∧ t.out = []) ∧
  (∀ s (n : Fin 32) host d, s.dm.ch[n].state = .fetch → s.pc.drain = none → s.dm.ch[n].format = true → bit s.dm.ch[n].cur 0 = false →
    hasCredit s .nonPosted = true →
    d = descG7 (lineBytes host) → bit d.ctrl 31 = true → nextOk d = true → shapeOk s.dm.ch[n].copy (lineBytes host) d = false →
    s.dm.ch[n].group = 0 → s.dm.ch[n].beats = [] → Gives (.descriptorFetch n host) s fun t =>
      t.dm.ch[n].state = .coda ∧ t.dm.ch[n].endCode = some cBAD_DESCRIPTOR) ∧
  (∀ s (n : Fin 32), wantsBurst s.dm.ch[n] = true → s.pc.drain = none → s.dm.ch[n].copy = false → isLevel s.dm.ch[n].reqSel.toNat = false →
    0 < s.dm.ch[n].pending → unsealed s s.dm.ch[n] = false → Gives (.burstOpen n) s fun t => t.dm.ch[n] = { s.dm.ch[n] with
      burstOpen := true, burstLeft := s.dm.ch[n].burst.toNat, pending := s.dm.ch[n].pending - 1, state := .active } ∧
      (∀ m, m ≠ n → t.dm.ch[m] = s.dm.ch[m]) ∧ t.pc = s.pc) ∧
  (∀ s (n : Fin 32), wantsBurst s.dm.ch[n] = true → s.dm.ch[n].copy = false → isLevel s.dm.ch[n].reqSel.toNat = false → s.dm.ch[n].pending = 0 →
    exec (.burstOpen n) s = .next { s with out := [] }) ∧
  (∀ s n d, s.pc.drain = none → Settled s → granted s = some n → s.dm.ch[n].desc = some d → d.srcSpace = 0 → d.dstSpace ≠ 5 →
    beatCode s s.dm.ch[n] d (beatLen s s.dm.ch[n] d) = none → Gives (.beatRead {}) s fun t =>
      (∃ b, t.dm.ch[n].beats = s.dm.ch[n].beats ++ [b] ∧ b.src = d.src + s.dm.ch[n].issued ∧ b.dst = d.dst + s.dm.ch[n].issued ∧
        b.len = beatLen s s.dm.ch[n] d ∧ b.data = none ∧ b.cell = none ∧ b.tag = some (newTag s (chClass s.dm.ch[n]) d.who).id) ∧
      t.dm.ch[n].issued = s.dm.ch[n].issued + beatLen s s.dm.ch[n] d ∧ t.dm.ch[n].written = s.dm.ch[n].written ∧ t.lg = s.lg ∧ t.pc = s.pc) ∧
  (∀ s n d code, s.pc.drain = none → Settled s → granted s = some n → s.dm.ch[n].desc = some d → s.dm.ch[n].beats = [] →
    beatCode s s.dm.ch[n] d (beatLen s s.dm.ch[n] d) = some code → Gives (.beatRead {}) s fun t => t.dm.ch[n].endCode = some code ∧
      t.dm.ch[n].state = .coda ∧ t.dm.ch[n].issued = s.dm.ch[n].issued ∧ t.lg.live[d.who].errRefused = s.lg.live[d.who].errRefused + 1 ∧ t.gl.tags = s.gl.tags) ∧
  (∀ s, Settled s → granted s = none → exec (.beatRead {}) s = .next { s with out := [] }) ∧
  (∀ s (n : Fin 32) b rest d data host pz, s.pc.drain = none → s.dm.ch[n].state = .active → s.dm.ch[n].beats = b :: rest → s.dm.ch[n].desc = some d →
    d.dstSpace = 0 → b.data = some data → b.dropped = false → s.dm.ch[n].endCode = none → LinkOpen s → Gives (.beatWrite n host pz) s fun t =>
      t.out = [.hostWrite (BitVec.ofNat 64 b.dst) ((lineBytes data).take b.len) s.hl.relaxed b.poison] ∧ t.dm.ch[n].beats = rest ∧
      t.dm.ch[n].written = s.dm.ch[n].written + b.len ∧ t.dm.ch[n].bytes = s.dm.ch[n].bytes + b.len ∧
      t.dm.ch[n].state = (if rest = [] ∧ d.length ≤ s.dm.ch[n].written + b.len then (if d.barrier then .barrier else .coda) else .active) ∧ t.pc = s.pc) ∧
  (∀ s (n : Fin 32) b rest d host, s.pc.drain = none → s.dm.ch[n].state = .active → s.dm.ch[n].beats = b :: rest → s.dm.ch[n].desc = some d →
    d.dstSpace = 5 → b.data = none → b.cell = none → b.dropped = false → b.len ≤ txRoom s.sp0 → d.dst = 0 → Gives (.beatWrite n host false) s fun t =>
      t.sp0.tx = s.sp0.tx ++ (lineBytes host).take b.len ∧ t.dm.ch[n].beats = rest ∧ t.dm.ch[n].written = s.dm.ch[n].written + b.len ∧ t.sp1 = s.sp1)

/-- R203, R204, R205, R209, R210, R211, R238, R239 (Tables 7.5, 8.6): a barrier whose durability point is reached goes on to its coda; the coda
writes the status behind the descriptor and then its control word without OWN, counts the descriptor and takes the channel on; a bus error at a
fetch halts the channel, or every member of its group; a timeout is the same with AER's Completion Timeout; an unexpected completion is only
signalled. -/
def Obligations.DmaBarriersCodasAndErrors : Prop :=
  (∀ s (n : Fin 32) d, s.dm.ch[n].desc = some d → s.dm.ch[n].state = .barrier → s.pc.drain = none → barrierMet s n d = true →
    Gives (.barrierReached n) s fun t => t.dm.ch[n] = { s.dm.ch[n] with state := .coda, durable := true } ∧ t.pc = s.pc) ∧
  (∀ s (n : Fin 32) d, s.dm.ch[n].desc = some d → barrierMet s n d = false → exec (.barrierReached n) s = .next { s with out := [] }) ∧
  (∀ s (n : Fin 32) d, s.dm.ch[n].desc = some d → s.dm.ch[n].state = .coda → s.pc.drain = none → s.dm.ch[n].codaEn = true → bit s.dm.ch[n].cur 0 = false →
    s.dm.ch[n].copy = false → d.g5 = false → reservedCh s n = false → s.dm.ch[n].haltNext = false → s.dm.ch[n].pauseNext = false → s.dm.ch[n].idleNext = false →
    s.dm.ch[n].abortLate = false → LinkOpen s → Gives (.coda n) s fun t => t.out = [.hostWrite (s.dm.ch[n].cur + 48) (codaBytes s s.dm.ch[n] d) false false,
        .hostWrite s.dm.ch[n].cur (wordBytes (d.ctrl &&& 0x7FFFFFFF)) false false] ∧
      t.dm.ch[n].state = (if d.last then .idle else .fetch) ∧ t.dm.ch[n].cur = (if d.last then s.dm.ch[n].cur else d.next) ∧
      t.dm.ch[n].code = codaCode s.dm.ch[n] ∧ t.dm.ch[n].doneCount = s.dm.ch[n].doneCount + 1 ∧ t.dm.ch[n].desc = none ∧
      t.lg.live[d.who].ops = s.lg.live[d.who].ops + 1 ∧ t.dm.sram = s.dm.sram ∧ (∀ m, m ≠ n → t.dm.ch[m] = s.dm.ch[m])) ∧
  (∀ s (n : Fin 32) d, s.dm.ch[n].desc = some d → s.dm.ch[n].state ≠ .coda → exec (.coda n) s = .next { s with out := [] }) ∧
  (∀ s (n : Fin 32), s.dm.ch[n].state = .fetch → bit s.dm.ch[n].cur 0 = false → s.dm.ch[n].group = 0 → s.pc.drain = none → Gives (.busError n) s fun t =>
    t.dm.ch[n] = { s.dm.ch[n] with state := .halted, code := cBUS_ERROR, desc := none } ∧ t.out = [] ∧ (∀ m, m ≠ n → t.dm.ch[m] = s.dm.ch[m]) ∧ t.hl = s.hl) ∧
  (∀ s (n : Fin 32), s.dm.ch[n].state = .fetch → bit s.dm.ch[n].cur 0 = false → 1 ≤ s.dm.ch[n].group.toNat → s.dm.ch[n].group.toNat ≤ 4 → s.pc.drain = none →
    (∀ m : Fin 32, s.dm.ch[m].group = s.dm.ch[n].group → s.dm.ch[m].desc = none ∧ s.dm.ch[m].state ≠ .barrier ∧ s.dm.ch[m].state ≠ .coda) →
    Gives (.busError n) s fun t => bit t.dm.groupStop (s.dm.ch[n].group.toNat - 1) = true ∧
      (∀ m : Fin 32, s.dm.ch[m].group = s.dm.ch[n].group → t.dm.ch[m].state = .halted ∧ t.dm.ch[m].code = cBUS_ERROR) ∧
      (∀ m : Fin 32, s.dm.ch[m].group ≠ s.dm.ch[n].group → t.dm.ch[m] = s.dm.ch[m])) ∧
  (∀ s (n : Fin 32), s.dm.ch[n].state = .fetch → bit s.dm.ch[n].cur 0 = false → s.dm.ch[n].group = 0 → s.pc.drain = none →
    Gives (.completionTimeout n) s fun t => t.dm.ch[n].state = .halted ∧ t.dm.ch[n].code = cBUS_ERROR ∧ t.hl.pfAer.timeout = true ∧ t.pc = s.pc) ∧
  (∀ s (n : Fin 32), hostReadOut s.dm.ch[n] = false → exec (.completionTimeout n) s = .next { s with out := [] }) ∧
  (∀ s, exec .unexpectedCompletion s = .next { s with out := [], hl := { s.hl with pfAer := { s.hl.pfAer with unexpected := true } } })

/-! ### The keep store -/

/-- R268, R269, R270, R271, R272, R273, R276, R285, R286 (Tables 10.1, 10.2): KS_WDATA loads the channel's fill and advances KS_ADDR; KS_RDATA
returns the word at KS_ADDR; COMMIT forms the fill and DISCARD frees the buffer; a fill idle for 10 ms expires; a formed write starts and
programs its page; when it ends, the buffer is free, a secret written is loaded, and an accepted change takes effect. -/
def Obligations.KeepStoreFillsReadsAndWrites : Prop :=
  (∀ s ch v, MayWrite ch 0x3810 s → notTest s = true → wdataCode s ch.mgmt = none → (ksAddr s ch.mgmt) % 256 < 252 → s.ks.owner = .free →
    Gives (.ksWdata ch 0xF v) s fun t => t.ks.owner = fillOwner ch.mgmt ∧ t.ks.page = ksAddr s ch.mgmt / 256 ∧ t.ks.formed = false ∧
      t.ks.fillAt = s.now ∧ ksAddr t ch.mgmt = (ksAddr s ch.mgmt + 4) % 65536 ∧
      (∀ k : Fin 4, look (ksAddr s ch.mgmt % 256 + k.val) t.ks.bytes = some ((wordBytes v).getD k.val 0)) ∧ t.ks.mem = s.ks.mem ∧ t.pc = s.pc) ∧
  (∀ s ch v, MayWrite ch 0x3810 s → notTest s = true → userPage (ksAddr s ch.mgmt / 256) = false → s.ev.logOpen = true →
    Gives (.ksWdata ch 0xF v) s fun t => t.ks = { s.ks with lastResult := cPERMISSION } ∧ ∃ e ∈ t.ev.intake, e.code = cPERMISSION ∧ e.unit = uKS) ∧
  (∀ s ch, MayWrite ch 0x380C s → userPage (ksAddr s ch.mgmt / 256) = true → s.ks.busy = none → s.ks.weak = [] → s.ks.damaged = [] →
    Gives (.ksRdata ch) s fun t => t.out = [.regData ch 0x380C (ksWord s.ks (ksAddr s ch.mgmt / 4))] ∧
      ksAddr t ch.mgmt = (ksAddr s ch.mgmt + 4) % 65536 ∧ t.ks.mem = s.ks.mem ∧ t.ev = s.ev) ∧
  (∀ s ch v, MayWrite ch 0x3804 s → notTest s = true → ownsFill s ch.mgmt = true → v &&& 0x302 = 0 → exec (.commit ch v) s =
    .next { s with out := [], ks := { s.ks with formed := true } }) ∧
  (∀ s ch v, MayWrite ch 0x3804 s → notTest s = true → ownsFill s ch.mgmt = true → v &&& 0x300 = 0 → exec (.discard ch v) s =
    .next { s with out := [], ks := { s.ks with owner := .free, bytes := [], formed := false } }) ∧
  (∀ s, s.ks.owner = .host ∨ s.ks.owner = .sp0 → s.ks.formed = false → s.ks.fillAt + 10000000 ≤ s.now → s.ev.logOpen = true →
    Gives .ksBufExpired s fun t => t.ks.owner = .free ∧ t.ks.expired = true ∧ t.ks.queue = s.ks.queue ∧
      ∃ e ∈ t.ev.intake, e.code = cKS_BUF_EXPIRED ∧ e.unit = uKS) ∧
  (∀ s w, nextWrite s = some w → w.page < 0x40 ∨ 0xC0 < w.page → (∀ e ∈ w.bytes, e.1 < 256) → rsvdNj s + eKs ≤ s.pc.availNj → s.ks.damaged = [] →
    s.ks.weak = [] → (∀ n : Fin 32, s.dm.ch[n].endCode ≠ some cUNCORR_TARGET) → Gives .pageWriteStart s fun t => t.ks.busy = some w ∧
      t.ks.mem = program w.page w.bytes s.ks.mem ∧ (∀ a, a / 256 ≠ w.page → memRead factoryImage a t.ks.mem = memRead factoryImage a s.ks.mem) ∧
      t.ks.owner ≠ .free ∧ t.ks.energyWait = false ∧ t.pc = s.pc ∧ t.dm = s.dm) ∧
  (∀ s w, nextWrite s = some w → s.pc.availNj < rsvdNj s + eKs → (∀ n : Fin 32, s.dm.ch[n].endCode ≠ some cUNCORR_TARGET) →
    Gives .pageWriteStart s fun t => t.ks.energyWait = true ∧ t.ks.mem = s.ks.mem ∧ t.ks.busy = none ∧ t.ks.queue = s.ks.queue ∧
      t.ks.waits = s.ks.waits + (if s.ks.energyWait then 0 else 1)) ∧
  (∀ s w, s.ks.busy = some w → (w.kind = .totals ∨ w.kind = .bootRing ∨ w.kind = .settings ∨ w.kind = .fill) → s.ks.applying = [] → s.ks.restoreApply = none →
    Gives .pageWriteDone s fun t => t = { s with out := [], gl := t.gl, ks := { s.ks with
      busy := none, owner := .free, bytes := [], formed := false, before := [], writes := s.ks.writes + 1 } } ∧
      t.gl.ingress = s.gl.ingress ∧ t.gl.tags = s.gl.tags) ∧
  (∀ s w, s.ks.busy = some w → w.kind = .secretHost → ofLe (((pageBytes s.ks.mem 0).drop 0x80).take 4) = 0xA5C30001 → Gives .pageWriteDone s fun t =>
    t.cs.hostSet = true ∧ t.cs.hostPend = false ∧ t.cs.kHost = BitVec.ofNat 256 (ofLe (((pageBytes s.ks.mem 0).drop 0x40).take 32)) ∧
    t.ks.busy = none ∧ t.ks.owner = .free) ∧
  (∀ s w n, s.ks.busy = some w → w.kind = .acceptCommit → s.cs.state = .committing → s.cs.entries = [⟨0x4814, 0x1FF, n⟩] → s.cs.newKeys = [] →
    s.ks.queue = [] → s.ev.logOpen = true → Gives .pageWriteDone s fun t => t.cs.window = BitVec.ofNat 9 ((csValue s 0x4814 provider &&& ~~~ (0x1FF : Word)) ||| (n &&& 0x1FF)).toNat ∧
      t.cs.state = .idle ∧ t.cs.lastResult = cOK ∧ t.cs.lastNo = s.cs.chgNo ∧ (∃ e ∈ t.ev.intake, e.code = cCS_APPLIED ∧ e.d0 = s.cs.chgNo) ∧
      s.cs.chgNo ∈ t.ks.applying ∧ t.tn = s.tn) ∧
  (∀ s, s.ks.busy = none → Gives .pageWriteDone s fun t => t = { s with out := [], gl := t.gl } ∧ t.gl.ingress = s.gl.ingress ∧
    t.gl.tags = s.gl.tags)

/-! ### The serial ports -/

/-- The SDI bits of a frame without EXT: direction, toggle, the word index and the data. -/
def frameBits (rd toggle : Bool) (index : Fin 63) (data : List Bool) : List Bool :=
  [rd, toggle] ++ ((byteBits (BitVec.ofNat 8 index.val)).drop 2) ++ data

/-- R248, R254, R255, R256, R257, R258 (Tables 9.4, 9.6): a poll returns the status byte and changes nothing of the port; a write frame of one word
writes its register and a read frame returns it, each counted and kept for a repeat; a frame that repeats the kept one is answered as REPEATED and
executes nothing; one whose clock stands differently at its two select edges is rejected and touches no register.
That a command carries a whole frame is the model's choice (log 99). -/
def Obligations.SlaveFramesPollReadWriteAndReject : Prop :=
  (∀ s p sdi sck, takesFrames s p = true → sdi.length = 8 → bitsNat sdi % 64 ≠ 63 → (s.sp p).crcEn = false → Gives (.spPoll p sdi sck sck) s fun t =>
    t.out = [.sdo p (byteBits (statusByte s p))] ∧ t.sp p = s.sp p ∧ t.ks = s.ks ∧ t.ev = s.ev) ∧
  (∀ s tog v, takesFrames s .p0 = true → Serves s → s.sp0.crcEn = false → s.sp0.bulk = false → s.sp0.page = 0x44 → s.sp0.copy = none →
    Gives (.spWriteFrame .p0 (frameBits false tog 7 ((wordBytes v).flatMap byteBits)) false false) s fun t => t.ev.mod = storedMod v ∧
      t.sp0.toggle = tog ∧ t.sp0.status = 0 ∧ t.sp0.lastResult = cOK ∧ t.sp0.accepted = s.sp0.accepted + 1 ∧ t.sp0.rejected = s.sp0.rejected ∧
      t.out = [.sdo .p0 (byteBits (statusByte s .p0) ++ List.replicate 32 false)] ∧ t.sp1 = s.sp1 ∧ t.ks = s.ks) ∧
  (∀ s tog data, takesFrames s .p0 = true → Serves s → s.ev.logOpen = true → s.sp0.crcEn = false → s.sp0.bulk = false → s.sp0.page = 0x44 →
    s.sp0.copy = none → data.length = 32 → Gives (.spReadFrame .p0 (frameBits true tog 7 data) false false) s fun t =>
      t.out = [.sdo .p0 (byteBits (statusByte s .p0) ++ (wordBytes s.ev.mod).flatMap byteBits)] ∧ t.sp0.toggle = tog ∧ t.sp0.status = 0 ∧
      t.sp0.accepted = s.sp0.accepted + 1 ∧ t.ev = s.ev ∧ t.sp1 = s.sp1) ∧
  (∀ s p sdi tog sdo i data, takesFrames s p = true → sdi = frameBits false tog i data → data.length = 8 → (s.sp p).crcEn = false →
    (s.sp p).bulk = false → (s.sp p).copy = some ⟨tog, sdi, sdo⟩ → Gives (.spWriteFrame p sdi false false) s fun t => (t.sp p).status = 4 ∧
      (t.sp p).accepted = (s.sp p).accepted + 1 ∧ (t.sp p).copy = (s.sp p).copy ∧ t.ev = s.ev ∧ t.ks = s.ks ∧ t.tn = s.tn) ∧
  (∀ s p sdi, takesFrames s p = true → Gives (.spWriteFrame p sdi false true) s fun t => (t.sp p).status = 1 ∧ (t.sp p).rejectSeen = true ∧
    (t.sp p).rejected = (s.sp p).rejected + 1 ∧ (t.sp p).accepted = (s.sp p).accepted ∧ (t.sp p).copy = (s.sp p).copy ∧ t.ks = s.ks ∧ t.ev = s.ev ∧
    t.tn = s.tn ∧ t.cs = s.cs ∧ t.pc = s.pc)

/-- R245, R261, R262, R263 (Tables 9.12, 9.13): a MODE change takes effect when the port is free; a master transaction starts with its length and
settings, moves a byte each way and ends with OK, or after 10 ms without a byte to move with TIMEOUT; the flushes empty their FIFO; the local
side of SPn_DATA pushes TX and pops RX. -/
def Obligations.SerialMastersAndFifos : Prop :=
  (∀ s p m, (s.sp p).modeNext = some m → (s.sp p).txn = none → (s.sp p).inFrame = false → (s.sp p).heldSel = none → exec (.spModeChange p) s =
    .next (modSp p (fun q => { q with master := m, modeNext := none, copy := none, heldSel := none }) { s with out := [] })) ∧
  (∀ s p m, (s.sp p).modeNext = some m → (s.sp p).txn.isSome = true → exec (.spModeChange p) s = .next { s with out := [] }) ∧
  (∀ s ch p v, MayWrite ch (spBase p + 0x20) s → notTest s = true → (s.sp p).master = true → (s.sp p).txn = none → (s.sp p).heldSel = none →
    1 ≤ fld v 0 13 → fld v 0 13 ≤ 4096 → bit v 21 = false → exec (.masterTransaction ch p v) s = .next (modSp p (fun q => { q with txn := some (SpTx.mk (fld v 0 13) false
        (BitVec.ofNat 5 (fld v 16 5)) (bit v 22) (bit v 23) s.now) }) { s with out := [] })) ∧
  (∀ s p x b rest sdo, (s.sp p).txn = some x → x.len = 8 → x.autoSel = false → x.noRx = false → (s.sp p).tx = b :: rest → (s.sp p).rx.length < 256 →
    sdo.length = 8 → Gives (.masterTransactionEnd p sdo) s fun t => t.out = [.sdo p (byteBits b)] ∧ (t.sp p).tx = rest ∧
      (t.sp p).rx = (s.sp p).rx ++ [BitVec.ofNat 8 (bitsNat sdo)] ∧ (t.sp p).txn = none ∧ (t.sp p).lastResult = cOK ∧ t.ks = s.ks ∧ t.pc = s.pc) ∧
  (∀ s p x, (s.sp p).txn = some x → x.autoSel = false → 0 < x.len → (s.sp p).tx = [] → x.start + 10000000 ≤ s.now → Gives (.stretchTimeout p) s fun t =>
    (t.sp p).txn = none ∧ (t.sp p).lastResult = cTIMEOUT ∧ (t.sp p).rx = (s.sp p).rx ∧ t.ks = s.ks) ∧
  (∀ s p x, (s.sp p).txn = some x → s.now < x.start + 10000000 → exec (.stretchTimeout p) s = .next { s with out := [] }) ∧
  (∀ s ch p v, MayWrite ch (spBase p + 0x18) s → notTest s = true → (s.sp p).txn = none → (s.sp p).inFrame = false → bit v 24 = false →
    1 ≤ fld v 16 8 → 1 ≤ fld v 0 8 → exec (.flushTx ch p v) s = .next (modSp p (fun q =>
      { q with tx := [], txThresh := BitVec.ofNat 8 (fld v 16 8), rxThresh := BitVec.ofNat 8 (fld v 0 8) }) { s with out := [] })) ∧
  (∀ s ch p v, MayWrite ch (spBase p + 0x18) s → notTest s = true → (s.sp p).txn = none → (s.sp p).inFrame = false → bit v 25 = false →
    1 ≤ fld v 16 8 → 1 ≤ fld v 0 8 → exec (.flushRx ch p v) s = .next (modSp p (fun q =>
      { q with rx := [], txThresh := BitVec.ofNat 8 (fld v 16 8), rxThresh := BitVec.ofNat 8 (fld v 0 8) }) { s with out := [] })) ∧
  (∀ s p v, MayWrite .bar0 (spBase p + 0x10) s → (s.sp p).tx.length + 4 ≤ 256 → exec (.spDataAccess .bar0 p true 0xF v) s =
    .next (modSp p (fun q => { q with tx := q.tx ++ wordBytes v }) { s with out := [] })) ∧
  (∀ s p v, MayWrite .bar0 (spBase p + 0x10) s → 4 ≤ (s.sp p).rx.length → exec (.spDataAccess .bar0 p false 0xF v) s =
    .next (modSp p (fun q => { q with rx := q.rx.drop 4 }) { s with out := [.regData .bar0 (BitVec.ofNat 16 (spBase p + 0x10))
      (BitVec.ofNat 32 (ofLe ((s.sp p).rx.take 4)))] })) ∧
  (∀ s v, MayWrite .sp0 0x3410 s → s.sp0.rx.length + 4 ≤ 256 → exec (.spDataAccess .sp0 .p0 true 0xF v) s =
    .next { s with out := [], sp0 := { s.sp0 with rx := s.sp0.rx ++ wordBytes v } })

/-! ### Events, interrupts and trace -/

/-- R252, R342, R343, R344, R346, R347, R352 (Tables 13.7, 13.9): EV_POP and EV_RD_SEQ move the writing channel's view alone, within the log; a
read of entry word 0 latches the entry; EV_ROUTE sets the route of the indexed code, TENANT of PWF and POISON_MERGE staying set; a mark is
recorded with its channel; EV_TRACE_SEL over SP0, and a host read of EV_TRACE_DATA0, fetch the selected entry; a tenant's window pops and latches its own
queue. -/
def Obligations.EventViewsRoutesAndTraceReads : Prop :=
  (∀ s ch v, MayWrite ch 0x440C s → Gives (.evPop ch v) s fun t => evView t ch = { evView s ch with
      rdSeq := min s.ev.wrSeq ((evView s ch).rdSeq + (if fld v 0 11 = 0 then 1 else min 1024 (fld v 0 11))) } ∧
    (ch.mgmt = true → t.ev.host = s.ev.host) ∧ (ch.mgmt = false → t.ev.mgmt = s.ev.mgmt) ∧
    t = { s with out := [], ev := { s.ev with host := t.ev.host, mgmt := t.ev.mgmt } }) ∧
  (∀ s ch v, MayWrite ch 0x4408 s → (lo32 s.ev.wrSeq - v).toNat ≤ 1024 → (lo32 s.ev.wrSeq - v).toNat ≤ s.ev.wrSeq → Gives (.evRdSeqWrite ch v) s fun t =>
    (evView t ch).rdSeq + (lo32 s.ev.wrSeq - v).toNat = s.ev.wrSeq ∧ (evView t ch).lost = (evView s ch).lost ∧ t.ev.log = s.ev.log ∧ t.pc = s.pc) ∧
  (∀ s ch v, MayWrite ch 0x4408 s → 1024 < (lo32 s.ev.wrSeq - v).toNat → s.ev.logOpen = true → Gives (.evRdSeqWrite ch v) s fun t =>
    evView t ch = evView s ch ∧ ∃ e ∈ t.ev.intake, e.code = cRANGE ∧ e.unit = uEV) ∧
  (∀ s ch e, MayWrite ch 0x4460 s → s.ev.logOpen = true → viewEntry s (evView s ch) = some e → Gives (.evEntryLatch ch) s fun t =>
    t.out = [.regData ch 0x4460 (BitVec.ofNat 32 e.seq)] ∧ evView t ch = { evView s ch with latch := some e } ∧ t.ev.log = s.ev.log ∧ t.pc = s.pc) ∧
  (∀ s ch v, MayWrite ch 0x4418 s → Gives (.evRouteWrite ch v) s fun t =>
    routeOf t s.ev.routeIdx = (if s.ev.routeIdx = cPWF ∨ s.ev.routeIdx = cPOISON_MERGE then v.setWidth 8 ||| 0x40 else v.setWidth 8) ∧
    (∀ code : BitVec 8, code ≠ s.ev.routeIdx → routeOf t code = routeOf s code) ∧ t = { s with out := [], ev := { s.ev with routes := t.ev.routes } }) ∧
  (∀ s ch v, MayWrite ch 0x4424 s → s.ev.logOpen = true → bit s.ev.traceEn 6 = true → Gives (.evTraceMark ch v) s fun t =>
    t.ev.trace.getLast? = some ⟨s.now, 0x06, BitVec.ofNat 8 ch.num, v, 0⟩ ∧ t.ev.log = s.ev.log ∧ t.pc = s.pc) ∧
  (∀ s v, MayWrite .sp0 0x4430 s → bit v 31 = false → Gives (.evTraceSelWrite .p0 v) s fun t =>
    t.ev = { s.ev with selCart := false, selIndex := BitVec.ofNat 18 (fld v 0 18), fetching := false, data := t.ev.data } ∧
    t.ev.data = some (sramEntry s (fld v 0 18 % 4096)) ∧ t.pc = s.pc) ∧
  (∀ s v, Serves s → s.sp1.master = false → s.ev.logOpen = true → Gives (.evTraceSelWrite .p1 v) s fun t => t.ev.selIndex = s.ev.selIndex ∧
    t.ev.data = s.ev.data ∧ ∃ e ∈ t.ev.intake, e.code = cPERMISSION ∧ e.unit = uEV) ∧
  (∀ s, MayWrite .bar0 0x4438 s → s.ev.logOpen = true → s.ev.selCart = false → Gives (.traceDataFetch .bar0) s fun t =>
    t.out = [.regData .bar0 0x4438 (trWord (sramEntry s (s.ev.selIndex.toNat % 4096)) 0)] ∧
    t.ev = { s.ev with fetching := false, data := some (sramEntry s (s.ev.selIndex.toNat % 4096)) } ∧ t.pc = s.pc) ∧
  (∀ s (n : Fin 128) v, Serves s → exec (.twEvPop n v) s = .next (modTenant (ofTenant n) (fun q => { q with queue := q.queue.drop 1 }) { s with out := [] })) ∧
  (∀ s (n : Fin 128) e rest, Serves s → (s.tenant (ofTenant n)).queue = e :: rest → exec (.twEvEntryLatch n) s =
    .next (modTenant (ofTenant n) (fun q => { q with qLatch := some e }) { s with out := [.regData .bar0 0x0C0 (BitVec.ofNat 32 e.seq)] }))

/-- R341, R343, R344, R345, R348, R352, R353 (Tables 13.1, 13.3): the oldest waiting event is written to the log with the next sequence number, and
copied to its tenant's queue where its route says TENANT; a vector with a cause sends its message, or becomes pending while it is masked; three
unspilled trace entries become a line of the trace area with the next SPILL_SEQ, for one moderato line of wear. -/
def Obligations.EventsAreLoggedSignalledAndSpilled : Prop :=
  (∀ s e rest, s.pw.state.clocked = true → s.ev.logOpen = true → s.ev.intake = e :: rest → Gives .eventLogWrite s fun t =>
    t.ev.log = lastN 1024 (s.ev.log ++ [{ e with seq := s.ev.wrSeq, alert := bit (entryRoute s e) 7 }]) ∧ t.ev.wrSeq = s.ev.wrSeq + 1 ∧
    t.ev.intake = rest ∧ (∀ c : Ctx, e.ctx = ctxByte c → c ≠ provider → bit (entryRoute s e) 6 = true → (s.tenant c).queue = [] →
      (t.tenant c).queue = [{ e with seq := s.ev.wrSeq, alert := bit (entryRoute s e) 7 }]) ∧
    (bit (entryRoute s e) 6 = false → t.tn = s.tn) ∧ t.pc = s.pc ∧ t.ks = s.ks) ∧
  (∀ s, s.ev.intake = [] → exec .eventLogWrite s = .next { s with out := [] }) ∧
  (∀ s (i : Fin 192), s.pw.state.clocked = true → 128 ≤ i.val → s.hl.pfVec[i].cause = true → s.hl.pfVec[i].last = none → msixOn s .pf = true →
    s.hl.pfVec[i].masked = false → fnMasked s .pf = false → LinkOpen s → Gives (.msixMessage .pf i) s fun t => t.out = [.msix .pf i.val] ∧
      t.hl.pfVec[i].cause = false ∧ t.hl.pfVec[i].pending = false ∧ t.hl.pfVec[i].last = some s.now ∧ (∀ j : Fin 192, j ≠ i → t.hl.pfVec[j] = s.hl.pfVec[j])) ∧
  (∀ s (i : Fin 192), s.pw.state.clocked = true → 128 ≤ i.val → s.hl.pfVec[i].cause = true → s.hl.pfVec[i].last = none → msixOn s .pf = true →
    s.hl.pfVec[i].masked = true → Gives (.msixMessage .pf i) s fun t => t.out = [] ∧ t.hl.pfVec[i].cause = false ∧ t.hl.pfVec[i].pending = true) ∧
  (∀ s (v : Fin 128), s.pw.state.clocked = true → s.hl.vfVec[v].cause = true → s.hl.vfVec[v].last = none → msixOn s (.vf v) = true →
    s.hl.vfVec[v].masked = false → fnMasked s (.vf v) = false → LinkOpen s → Gives (.msixMessage (.vf v) 0) s fun t => t.out = [.msix (.vf v) 0] ∧
      t.hl.vfVec[v].cause = false ∧ t.hl.pfVec = s.hl.pfVec) ∧
  (∀ s c cl k w, booting s = false → s.pw.state.clocked = true → s.pc.drain = none → s.ev.logOpen = true → s.ev.traceScan = false →
    spillWaits s = false → tagFree s .int provider = true → s.ev.spillLost = 0 → 3 ≤ s.ev.unspilled.length → (s.slot .a).cart = some c →
    cl = traceBase c.big + s.ev.spillSeq % 65536 → spillTo s = [(.a, cl)] → ringReady s (.a, cl) = true → Still s → s.md.injArmed = false →
    Gives (.traceSpill (some k :: w)) s fun t => t.ev.unspilled = s.ev.unspilled.drop 3 ∧ t.ev.spillSeq = (s.ev.spillSeq + 1) % 2 ^ 32 ∧
      (∃ c', (t.slot .a).cart = some c' ∧ look (s.ev.spillSeq % 65536) c'.trace =
        some (traceLine s.ev.spillSeq s.ks.bootCount.toNat (s.ev.unspilled.take 3)) ∧ ∀ n, n ≠ cl → look n c'.lines = look n c.lines) ∧
      t.lg.live[provider].wear = s.lg.live[provider].wear + BitVec.ofNat 40 Tempo.moderato.price ∧ t.pc = s.pc) ∧
  (∀ s w, s.ev.traceScan = false → s.ev.spillLost = 0 → s.ev.unspilled = [] → exec (.traceSpill w) s = .next { s with out := [] })

/-! ### The register map -/

/-- R8, R9, R223, R245, R260 (Tables 2.17, 5.7, 8.13, 1.16): HL_APERTURE keeps the slot size within 30 to 37 for the next PERST_N release and records it;
TN_INDEX takes 0 to 0x80 for its own channel and refuses more; GL_AGE_LIMIT keeps at least 4; a write of one byte leaves the others; a write
in the wrong state changes nothing but the sticky bit and the event; SP1 as a slave refuses every write. -/
def Obligations.RegisterWritesAreStoredOrRefused : Prop :=
  (∀ s ch v, MayWrite ch 0x3008 s → notTest s = true → Gives (.apertureWrite ch v) s fun t =>
    t.hl.slotLog2.toNat = max 30 (min 37 (v.toNat % 64)) ∧ t.hl = { s.hl with slotLog2 := t.hl.slotLog2 } ∧
    (∃ w ∈ t.ks.queue, w.kind = .settings) ∧ t.ks.mem = s.ks.mem ∧ t.tn = s.tn ∧ t.pc = s.pc ∧ t.ev = s.ev) ∧
  (∀ s ch v, MayWrite ch 0x3008 s → notTest s = false → s.ev.logOpen = true → Gives (.apertureWrite ch v) s fun t =>
    t.hl = { s.hl with wrongState := true } ∧ t.ks = s.ks ∧ (∃ e ∈ t.ev.intake, e.code = cWRONG_STATE ∧ e.unit = uHL) ∧ t.tn = s.tn) ∧
  (∀ s v, MayWrite .bar0 0x1000 s → v.toNat % 256 ≤ 0x80 → exec (.registerWrite .bar0 0x1000 0xF v) s =
    .next { s with out := [], tn := { s.tn with indexHost := v.setWidth 8 } }) ∧
  (∀ s v, MayWrite .sp0 0x1000 s → v.toNat % 256 ≤ 0x80 → exec (.registerWrite .sp0 0x1000 0xF v) s =
    .next { s with out := [], tn := { s.tn with indexMgmt := v.setWidth 8 } }) ∧
  (∀ s v, MayWrite .bar0 0x1000 s → 0x80 < v.toNat % 256 → s.ev.logOpen = true → Gives (.registerWrite .bar0 0x1000 0xF v) s fun t =>
    t.tn = s.tn ∧ (∃ e ∈ t.ev.intake, e.code = cRANGE ∧ e.unit = uTN) ∧ t.pc = s.pc ∧ t.hl = s.hl) ∧
  (∀ s v, MayWrite .bar0 0x0054 s → notTest s = true → exec (.registerWrite .bar0 0x0054 0xF v) s =
    .next { s with out := [], gl := { s.gl with ageLimit := BitVec.ofNat 8 (max 4 (v.toNat % 256)) } }) ∧
  (∀ s v, MayWrite .bar0 0x0438 s → exec (.registerWrite .bar0 0x0438 0x1 v) s =
    .next { s with out := [], pc := { s.pc with lowwater := (s.pc.lowwater &&& 0x3FF00) ||| (v.setWidth 18 &&& 0xFF) } }) ∧
  (∀ s v, reaches s .sp0 = true → s.pw.state = .boot ∨ s.pw.state = .replay → s.ev.logOpen = true → Gives (.registerWrite .sp0 0x0054 0xF v) s fun t =>
    t.gl = { s.gl with stall := { s.gl.stall with wrongState := true } } ∧ (∃ e ∈ t.ev.intake, e.code = cWRONG_STATE ∧ e.unit = uGL) ∧
    t.pc = s.pc ∧ t.tn = s.tn ∧ t.hl = s.hl ∧ t.ks = s.ks) ∧
  (∀ s (off : BitVec 16) v b, reaches s .sp1 = true → off.toNat < 0x8000 → blockOf off.toNat = some b → s.ev.logOpen = true →
    Gives (.registerWrite .sp1 off 0xF v) s fun t => (∃ e ∈ t.ev.intake, e.code = cPERMISSION ∧ e.unit = b.unit) ∧ t.gl = s.gl ∧ t.pc = s.pc ∧
      t.md = s.md ∧ t.tn = s.tn ∧ t.lg = s.lg ∧ t.dm = s.dm ∧ t.hl = s.hl ∧ t.cs = s.cs ∧ t.sp0 = s.sp0 ∧ t.sp1 = s.sp1)

/-- R377 (with R6, R8, R385): a reserved offset of the G7 map reads zero, and a write of it changes nothing, slot B's 0x0F00 to 0x0F14 among
them (the offsets that Tables 15.2 to 15.9 list are written out); and a register with read-to-clear fields shows them, and the bytes read fall to zero, or to the present value where a peak is kept. -/
def Obligations.ReservedOffsetsReadZeroAndReadsClear : Prop :=
  (∀ s ch (off : BitVec 16) be, (ch = .bar0 ∨ ch = .sp0 ∨ ch = .sp1) → reaches s ch = true → off.toNat < 0x8000 → off.toNat % 4 = 0 →
    blockOf off.toNat = none → exec (.readClear ch off be) s = .next { s with out := [.regData ch off 0] }) ∧
  (∀ s ch (off : BitVec 16) be v, (ch = .bar0 ∨ ch = .sp0 ∨ ch = .sp1) → off.toNat < 0x8000 → off.toNat % 4 = 0 → blockOf off.toNat = none →
    exec (.registerWrite ch off be v) s = .next { s with out := [] }) ∧
  (∀ off ∈ [0x0F00, 0x0F04, 0x0F08, 0x0F0C, 0x0F10, 0x0F14], blockOf off = none) ∧
  (∀ off : Nat, off < 0x8000 → off % 4 = 0 → (blockOf off = none ↔
    ¬ ((∃ p ∈ [(0x0000, 0x0008), (0x0010, 0x0018), (0x0020, 0x005C), (0x0400, 0x0440), (0x0800, 0x0840), (0x0C00, 0x0C3C), (0x0D00, 0x0D14),
          (0x0E00, 0x0E3C), (0x1000, 0x1038), (0x1400, 0x1448), (0x1450, 0x149C), (0x14C0, 0x150C), (0x1800, 0x1814), (0x3000, 0x3020),
          (0x3400, 0x3428), (0x3500, 0x3528), (0x3800, 0x3824), (0x3C00, 0x3C50), (0x4000, 0x402C), (0x4040, 0x4050), (0x4400, 0x4444),
          (0x4460, 0x447C), (0x4800, 0x482C), (0x4840, 0x485C)], p.1 ≤ off ∧ off ≤ p.2) ∨
        (0x2000 ≤ off ∧ off < 0x3000 ∧ off % 0x80 ≤ 0x48) ∨ (0x4880 ≤ off ∧ off < 0x4980 ∧ off % 16 ≠ 12)))) ∧
  (∀ s, Serves s → exec (.readClear .bar0 0x0814 0xF) s =
    .next { s with out := [.regData .bar0 0x0814 (BitVec.ofNat 32 (min s.md.errCorr 0xFFFFFFFF))], md := { s.md with errCorr := 0 } }) ∧
  (∀ s, Serves s → exec (.readClear .bar0 0x301C 0x4) s =
    .next { s with out := [.regData .bar0 0x301C (BitVec.ofNat 32 (min s.hl.hotCount 255 * 65536))], hl := { s.hl with hotCount := 0 } }) ∧
  (∀ s, Serves s → Gives (.readClear .bar0 0x402C 0xF) s fun t => t = { s with out := t.out, pw := { s.pw with tjPeak := s.pw.tj } })
end

