-- ==== Sys2Proof/Laws/State.lean ====
section
/-! SUPPORT. What the shared operations leave alone, field by field: the lemmas a proof cites instead of unfolding a record update. -/

namespace Sys2Proof.Machine

variable (s : State)

@[simp] theorem emit_now (o : Out) : (emit o s).now = s.now := rfl
@[simp] theorem emit_gl (o : Out) : (emit o s).gl = s.gl := rfl
@[simp] theorem emit_pc (o : Out) : (emit o s).pc = s.pc := rfl
@[simp] theorem emit_ct (o : Out) : (emit o s).ct = s.ct := rfl
@[simp] theorem emit_duet (o : Out) : (emit o s).duet = s.duet := rfl
@[simp] theorem emit_md (o : Out) : (emit o s).md = s.md := rfl
@[simp] theorem emit_tn (o : Out) : (emit o s).tn = s.tn := rfl
@[simp] theorem emit_cs (o : Out) : (emit o s).cs = s.cs := rfl
@[simp] theorem emit_lg (o : Out) : (emit o s).lg = s.lg := rfl
@[simp] theorem emit_dm (o : Out) : (emit o s).dm = s.dm := rfl
@[simp] theorem emit_hl (o : Out) : (emit o s).hl = s.hl := rfl
@[simp] theorem emit_sp0 (o : Out) : (emit o s).sp0 = s.sp0 := rfl
@[simp] theorem emit_sp1 (o : Out) : (emit o s).sp1 = s.sp1 := rfl
@[simp] theorem emit_ks (o : Out) : (emit o s).ks = s.ks := rfl
@[simp] theorem emit_bt (o : Out) : (emit o s).bt = s.bt := rfl
@[simp] theorem emit_pw (o : Out) : (emit o s).pw = s.pw := rfl
@[simp] theorem emit_ev (o : Out) : (emit o s).ev = s.ev := rfl
@[simp] theorem emit_shelf (o : Out) : (emit o s).shelf = s.shelf := rfl
@[simp] theorem emit_egress (o : Out) : (emit o s).egress = s.egress := rfl
@[simp] theorem emit_freeCtr (o : Out) : (emit o s).freeCtr = s.freeCtr := rfl
@[simp] theorem emit_pending (o : Out) : (emit o s).pending = s.pending := rfl

@[simp] theorem nextFree_now : (nextFree s).now = s.now := rfl
@[simp] theorem nextFree_gl : (nextFree s).gl = s.gl := rfl
@[simp] theorem nextFree_pc : (nextFree s).pc = s.pc := rfl
@[simp] theorem nextFree_ct : (nextFree s).ct = s.ct := rfl
@[simp] theorem nextFree_duet : (nextFree s).duet = s.duet := rfl
@[simp] theorem nextFree_md : (nextFree s).md = s.md := rfl
@[simp] theorem nextFree_tn : (nextFree s).tn = s.tn := rfl
@[simp] theorem nextFree_cs : (nextFree s).cs = s.cs := rfl
@[simp] theorem nextFree_lg : (nextFree s).lg = s.lg := rfl
@[simp] theorem nextFree_dm : (nextFree s).dm = s.dm := rfl
@[simp] theorem nextFree_hl : (nextFree s).hl = s.hl := rfl
@[simp] theorem nextFree_sp0 : (nextFree s).sp0 = s.sp0 := rfl
@[simp] theorem nextFree_sp1 : (nextFree s).sp1 = s.sp1 := rfl
@[simp] theorem nextFree_ks : (nextFree s).ks = s.ks := rfl
@[simp] theorem nextFree_bt : (nextFree s).bt = s.bt := rfl
@[simp] theorem nextFree_pw : (nextFree s).pw = s.pw := rfl
@[simp] theorem nextFree_ev : (nextFree s).ev = s.ev := rfl
@[simp] theorem nextFree_shelf : (nextFree s).shelf = s.shelf := rfl
@[simp] theorem nextFree_egress : (nextFree s).egress = s.egress := rfl
@[simp] theorem nextFree_out : (nextFree s).out = s.out := rfl
@[simp] theorem nextFree_pending : (nextFree s).pending = s.pending := rfl

@[simp] theorem modSlot_now (x : Slot) (f : CtSlot → CtSlot) : (modSlot x f s).now = s.now := by cases x <;> rfl
@[simp] theorem modSlot_gl (x : Slot) (f : CtSlot → CtSlot) : (modSlot x f s).gl = s.gl := by cases x <;> rfl
@[simp] theorem modSlot_pc (x : Slot) (f : CtSlot → CtSlot) : (modSlot x f s).pc = s.pc := by cases x <;> rfl
@[simp] theorem modSlot_duet (x : Slot) (f : CtSlot → CtSlot) : (modSlot x f s).duet = s.duet := by cases x <;> rfl
@[simp] theorem modSlot_md (x : Slot) (f : CtSlot → CtSlot) : (modSlot x f s).md = s.md := by cases x <;> rfl
@[simp] theorem modSlot_tn (x : Slot) (f : CtSlot → CtSlot) : (modSlot x f s).tn = s.tn := by cases x <;> rfl
@[simp] theorem modSlot_cs (x : Slot) (f : CtSlot → CtSlot) : (modSlot x f s).cs = s.cs := by cases x <;> rfl
@[simp] theorem modSlot_lg (x : Slot) (f : CtSlot → CtSlot) : (modSlot x f s).lg = s.lg := by cases x <;> rfl
@[simp] theorem modSlot_dm (x : Slot) (f : CtSlot → CtSlot) : (modSlot x f s).dm = s.dm := by cases x <;> rfl
@[simp] theorem modSlot_hl (x : Slot) (f : CtSlot → CtSlot) : (modSlot x f s).hl = s.hl := by cases x <;> rfl
@[simp] theorem modSlot_sp0 (x : Slot) (f : CtSlot → CtSlot) : (modSlot x f s).sp0 = s.sp0 := by cases x <;> rfl
@[simp] theorem modSlot_sp1 (x : Slot) (f : CtSlot → CtSlot) : (modSlot x f s).sp1 = s.sp1 := by cases x <;> rfl
@[simp] theorem modSlot_ks (x : Slot) (f : CtSlot → CtSlot) : (modSlot x f s).ks = s.ks := by cases x <;> rfl
@[simp] theorem modSlot_bt (x : Slot) (f : CtSlot → CtSlot) : (modSlot x f s).bt = s.bt := by cases x <;> rfl
@[simp] theorem modSlot_pw (x : Slot) (f : CtSlot → CtSlot) : (modSlot x f s).pw = s.pw := by cases x <;> rfl
@[simp] theorem modSlot_ev (x : Slot) (f : CtSlot → CtSlot) : (modSlot x f s).ev = s.ev := by cases x <;> rfl
@[simp] theorem modSlot_shelf (x : Slot) (f : CtSlot → CtSlot) : (modSlot x f s).shelf = s.shelf := by cases x <;> rfl
@[simp] theorem modSlot_egress (x : Slot) (f : CtSlot → CtSlot) : (modSlot x f s).egress = s.egress := by cases x <;> rfl
@[simp] theorem modSlot_out (x : Slot) (f : CtSlot → CtSlot) : (modSlot x f s).out = s.out := by cases x <;> rfl
@[simp] theorem modSlot_freeCtr (x : Slot) (f : CtSlot → CtSlot) : (modSlot x f s).freeCtr = s.freeCtr := by cases x <;> rfl
@[simp] theorem modSlot_pending (x : Slot) (f : CtSlot → CtSlot) : (modSlot x f s).pending = s.pending := by cases x <;> rfl

@[simp] theorem modCart_now (x : Slot) (f : Cart → Cart) : (modCart x f s).now = s.now := modSlot_now _ _ _
@[simp] theorem modCart_gl (x : Slot) (f : Cart → Cart) : (modCart x f s).gl = s.gl := modSlot_gl _ _ _
@[simp] theorem modCart_pc (x : Slot) (f : Cart → Cart) : (modCart x f s).pc = s.pc := modSlot_pc _ _ _
@[simp] theorem modCart_duet (x : Slot) (f : Cart → Cart) : (modCart x f s).duet = s.duet := modSlot_duet _ _ _
@[simp] theorem modCart_md (x : Slot) (f : Cart → Cart) : (modCart x f s).md = s.md := modSlot_md _ _ _
@[simp] theorem modCart_tn (x : Slot) (f : Cart → Cart) : (modCart x f s).tn = s.tn := modSlot_tn _ _ _
@[simp] theorem modCart_cs (x : Slot) (f : Cart → Cart) : (modCart x f s).cs = s.cs := modSlot_cs _ _ _
@[simp] theorem modCart_lg (x : Slot) (f : Cart → Cart) : (modCart x f s).lg = s.lg := modSlot_lg _ _ _
@[simp] theorem modCart_dm (x : Slot) (f : Cart → Cart) : (modCart x f s).dm = s.dm := modSlot_dm _ _ _
@[simp] theorem modCart_hl (x : Slot) (f : Cart → Cart) : (modCart x f s).hl = s.hl := modSlot_hl _ _ _
@[simp] theorem modCart_sp0 (x : Slot) (f : Cart → Cart) : (modCart x f s).sp0 = s.sp0 := modSlot_sp0 _ _ _
@[simp] theorem modCart_sp1 (x : Slot) (f : Cart → Cart) : (modCart x f s).sp1 = s.sp1 := modSlot_sp1 _ _ _
@[simp] theorem modCart_ks (x : Slot) (f : Cart → Cart) : (modCart x f s).ks = s.ks := modSlot_ks _ _ _
@[simp] theorem modCart_bt (x : Slot) (f : Cart → Cart) : (modCart x f s).bt = s.bt := modSlot_bt _ _ _
@[simp] theorem modCart_pw (x : Slot) (f : Cart → Cart) : (modCart x f s).pw = s.pw := modSlot_pw _ _ _
@[simp] theorem modCart_ev (x : Slot) (f : Cart → Cart) : (modCart x f s).ev = s.ev := modSlot_ev _ _ _
@[simp] theorem modCart_shelf (x : Slot) (f : Cart → Cart) : (modCart x f s).shelf = s.shelf := modSlot_shelf _ _ _
@[simp] theorem modCart_egress (x : Slot) (f : Cart → Cart) : (modCart x f s).egress = s.egress := modSlot_egress _ _ _
@[simp] theorem modCart_out (x : Slot) (f : Cart → Cart) : (modCart x f s).out = s.out := modSlot_out _ _ _
@[simp] theorem modCart_freeCtr (x : Slot) (f : Cart → Cart) : (modCart x f s).freeCtr = s.freeCtr := modSlot_freeCtr _ _ _
@[simp] theorem modCart_pending (x : Slot) (f : Cart → Cart) : (modCart x f s).pending = s.pending := modSlot_pending _ _ _

@[simp] theorem modSv_now (x : Slot) (f : Sv → Sv) : (modSv x f s).now = s.now := modCart_now _ _ _
@[simp] theorem modSv_gl (x : Slot) (f : Sv → Sv) : (modSv x f s).gl = s.gl := modCart_gl _ _ _
@[simp] theorem modSv_pc (x : Slot) (f : Sv → Sv) : (modSv x f s).pc = s.pc := modCart_pc _ _ _
@[simp] theorem modSv_duet (x : Slot) (f : Sv → Sv) : (modSv x f s).duet = s.duet := modCart_duet _ _ _
@[simp] theorem modSv_md (x : Slot) (f : Sv → Sv) : (modSv x f s).md = s.md := modCart_md _ _ _
@[simp] theorem modSv_tn (x : Slot) (f : Sv → Sv) : (modSv x f s).tn = s.tn := modCart_tn _ _ _
@[simp] theorem modSv_cs (x : Slot) (f : Sv → Sv) : (modSv x f s).cs = s.cs := modCart_cs _ _ _
@[simp] theorem modSv_lg (x : Slot) (f : Sv → Sv) : (modSv x f s).lg = s.lg := modCart_lg _ _ _
@[simp] theorem modSv_dm (x : Slot) (f : Sv → Sv) : (modSv x f s).dm = s.dm := modCart_dm _ _ _
@[simp] theorem modSv_hl (x : Slot) (f : Sv → Sv) : (modSv x f s).hl = s.hl := modCart_hl _ _ _
@[simp] theorem modSv_sp0 (x : Slot) (f : Sv → Sv) : (modSv x f s).sp0 = s.sp0 := modCart_sp0 _ _ _
@[simp] theorem modSv_sp1 (x : Slot) (f : Sv → Sv) : (modSv x f s).sp1 = s.sp1 := modCart_sp1 _ _ _
@[simp] theorem modSv_ks (x : Slot) (f : Sv → Sv) : (modSv x f s).ks = s.ks := modCart_ks _ _ _
@[simp] theorem modSv_bt (x : Slot) (f : Sv → Sv) : (modSv x f s).bt = s.bt := modCart_bt _ _ _
@[simp] theorem modSv_pw (x : Slot) (f : Sv → Sv) : (modSv x f s).pw = s.pw := modCart_pw _ _ _
@[simp] theorem modSv_ev (x : Slot) (f : Sv → Sv) : (modSv x f s).ev = s.ev := modCart_ev _ _ _
@[simp] theorem modSv_shelf (x : Slot) (f : Sv → Sv) : (modSv x f s).shelf = s.shelf := modCart_shelf _ _ _
@[simp] theorem modSv_egress (x : Slot) (f : Sv → Sv) : (modSv x f s).egress = s.egress := modCart_egress _ _ _
@[simp] theorem modSv_out (x : Slot) (f : Sv → Sv) : (modSv x f s).out = s.out := modCart_out _ _ _
@[simp] theorem modSv_freeCtr (x : Slot) (f : Sv → Sv) : (modSv x f s).freeCtr = s.freeCtr := modCart_freeCtr _ _ _
@[simp] theorem modSv_pending (x : Slot) (f : Sv → Sv) : (modSv x f s).pending = s.pending := modCart_pending _ _ _

@[simp] theorem modTenant_now (c : Ctx) (f : Tenant → Tenant) : (modTenant c f s).now = s.now := by unfold modTenant; rfl
@[simp] theorem modTenant_gl (c : Ctx) (f : Tenant → Tenant) : (modTenant c f s).gl = s.gl := by unfold modTenant; rfl
@[simp] theorem modTenant_pc (c : Ctx) (f : Tenant → Tenant) : (modTenant c f s).pc = s.pc := by unfold modTenant; rfl
@[simp] theorem modTenant_ct (c : Ctx) (f : Tenant → Tenant) : (modTenant c f s).ct = s.ct := by unfold modTenant; rfl
@[simp] theorem modTenant_duet (c : Ctx) (f : Tenant → Tenant) : (modTenant c f s).duet = s.duet := by unfold modTenant; rfl
@[simp] theorem modTenant_md (c : Ctx) (f : Tenant → Tenant) : (modTenant c f s).md = s.md := by unfold modTenant; rfl
@[simp] theorem modTenant_cs (c : Ctx) (f : Tenant → Tenant) : (modTenant c f s).cs = s.cs := by unfold modTenant; rfl
@[simp] theorem modTenant_lg (c : Ctx) (f : Tenant → Tenant) : (modTenant c f s).lg = s.lg := by unfold modTenant; rfl
@[simp] theorem modTenant_dm (c : Ctx) (f : Tenant → Tenant) : (modTenant c f s).dm = s.dm := by unfold modTenant; rfl
@[simp] theorem modTenant_hl (c : Ctx) (f : Tenant → Tenant) : (modTenant c f s).hl = s.hl := by unfold modTenant; rfl
@[simp] theorem modTenant_sp0 (c : Ctx) (f : Tenant → Tenant) : (modTenant c f s).sp0 = s.sp0 := by unfold modTenant; rfl
@[simp] theorem modTenant_sp1 (c : Ctx) (f : Tenant → Tenant) : (modTenant c f s).sp1 = s.sp1 := by unfold modTenant; rfl
@[simp] theorem modTenant_ks (c : Ctx) (f : Tenant → Tenant) : (modTenant c f s).ks = s.ks := by unfold modTenant; rfl
@[simp] theorem modTenant_bt (c : Ctx) (f : Tenant → Tenant) : (modTenant c f s).bt = s.bt := by unfold modTenant; rfl
@[simp] theorem modTenant_pw (c : Ctx) (f : Tenant → Tenant) : (modTenant c f s).pw = s.pw := by unfold modTenant; rfl
@[simp] theorem modTenant_ev (c : Ctx) (f : Tenant → Tenant) : (modTenant c f s).ev = s.ev := by unfold modTenant; rfl
@[simp] theorem modTenant_shelf (c : Ctx) (f : Tenant → Tenant) : (modTenant c f s).shelf = s.shelf := by unfold modTenant; rfl
@[simp] theorem modTenant_egress (c : Ctx) (f : Tenant → Tenant) : (modTenant c f s).egress = s.egress := by unfold modTenant; rfl
@[simp] theorem modTenant_out (c : Ctx) (f : Tenant → Tenant) : (modTenant c f s).out = s.out := by unfold modTenant; rfl
@[simp] theorem modTenant_freeCtr (c : Ctx) (f : Tenant → Tenant) : (modTenant c f s).freeCtr = s.freeCtr := by unfold modTenant; rfl
@[simp] theorem modTenant_pending (c : Ctx) (f : Tenant → Tenant) : (modTenant c f s).pending = s.pending := by unfold modTenant; rfl

@[simp] theorem mapTenants_now (f : Tenant → Tenant) : (mapTenants f s).now = s.now := by unfold mapTenants; rfl
@[simp] theorem mapTenants_gl (f : Tenant → Tenant) : (mapTenants f s).gl = s.gl := by unfold mapTenants; rfl
@[simp] theorem mapTenants_pc (f : Tenant → Tenant) : (mapTenants f s).pc = s.pc := by unfold mapTenants; rfl
@[simp] theorem mapTenants_ct (f : Tenant → Tenant) : (mapTenants f s).ct = s.ct := by unfold mapTenants; rfl
@[simp] theorem mapTenants_duet (f : Tenant → Tenant) : (mapTenants f s).duet = s.duet := by unfold mapTenants; rfl
@[simp] theorem mapTenants_md (f : Tenant → Tenant) : (mapTenants f s).md = s.md := by unfold mapTenants; rfl
@[simp] theorem mapTenants_cs (f : Tenant → Tenant) : (mapTenants f s).cs = s.cs := by unfold mapTenants; rfl
@[simp] theorem mapTenants_lg (f : Tenant → Tenant) : (mapTenants f s).lg = s.lg := by unfold mapTenants; rfl
@[simp] theorem mapTenants_dm (f : Tenant → Tenant) : (mapTenants f s).dm = s.dm := by unfold mapTenants; rfl
@[simp] theorem mapTenants_hl (f : Tenant → Tenant) : (mapTenants f s).hl = s.hl := by unfold mapTenants; rfl
@[simp] theorem mapTenants_sp0 (f : Tenant → Tenant) : (mapTenants f s).sp0 = s.sp0 := by unfold mapTenants; rfl
@[simp] theorem mapTenants_sp1 (f : Tenant → Tenant) : (mapTenants f s).sp1 = s.sp1 := by unfold mapTenants; rfl
@[simp] theorem mapTenants_ks (f : Tenant → Tenant) : (mapTenants f s).ks = s.ks := by unfold mapTenants; rfl
@[simp] theorem mapTenants_bt (f : Tenant → Tenant) : (mapTenants f s).bt = s.bt := by unfold mapTenants; rfl
@[simp] theorem mapTenants_pw (f : Tenant → Tenant) : (mapTenants f s).pw = s.pw := by unfold mapTenants; rfl
@[simp] theorem mapTenants_ev (f : Tenant → Tenant) : (mapTenants f s).ev = s.ev := by unfold mapTenants; rfl
@[simp] theorem mapTenants_shelf (f : Tenant → Tenant) : (mapTenants f s).shelf = s.shelf := by unfold mapTenants; rfl
@[simp] theorem mapTenants_egress (f : Tenant → Tenant) : (mapTenants f s).egress = s.egress := by unfold mapTenants; rfl
@[simp] theorem mapTenants_out (f : Tenant → Tenant) : (mapTenants f s).out = s.out := by unfold mapTenants; rfl
@[simp] theorem mapTenants_freeCtr (f : Tenant → Tenant) : (mapTenants f s).freeCtr = s.freeCtr := by unfold mapTenants; rfl
@[simp] theorem mapTenants_pending (f : Tenant → Tenant) : (mapTenants f s).pending = s.pending := by unfold mapTenants; rfl

@[simp] theorem modLive_now (c : Ctx) (f : Counters → Counters) : (modLive c f s).now = s.now := by unfold modLive; rfl
@[simp] theorem modLive_gl (c : Ctx) (f : Counters → Counters) : (modLive c f s).gl = s.gl := by unfold modLive; rfl
@[simp] theorem modLive_pc (c : Ctx) (f : Counters → Counters) : (modLive c f s).pc = s.pc := by unfold modLive; rfl
@[simp] theorem modLive_ct (c : Ctx) (f : Counters → Counters) : (modLive c f s).ct = s.ct := by unfold modLive; rfl
@[simp] theorem modLive_duet (c : Ctx) (f : Counters → Counters) : (modLive c f s).duet = s.duet := by unfold modLive; rfl
@[simp] theorem modLive_md (c : Ctx) (f : Counters → Counters) : (modLive c f s).md = s.md := by unfold modLive; rfl
@[simp] theorem modLive_tn (c : Ctx) (f : Counters → Counters) : (modLive c f s).tn = s.tn := by unfold modLive; rfl
@[simp] theorem modLive_cs (c : Ctx) (f : Counters → Counters) : (modLive c f s).cs = s.cs := by unfold modLive; rfl
@[simp] theorem modLive_dm (c : Ctx) (f : Counters → Counters) : (modLive c f s).dm = s.dm := by unfold modLive; rfl
@[simp] theorem modLive_hl (c : Ctx) (f : Counters → Counters) : (modLive c f s).hl = s.hl := by unfold modLive; rfl
@[simp] theorem modLive_sp0 (c : Ctx) (f : Counters → Counters) : (modLive c f s).sp0 = s.sp0 := by unfold modLive; rfl
@[simp] theorem modLive_sp1 (c : Ctx) (f : Counters → Counters) : (modLive c f s).sp1 = s.sp1 := by unfold modLive; rfl
@[simp] theorem modLive_ks (c : Ctx) (f : Counters → Counters) : (modLive c f s).ks = s.ks := by unfold modLive; rfl
@[simp] theorem modLive_bt (c : Ctx) (f : Counters → Counters) : (modLive c f s).bt = s.bt := by unfold modLive; rfl
@[simp] theorem modLive_pw (c : Ctx) (f : Counters → Counters) : (modLive c f s).pw = s.pw := by unfold modLive; rfl
@[simp] theorem modLive_ev (c : Ctx) (f : Counters → Counters) : (modLive c f s).ev = s.ev := by unfold modLive; rfl
@[simp] theorem modLive_shelf (c : Ctx) (f : Counters → Counters) : (modLive c f s).shelf = s.shelf := by unfold modLive; rfl
@[simp] theorem modLive_egress (c : Ctx) (f : Counters → Counters) : (modLive c f s).egress = s.egress := by unfold modLive; rfl
@[simp] theorem modLive_out (c : Ctx) (f : Counters → Counters) : (modLive c f s).out = s.out := by unfold modLive; rfl
@[simp] theorem modLive_freeCtr (c : Ctx) (f : Counters → Counters) : (modLive c f s).freeCtr = s.freeCtr := by unfold modLive; rfl
@[simp] theorem modLive_pending (c : Ctx) (f : Counters → Counters) : (modLive c f s).pending = s.pending := by unfold modLive; rfl

@[simp] theorem modCh_now (n : Fin 32) (f : DmaCh → DmaCh) : (modCh n f s).now = s.now := by unfold modCh; rfl
@[simp] theorem modCh_gl (n : Fin 32) (f : DmaCh → DmaCh) : (modCh n f s).gl = s.gl := by unfold modCh; rfl
@[simp] theorem modCh_pc (n : Fin 32) (f : DmaCh → DmaCh) : (modCh n f s).pc = s.pc := by unfold modCh; rfl
@[simp] theorem modCh_ct (n : Fin 32) (f : DmaCh → DmaCh) : (modCh n f s).ct = s.ct := by unfold modCh; rfl
@[simp] theorem modCh_duet (n : Fin 32) (f : DmaCh → DmaCh) : (modCh n f s).duet = s.duet := by unfold modCh; rfl
@[simp] theorem modCh_md (n : Fin 32) (f : DmaCh → DmaCh) : (modCh n f s).md = s.md := by unfold modCh; rfl
@[simp] theorem modCh_tn (n : Fin 32) (f : DmaCh → DmaCh) : (modCh n f s).tn = s.tn := by unfold modCh; rfl
@[simp] theorem modCh_cs (n : Fin 32) (f : DmaCh → DmaCh) : (modCh n f s).cs = s.cs := by unfold modCh; rfl
@[simp] theorem modCh_lg (n : Fin 32) (f : DmaCh → DmaCh) : (modCh n f s).lg = s.lg := by unfold modCh; rfl
@[simp] theorem modCh_hl (n : Fin 32) (f : DmaCh → DmaCh) : (modCh n f s).hl = s.hl := by unfold modCh; rfl
@[simp] theorem modCh_sp0 (n : Fin 32) (f : DmaCh → DmaCh) : (modCh n f s).sp0 = s.sp0 := by unfold modCh; rfl
@[simp] theorem modCh_sp1 (n : Fin 32) (f : DmaCh → DmaCh) : (modCh n f s).sp1 = s.sp1 := by unfold modCh; rfl
@[simp] theorem modCh_ks (n : Fin 32) (f : DmaCh → DmaCh) : (modCh n f s).ks = s.ks := by unfold modCh; rfl
@[simp] theorem modCh_bt (n : Fin 32) (f : DmaCh → DmaCh) : (modCh n f s).bt = s.bt := by unfold modCh; rfl
@[simp] theorem modCh_pw (n : Fin 32) (f : DmaCh → DmaCh) : (modCh n f s).pw = s.pw := by unfold modCh; rfl
@[simp] theorem modCh_ev (n : Fin 32) (f : DmaCh → DmaCh) : (modCh n f s).ev = s.ev := by unfold modCh; rfl
@[simp] theorem modCh_shelf (n : Fin 32) (f : DmaCh → DmaCh) : (modCh n f s).shelf = s.shelf := by unfold modCh; rfl
@[simp] theorem modCh_egress (n : Fin 32) (f : DmaCh → DmaCh) : (modCh n f s).egress = s.egress := by unfold modCh; rfl
@[simp] theorem modCh_out (n : Fin 32) (f : DmaCh → DmaCh) : (modCh n f s).out = s.out := by unfold modCh; rfl
@[simp] theorem modCh_freeCtr (n : Fin 32) (f : DmaCh → DmaCh) : (modCh n f s).freeCtr = s.freeCtr := by unfold modCh; rfl
@[simp] theorem modCh_pending (n : Fin 32) (f : DmaCh → DmaCh) : (modCh n f s).pending = s.pending := by unfold modCh; rfl

@[simp] theorem modSp_now (p : Port) (f : Sp → Sp) : (modSp p f s).now = s.now := by cases p <;> rfl
@[simp] theorem modSp_gl (p : Port) (f : Sp → Sp) : (modSp p f s).gl = s.gl := by cases p <;> rfl
@[simp] theorem modSp_pc (p : Port) (f : Sp → Sp) : (modSp p f s).pc = s.pc := by cases p <;> rfl
@[simp] theorem modSp_ct (p : Port) (f : Sp → Sp) : (modSp p f s).ct = s.ct := by cases p <;> rfl
@[simp] theorem modSp_duet (p : Port) (f : Sp → Sp) : (modSp p f s).duet = s.duet := by cases p <;> rfl
@[simp] theorem modSp_md (p : Port) (f : Sp → Sp) : (modSp p f s).md = s.md := by cases p <;> rfl
@[simp] theorem modSp_tn (p : Port) (f : Sp → Sp) : (modSp p f s).tn = s.tn := by cases p <;> rfl
@[simp] theorem modSp_cs (p : Port) (f : Sp → Sp) : (modSp p f s).cs = s.cs := by cases p <;> rfl
@[simp] theorem modSp_lg (p : Port) (f : Sp → Sp) : (modSp p f s).lg = s.lg := by cases p <;> rfl
@[simp] theorem modSp_dm (p : Port) (f : Sp → Sp) : (modSp p f s).dm = s.dm := by cases p <;> rfl
@[simp] theorem modSp_hl (p : Port) (f : Sp → Sp) : (modSp p f s).hl = s.hl := by cases p <;> rfl
@[simp] theorem modSp_ks (p : Port) (f : Sp → Sp) : (modSp p f s).ks = s.ks := by cases p <;> rfl
@[simp] theorem modSp_bt (p : Port) (f : Sp → Sp) : (modSp p f s).bt = s.bt := by cases p <;> rfl
@[simp] theorem modSp_pw (p : Port) (f : Sp → Sp) : (modSp p f s).pw = s.pw := by cases p <;> rfl
@[simp] theorem modSp_ev (p : Port) (f : Sp → Sp) : (modSp p f s).ev = s.ev := by cases p <;> rfl
@[simp] theorem modSp_shelf (p : Port) (f : Sp → Sp) : (modSp p f s).shelf = s.shelf := by cases p <;> rfl
@[simp] theorem modSp_egress (p : Port) (f : Sp → Sp) : (modSp p f s).egress = s.egress := by cases p <;> rfl
@[simp] theorem modSp_out (p : Port) (f : Sp → Sp) : (modSp p f s).out = s.out := by cases p <;> rfl
@[simp] theorem modSp_freeCtr (p : Port) (f : Sp → Sp) : (modSp p f s).freeCtr = s.freeCtr := by cases p <;> rfl
@[simp] theorem modSp_pending (p : Port) (f : Sp → Sp) : (modSp p f s).pending = s.pending := by cases p <;> rfl

@[simp] theorem dropTag_now (n : Nat) : (dropTag n s).now = s.now := by unfold dropTag; rfl
@[simp] theorem dropTag_pc (n : Nat) : (dropTag n s).pc = s.pc := by unfold dropTag; rfl
@[simp] theorem dropTag_ct (n : Nat) : (dropTag n s).ct = s.ct := by unfold dropTag; rfl
@[simp] theorem dropTag_duet (n : Nat) : (dropTag n s).duet = s.duet := by unfold dropTag; rfl
@[simp] theorem dropTag_md (n : Nat) : (dropTag n s).md = s.md := by unfold dropTag; rfl
@[simp] theorem dropTag_tn (n : Nat) : (dropTag n s).tn = s.tn := by unfold dropTag; rfl
@[simp] theorem dropTag_cs (n : Nat) : (dropTag n s).cs = s.cs := by unfold dropTag; rfl
@[simp] theorem dropTag_lg (n : Nat) : (dropTag n s).lg = s.lg := by unfold dropTag; rfl
@[simp] theorem dropTag_dm (n : Nat) : (dropTag n s).dm = s.dm := by unfold dropTag; rfl
@[simp] theorem dropTag_hl (n : Nat) : (dropTag n s).hl = s.hl := by unfold dropTag; rfl
@[simp] theorem dropTag_sp0 (n : Nat) : (dropTag n s).sp0 = s.sp0 := by unfold dropTag; rfl
@[simp] theorem dropTag_sp1 (n : Nat) : (dropTag n s).sp1 = s.sp1 := by unfold dropTag; rfl
@[simp] theorem dropTag_ks (n : Nat) : (dropTag n s).ks = s.ks := by unfold dropTag; rfl
@[simp] theorem dropTag_bt (n : Nat) : (dropTag n s).bt = s.bt := by unfold dropTag; rfl
@[simp] theorem dropTag_pw (n : Nat) : (dropTag n s).pw = s.pw := by unfold dropTag; rfl
@[simp] theorem dropTag_ev (n : Nat) : (dropTag n s).ev = s.ev := by unfold dropTag; rfl
@[simp] theorem dropTag_shelf (n : Nat) : (dropTag n s).shelf = s.shelf := by unfold dropTag; rfl
@[simp] theorem dropTag_egress (n : Nat) : (dropTag n s).egress = s.egress := by unfold dropTag; rfl
@[simp] theorem dropTag_out (n : Nat) : (dropTag n s).out = s.out := by unfold dropTag; rfl
@[simp] theorem dropTag_freeCtr (n : Nat) : (dropTag n s).freeCtr = s.freeCtr := by unfold dropTag; rfl
@[simp] theorem dropTag_pending (n : Nat) : (dropTag n s).pending = s.pending := by unfold dropTag; rfl

@[simp] theorem dropTagOpt_now (n : Option Nat) : (dropTag? n s).now = s.now := by cases n <;> rfl
@[simp] theorem dropTagOpt_pc (n : Option Nat) : (dropTag? n s).pc = s.pc := by cases n <;> rfl
@[simp] theorem dropTagOpt_ct (n : Option Nat) : (dropTag? n s).ct = s.ct := by cases n <;> rfl
@[simp] theorem dropTagOpt_duet (n : Option Nat) : (dropTag? n s).duet = s.duet := by cases n <;> rfl
@[simp] theorem dropTagOpt_md (n : Option Nat) : (dropTag? n s).md = s.md := by cases n <;> rfl
@[simp] theorem dropTagOpt_tn (n : Option Nat) : (dropTag? n s).tn = s.tn := by cases n <;> rfl
@[simp] theorem dropTagOpt_cs (n : Option Nat) : (dropTag? n s).cs = s.cs := by cases n <;> rfl
@[simp] theorem dropTagOpt_lg (n : Option Nat) : (dropTag? n s).lg = s.lg := by cases n <;> rfl
@[simp] theorem dropTagOpt_dm (n : Option Nat) : (dropTag? n s).dm = s.dm := by cases n <;> rfl
@[simp] theorem dropTagOpt_hl (n : Option Nat) : (dropTag? n s).hl = s.hl := by cases n <;> rfl
@[simp] theorem dropTagOpt_sp0 (n : Option Nat) : (dropTag? n s).sp0 = s.sp0 := by cases n <;> rfl
@[simp] theorem dropTagOpt_sp1 (n : Option Nat) : (dropTag? n s).sp1 = s.sp1 := by cases n <;> rfl
@[simp] theorem dropTagOpt_ks (n : Option Nat) : (dropTag? n s).ks = s.ks := by cases n <;> rfl
@[simp] theorem dropTagOpt_bt (n : Option Nat) : (dropTag? n s).bt = s.bt := by cases n <;> rfl
@[simp] theorem dropTagOpt_pw (n : Option Nat) : (dropTag? n s).pw = s.pw := by cases n <;> rfl
@[simp] theorem dropTagOpt_ev (n : Option Nat) : (dropTag? n s).ev = s.ev := by cases n <;> rfl
@[simp] theorem dropTagOpt_shelf (n : Option Nat) : (dropTag? n s).shelf = s.shelf := by cases n <;> rfl
@[simp] theorem dropTagOpt_egress (n : Option Nat) : (dropTag? n s).egress = s.egress := by cases n <;> rfl
@[simp] theorem dropTagOpt_out (n : Option Nat) : (dropTag? n s).out = s.out := by cases n <;> rfl
@[simp] theorem dropTagOpt_freeCtr (n : Option Nat) : (dropTag? n s).freeCtr = s.freeCtr := by cases n <;> rfl
@[simp] theorem dropTagOpt_pending (n : Option Nat) : (dropTag? n s).pending = s.pending := by cases n <;> rfl

@[simp] theorem takeTag_now (k : TagClass) (c : Ctx) : (takeTag k c s).now = s.now := by unfold takeTag; rfl
@[simp] theorem takeTag_pc (k : TagClass) (c : Ctx) : (takeTag k c s).pc = s.pc := by unfold takeTag; rfl
@[simp] theorem takeTag_ct (k : TagClass) (c : Ctx) : (takeTag k c s).ct = s.ct := by unfold takeTag; rfl
@[simp] theorem takeTag_duet (k : TagClass) (c : Ctx) : (takeTag k c s).duet = s.duet := by unfold takeTag; rfl
@[simp] theorem takeTag_md (k : TagClass) (c : Ctx) : (takeTag k c s).md = s.md := by unfold takeTag; rfl
@[simp] theorem takeTag_tn (k : TagClass) (c : Ctx) : (takeTag k c s).tn = s.tn := by unfold takeTag; rfl
@[simp] theorem takeTag_cs (k : TagClass) (c : Ctx) : (takeTag k c s).cs = s.cs := by unfold takeTag; rfl
@[simp] theorem takeTag_lg (k : TagClass) (c : Ctx) : (takeTag k c s).lg = s.lg := by unfold takeTag; rfl
@[simp] theorem takeTag_dm (k : TagClass) (c : Ctx) : (takeTag k c s).dm = s.dm := by unfold takeTag; rfl
@[simp] theorem takeTag_hl (k : TagClass) (c : Ctx) : (takeTag k c s).hl = s.hl := by unfold takeTag; rfl
@[simp] theorem takeTag_sp0 (k : TagClass) (c : Ctx) : (takeTag k c s).sp0 = s.sp0 := by unfold takeTag; rfl
@[simp] theorem takeTag_sp1 (k : TagClass) (c : Ctx) : (takeTag k c s).sp1 = s.sp1 := by unfold takeTag; rfl
@[simp] theorem takeTag_ks (k : TagClass) (c : Ctx) : (takeTag k c s).ks = s.ks := by unfold takeTag; rfl
@[simp] theorem takeTag_bt (k : TagClass) (c : Ctx) : (takeTag k c s).bt = s.bt := by unfold takeTag; rfl
@[simp] theorem takeTag_pw (k : TagClass) (c : Ctx) : (takeTag k c s).pw = s.pw := by unfold takeTag; rfl
@[simp] theorem takeTag_ev (k : TagClass) (c : Ctx) : (takeTag k c s).ev = s.ev := by unfold takeTag; rfl
@[simp] theorem takeTag_shelf (k : TagClass) (c : Ctx) : (takeTag k c s).shelf = s.shelf := by unfold takeTag; rfl
@[simp] theorem takeTag_egress (k : TagClass) (c : Ctx) : (takeTag k c s).egress = s.egress := by unfold takeTag; rfl
@[simp] theorem takeTag_out (k : TagClass) (c : Ctx) : (takeTag k c s).out = s.out := by unfold takeTag; rfl
@[simp] theorem takeTag_freeCtr (k : TagClass) (c : Ctx) : (takeTag k c s).freeCtr = s.freeCtr := by unfold takeTag; rfl
@[simp] theorem takeTag_pending (k : TagClass) (c : Ctx) : (takeTag k c s).pending = s.pending := by unfold takeTag; rfl

@[simp] theorem raiseF_now (u : BitVec 5) (k c : BitVec 8) (fl : BitVec 4) (d0 d1 d2 : Word) : (raiseF u k c fl d0 d1 d2 s).now = s.now := by unfold raiseF; simp only []; split <;> rfl
@[simp] theorem raiseF_gl (u : BitVec 5) (k c : BitVec 8) (fl : BitVec 4) (d0 d1 d2 : Word) : (raiseF u k c fl d0 d1 d2 s).gl = s.gl := by unfold raiseF; simp only []; split <;> rfl
@[simp] theorem raiseF_pc (u : BitVec 5) (k c : BitVec 8) (fl : BitVec 4) (d0 d1 d2 : Word) : (raiseF u k c fl d0 d1 d2 s).pc = s.pc := by unfold raiseF; simp only []; split <;> rfl
@[simp] theorem raiseF_ct (u : BitVec 5) (k c : BitVec 8) (fl : BitVec 4) (d0 d1 d2 : Word) : (raiseF u k c fl d0 d1 d2 s).ct = s.ct := by unfold raiseF; simp only []; split <;> rfl
@[simp] theorem raiseF_duet (u : BitVec 5) (k c : BitVec 8) (fl : BitVec 4) (d0 d1 d2 : Word) : (raiseF u k c fl d0 d1 d2 s).duet = s.duet := by unfold raiseF; simp only []; split <;> rfl
@[simp] theorem raiseF_md (u : BitVec 5) (k c : BitVec 8) (fl : BitVec 4) (d0 d1 d2 : Word) : (raiseF u k c fl d0 d1 d2 s).md = s.md := by unfold raiseF; simp only []; split <;> rfl
@[simp] theorem raiseF_tn (u : BitVec 5) (k c : BitVec 8) (fl : BitVec 4) (d0 d1 d2 : Word) : (raiseF u k c fl d0 d1 d2 s).tn = s.tn := by unfold raiseF; simp only []; split <;> rfl
@[simp] theorem raiseF_cs (u : BitVec 5) (k c : BitVec 8) (fl : BitVec 4) (d0 d1 d2 : Word) : (raiseF u k c fl d0 d1 d2 s).cs = s.cs := by unfold raiseF; simp only []; split <;> rfl
@[simp] theorem raiseF_lg (u : BitVec 5) (k c : BitVec 8) (fl : BitVec 4) (d0 d1 d2 : Word) : (raiseF u k c fl d0 d1 d2 s).lg = s.lg := by unfold raiseF; simp only []; split <;> rfl
@[simp] theorem raiseF_dm (u : BitVec 5) (k c : BitVec 8) (fl : BitVec 4) (d0 d1 d2 : Word) : (raiseF u k c fl d0 d1 d2 s).dm = s.dm := by unfold raiseF; simp only []; split <;> rfl
@[simp] theorem raiseF_hl (u : BitVec 5) (k c : BitVec 8) (fl : BitVec 4) (d0 d1 d2 : Word) : (raiseF u k c fl d0 d1 d2 s).hl = s.hl := by unfold raiseF; simp only []; split <;> rfl
@[simp] theorem raiseF_sp0 (u : BitVec 5) (k c : BitVec 8) (fl : BitVec 4) (d0 d1 d2 : Word) : (raiseF u k c fl d0 d1 d2 s).sp0 = s.sp0 := by unfold raiseF; simp only []; split <;> rfl
@[simp] theorem raiseF_sp1 (u : BitVec 5) (k c : BitVec 8) (fl : BitVec 4) (d0 d1 d2 : Word) : (raiseF u k c fl d0 d1 d2 s).sp1 = s.sp1 := by unfold raiseF; simp only []; split <;> rfl
@[simp] theorem raiseF_ks (u : BitVec 5) (k c : BitVec 8) (fl : BitVec 4) (d0 d1 d2 : Word) : (raiseF u k c fl d0 d1 d2 s).ks = s.ks := by unfold raiseF; simp only []; split <;> rfl
@[simp] theorem raiseF_bt (u : BitVec 5) (k c : BitVec 8) (fl : BitVec 4) (d0 d1 d2 : Word) : (raiseF u k c fl d0 d1 d2 s).bt = s.bt := by unfold raiseF; simp only []; split <;> rfl
@[simp] theorem raiseF_pw (u : BitVec 5) (k c : BitVec 8) (fl : BitVec 4) (d0 d1 d2 : Word) : (raiseF u k c fl d0 d1 d2 s).pw = s.pw := by unfold raiseF; simp only []; split <;> rfl
@[simp] theorem raiseF_shelf (u : BitVec 5) (k c : BitVec 8) (fl : BitVec 4) (d0 d1 d2 : Word) : (raiseF u k c fl d0 d1 d2 s).shelf = s.shelf := by unfold raiseF; simp only []; split <;> rfl
@[simp] theorem raiseF_egress (u : BitVec 5) (k c : BitVec 8) (fl : BitVec 4) (d0 d1 d2 : Word) : (raiseF u k c fl d0 d1 d2 s).egress = s.egress := by unfold raiseF; simp only []; split <;> rfl
@[simp] theorem raiseF_out (u : BitVec 5) (k c : BitVec 8) (fl : BitVec 4) (d0 d1 d2 : Word) : (raiseF u k c fl d0 d1 d2 s).out = s.out := by unfold raiseF; simp only []; split <;> rfl
@[simp] theorem raiseF_freeCtr (u : BitVec 5) (k c : BitVec 8) (fl : BitVec 4) (d0 d1 d2 : Word) : (raiseF u k c fl d0 d1 d2 s).freeCtr = s.freeCtr := by unfold raiseF; simp only []; split <;> rfl
@[simp] theorem raiseF_pending (u : BitVec 5) (k c : BitVec 8) (fl : BitVec 4) (d0 d1 d2 : Word) : (raiseF u k c fl d0 d1 d2 s).pending = s.pending := by unfold raiseF; simp only []; split <;> rfl

@[simp] theorem raise_now (u : BitVec 5) (k c : BitVec 8) (d0 d1 d2 : Word) : (raise u k c d0 d1 d2 s).now = s.now := raiseF_now _ _ _ _ _ _ _ _
@[simp] theorem raise_gl (u : BitVec 5) (k c : BitVec 8) (d0 d1 d2 : Word) : (raise u k c d0 d1 d2 s).gl = s.gl := raiseF_gl _ _ _ _ _ _ _ _
@[simp] theorem raise_pc (u : BitVec 5) (k c : BitVec 8) (d0 d1 d2 : Word) : (raise u k c d0 d1 d2 s).pc = s.pc := raiseF_pc _ _ _ _ _ _ _ _
@[simp] theorem raise_ct (u : BitVec 5) (k c : BitVec 8) (d0 d1 d2 : Word) : (raise u k c d0 d1 d2 s).ct = s.ct := raiseF_ct _ _ _ _ _ _ _ _
@[simp] theorem raise_duet (u : BitVec 5) (k c : BitVec 8) (d0 d1 d2 : Word) : (raise u k c d0 d1 d2 s).duet = s.duet := raiseF_duet _ _ _ _ _ _ _ _
@[simp] theorem raise_md (u : BitVec 5) (k c : BitVec 8) (d0 d1 d2 : Word) : (raise u k c d0 d1 d2 s).md = s.md := raiseF_md _ _ _ _ _ _ _ _
@[simp] theorem raise_tn (u : BitVec 5) (k c : BitVec 8) (d0 d1 d2 : Word) : (raise u k c d0 d1 d2 s).tn = s.tn := raiseF_tn _ _ _ _ _ _ _ _
@[simp] theorem raise_cs (u : BitVec 5) (k c : BitVec 8) (d0 d1 d2 : Word) : (raise u k c d0 d1 d2 s).cs = s.cs := raiseF_cs _ _ _ _ _ _ _ _
@[simp] theorem raise_lg (u : BitVec 5) (k c : BitVec 8) (d0 d1 d2 : Word) : (raise u k c d0 d1 d2 s).lg = s.lg := raiseF_lg _ _ _ _ _ _ _ _
@[simp] theorem raise_dm (u : BitVec 5) (k c : BitVec 8) (d0 d1 d2 : Word) : (raise u k c d0 d1 d2 s).dm = s.dm := raiseF_dm _ _ _ _ _ _ _ _
@[simp] theorem raise_hl (u : BitVec 5) (k c : BitVec 8) (d0 d1 d2 : Word) : (raise u k c d0 d1 d2 s).hl = s.hl := raiseF_hl _ _ _ _ _ _ _ _
@[simp] theorem raise_sp0 (u : BitVec 5) (k c : BitVec 8) (d0 d1 d2 : Word) : (raise u k c d0 d1 d2 s).sp0 = s.sp0 := raiseF_sp0 _ _ _ _ _ _ _ _
@[simp] theorem raise_sp1 (u : BitVec 5) (k c : BitVec 8) (d0 d1 d2 : Word) : (raise u k c d0 d1 d2 s).sp1 = s.sp1 := raiseF_sp1 _ _ _ _ _ _ _ _
@[simp] theorem raise_ks (u : BitVec 5) (k c : BitVec 8) (d0 d1 d2 : Word) : (raise u k c d0 d1 d2 s).ks = s.ks := raiseF_ks _ _ _ _ _ _ _ _
@[simp] theorem raise_bt (u : BitVec 5) (k c : BitVec 8) (d0 d1 d2 : Word) : (raise u k c d0 d1 d2 s).bt = s.bt := raiseF_bt _ _ _ _ _ _ _ _
@[simp] theorem raise_pw (u : BitVec 5) (k c : BitVec 8) (d0 d1 d2 : Word) : (raise u k c d0 d1 d2 s).pw = s.pw := raiseF_pw _ _ _ _ _ _ _ _
@[simp] theorem raise_shelf (u : BitVec 5) (k c : BitVec 8) (d0 d1 d2 : Word) : (raise u k c d0 d1 d2 s).shelf = s.shelf := raiseF_shelf _ _ _ _ _ _ _ _
@[simp] theorem raise_egress (u : BitVec 5) (k c : BitVec 8) (d0 d1 d2 : Word) : (raise u k c d0 d1 d2 s).egress = s.egress := raiseF_egress _ _ _ _ _ _ _ _
@[simp] theorem raise_out (u : BitVec 5) (k c : BitVec 8) (d0 d1 d2 : Word) : (raise u k c d0 d1 d2 s).out = s.out := raiseF_out _ _ _ _ _ _ _ _
@[simp] theorem raise_freeCtr (u : BitVec 5) (k c : BitVec 8) (d0 d1 d2 : Word) : (raise u k c d0 d1 d2 s).freeCtr = s.freeCtr := raiseF_freeCtr _ _ _ _ _ _ _ _
@[simp] theorem raise_pending (u : BitVec 5) (k c : BitVec 8) (d0 d1 d2 : Word) : (raise u k c d0 d1 d2 s).pending = s.pending := raiseF_pending _ _ _ _ _ _ _ _

@[simp] theorem raiseSer_now (x : Slot) (k : BitVec 8) (n : BitVec 64) : (raiseSer x k n s).now = s.now := raise_now _ _ _ _ _ _ _
@[simp] theorem raiseSer_gl (x : Slot) (k : BitVec 8) (n : BitVec 64) : (raiseSer x k n s).gl = s.gl := raise_gl _ _ _ _ _ _ _
@[simp] theorem raiseSer_pc (x : Slot) (k : BitVec 8) (n : BitVec 64) : (raiseSer x k n s).pc = s.pc := raise_pc _ _ _ _ _ _ _
@[simp] theorem raiseSer_ct (x : Slot) (k : BitVec 8) (n : BitVec 64) : (raiseSer x k n s).ct = s.ct := raise_ct _ _ _ _ _ _ _
@[simp] theorem raiseSer_duet (x : Slot) (k : BitVec 8) (n : BitVec 64) : (raiseSer x k n s).duet = s.duet := raise_duet _ _ _ _ _ _ _
@[simp] theorem raiseSer_md (x : Slot) (k : BitVec 8) (n : BitVec 64) : (raiseSer x k n s).md = s.md := raise_md _ _ _ _ _ _ _
@[simp] theorem raiseSer_tn (x : Slot) (k : BitVec 8) (n : BitVec 64) : (raiseSer x k n s).tn = s.tn := raise_tn _ _ _ _ _ _ _
@[simp] theorem raiseSer_cs (x : Slot) (k : BitVec 8) (n : BitVec 64) : (raiseSer x k n s).cs = s.cs := raise_cs _ _ _ _ _ _ _
@[simp] theorem raiseSer_lg (x : Slot) (k : BitVec 8) (n : BitVec 64) : (raiseSer x k n s).lg = s.lg := raise_lg _ _ _ _ _ _ _
@[simp] theorem raiseSer_dm (x : Slot) (k : BitVec 8) (n : BitVec 64) : (raiseSer x k n s).dm = s.dm := raise_dm _ _ _ _ _ _ _
@[simp] theorem raiseSer_hl (x : Slot) (k : BitVec 8) (n : BitVec 64) : (raiseSer x k n s).hl = s.hl := raise_hl _ _ _ _ _ _ _
@[simp] theorem raiseSer_sp0 (x : Slot) (k : BitVec 8) (n : BitVec 64) : (raiseSer x k n s).sp0 = s.sp0 := raise_sp0 _ _ _ _ _ _ _
@[simp] theorem raiseSer_sp1 (x : Slot) (k : BitVec 8) (n : BitVec 64) : (raiseSer x k n s).sp1 = s.sp1 := raise_sp1 _ _ _ _ _ _ _
@[simp] theorem raiseSer_ks (x : Slot) (k : BitVec 8) (n : BitVec 64) : (raiseSer x k n s).ks = s.ks := raise_ks _ _ _ _ _ _ _
@[simp] theorem raiseSer_bt (x : Slot) (k : BitVec 8) (n : BitVec 64) : (raiseSer x k n s).bt = s.bt := raise_bt _ _ _ _ _ _ _
@[simp] theorem raiseSer_pw (x : Slot) (k : BitVec 8) (n : BitVec 64) : (raiseSer x k n s).pw = s.pw := raise_pw _ _ _ _ _ _ _
@[simp] theorem raiseSer_shelf (x : Slot) (k : BitVec 8) (n : BitVec 64) : (raiseSer x k n s).shelf = s.shelf := raise_shelf _ _ _ _ _ _ _
@[simp] theorem raiseSer_egress (x : Slot) (k : BitVec 8) (n : BitVec 64) : (raiseSer x k n s).egress = s.egress := raise_egress _ _ _ _ _ _ _
@[simp] theorem raiseSer_out (x : Slot) (k : BitVec 8) (n : BitVec 64) : (raiseSer x k n s).out = s.out := raise_out _ _ _ _ _ _ _
@[simp] theorem raiseSer_freeCtr (x : Slot) (k : BitVec 8) (n : BitVec 64) : (raiseSer x k n s).freeCtr = s.freeCtr := raise_freeCtr _ _ _ _ _ _ _
@[simp] theorem raiseSer_pending (x : Slot) (k : BitVec 8) (n : BitVec 64) : (raiseSer x k n s).pending = s.pending := raise_pending _ _ _ _ _ _ _

@[simp] theorem raiseAddr_now (u : BitVec 5) (k c : BitVec 8) (fl : BitVec 4) (x : Slot) (cl off n : Nat) (t : BitVec 2) (r : Bool) : (raiseAddr u k c fl x cl off n t r s).now = s.now := raiseF_now _ _ _ _ _ _ _ _
@[simp] theorem raiseAddr_gl (u : BitVec 5) (k c : BitVec 8) (fl : BitVec 4) (x : Slot) (cl off n : Nat) (t : BitVec 2) (r : Bool) : (raiseAddr u k c fl x cl off n t r s).gl = s.gl := raiseF_gl _ _ _ _ _ _ _ _
@[simp] theorem raiseAddr_pc (u : BitVec 5) (k c : BitVec 8) (fl : BitVec 4) (x : Slot) (cl off n : Nat) (t : BitVec 2) (r : Bool) : (raiseAddr u k c fl x cl off n t r s).pc = s.pc := raiseF_pc _ _ _ _ _ _ _ _
@[simp] theorem raiseAddr_ct (u : BitVec 5) (k c : BitVec 8) (fl : BitVec 4) (x : Slot) (cl off n : Nat) (t : BitVec 2) (r : Bool) : (raiseAddr u k c fl x cl off n t r s).ct = s.ct := raiseF_ct _ _ _ _ _ _ _ _
@[simp] theorem raiseAddr_duet (u : BitVec 5) (k c : BitVec 8) (fl : BitVec 4) (x : Slot) (cl off n : Nat) (t : BitVec 2) (r : Bool) : (raiseAddr u k c fl x cl off n t r s).duet = s.duet := raiseF_duet _ _ _ _ _ _ _ _
@[simp] theorem raiseAddr_md (u : BitVec 5) (k c : BitVec 8) (fl : BitVec 4) (x : Slot) (cl off n : Nat) (t : BitVec 2) (r : Bool) : (raiseAddr u k c fl x cl off n t r s).md = s.md := raiseF_md _ _ _ _ _ _ _ _
@[simp] theorem raiseAddr_tn (u : BitVec 5) (k c : BitVec 8) (fl : BitVec 4) (x : Slot) (cl off n : Nat) (t : BitVec 2) (r : Bool) : (raiseAddr u k c fl x cl off n t r s).tn = s.tn := raiseF_tn _ _ _ _ _ _ _ _
@[simp] theorem raiseAddr_cs (u : BitVec 5) (k c : BitVec 8) (fl : BitVec 4) (x : Slot) (cl off n : Nat) (t : BitVec 2) (r : Bool) : (raiseAddr u k c fl x cl off n t r s).cs = s.cs := raiseF_cs _ _ _ _ _ _ _ _
@[simp] theorem raiseAddr_lg (u : BitVec 5) (k c : BitVec 8) (fl : BitVec 4) (x : Slot) (cl off n : Nat) (t : BitVec 2) (r : Bool) : (raiseAddr u k c fl x cl off n t r s).lg = s.lg := raiseF_lg _ _ _ _ _ _ _ _
@[simp] theorem raiseAddr_dm (u : BitVec 5) (k c : BitVec 8) (fl : BitVec 4) (x : Slot) (cl off n : Nat) (t : BitVec 2) (r : Bool) : (raiseAddr u k c fl x cl off n t r s).dm = s.dm := raiseF_dm _ _ _ _ _ _ _ _
@[simp] theorem raiseAddr_hl (u : BitVec 5) (k c : BitVec 8) (fl : BitVec 4) (x : Slot) (cl off n : Nat) (t : BitVec 2) (r : Bool) : (raiseAddr u k c fl x cl off n t r s).hl = s.hl := raiseF_hl _ _ _ _ _ _ _ _
@[simp] theorem raiseAddr_sp0 (u : BitVec 5) (k c : BitVec 8) (fl : BitVec 4) (x : Slot) (cl off n : Nat) (t : BitVec 2) (r : Bool) : (raiseAddr u k c fl x cl off n t r s).sp0 = s.sp0 := raiseF_sp0 _ _ _ _ _ _ _ _
@[simp] theorem raiseAddr_sp1 (u : BitVec 5) (k c : BitVec 8) (fl : BitVec 4) (x : Slot) (cl off n : Nat) (t : BitVec 2) (r : Bool) : (raiseAddr u k c fl x cl off n t r s).sp1 = s.sp1 := raiseF_sp1 _ _ _ _ _ _ _ _
@[simp] theorem raiseAddr_ks (u : BitVec 5) (k c : BitVec 8) (fl : BitVec 4) (x : Slot) (cl off n : Nat) (t : BitVec 2) (r : Bool) : (raiseAddr u k c fl x cl off n t r s).ks = s.ks := raiseF_ks _ _ _ _ _ _ _ _
@[simp] theorem raiseAddr_bt (u : BitVec 5) (k c : BitVec 8) (fl : BitVec 4) (x : Slot) (cl off n : Nat) (t : BitVec 2) (r : Bool) : (raiseAddr u k c fl x cl off n t r s).bt = s.bt := raiseF_bt _ _ _ _ _ _ _ _
@[simp] theorem raiseAddr_pw (u : BitVec 5) (k c : BitVec 8) (fl : BitVec 4) (x : Slot) (cl off n : Nat) (t : BitVec 2) (r : Bool) : (raiseAddr u k c fl x cl off n t r s).pw = s.pw := raiseF_pw _ _ _ _ _ _ _ _
@[simp] theorem raiseAddr_shelf (u : BitVec 5) (k c : BitVec 8) (fl : BitVec 4) (x : Slot) (cl off n : Nat) (t : BitVec 2) (r : Bool) : (raiseAddr u k c fl x cl off n t r s).shelf = s.shelf := raiseF_shelf _ _ _ _ _ _ _ _
@[simp] theorem raiseAddr_egress (u : BitVec 5) (k c : BitVec 8) (fl : BitVec 4) (x : Slot) (cl off n : Nat) (t : BitVec 2) (r : Bool) : (raiseAddr u k c fl x cl off n t r s).egress = s.egress := raiseF_egress _ _ _ _ _ _ _ _
@[simp] theorem raiseAddr_out (u : BitVec 5) (k c : BitVec 8) (fl : BitVec 4) (x : Slot) (cl off n : Nat) (t : BitVec 2) (r : Bool) : (raiseAddr u k c fl x cl off n t r s).out = s.out := raiseF_out _ _ _ _ _ _ _ _
@[simp] theorem raiseAddr_freeCtr (u : BitVec 5) (k c : BitVec 8) (fl : BitVec 4) (x : Slot) (cl off n : Nat) (t : BitVec 2) (r : Bool) : (raiseAddr u k c fl x cl off n t r s).freeCtr = s.freeCtr := raiseF_freeCtr _ _ _ _ _ _ _ _
@[simp] theorem raiseAddr_pending (u : BitVec 5) (k c : BitVec 8) (fl : BitVec 4) (x : Slot) (cl off n : Nat) (t : BitVec 2) (r : Bool) : (raiseAddr u k c fl x cl off n t r s).pending = s.pending := raiseF_pending _ _ _ _ _ _ _ _

@[simp] theorem traceRaw_now (e : TrEntry) : (traceRaw e s).now = s.now := by unfold traceRaw; rfl
@[simp] theorem traceRaw_gl (e : TrEntry) : (traceRaw e s).gl = s.gl := by unfold traceRaw; rfl
@[simp] theorem traceRaw_pc (e : TrEntry) : (traceRaw e s).pc = s.pc := by unfold traceRaw; rfl
@[simp] theorem traceRaw_ct (e : TrEntry) : (traceRaw e s).ct = s.ct := by unfold traceRaw; rfl
@[simp] theorem traceRaw_duet (e : TrEntry) : (traceRaw e s).duet = s.duet := by unfold traceRaw; rfl
@[simp] theorem traceRaw_md (e : TrEntry) : (traceRaw e s).md = s.md := by unfold traceRaw; rfl
@[simp] theorem traceRaw_tn (e : TrEntry) : (traceRaw e s).tn = s.tn := by unfold traceRaw; rfl
@[simp] theorem traceRaw_cs (e : TrEntry) : (traceRaw e s).cs = s.cs := by unfold traceRaw; rfl
@[simp] theorem traceRaw_lg (e : TrEntry) : (traceRaw e s).lg = s.lg := by unfold traceRaw; rfl
@[simp] theorem traceRaw_dm (e : TrEntry) : (traceRaw e s).dm = s.dm := by unfold traceRaw; rfl
@[simp] theorem traceRaw_hl (e : TrEntry) : (traceRaw e s).hl = s.hl := by unfold traceRaw; rfl
@[simp] theorem traceRaw_sp0 (e : TrEntry) : (traceRaw e s).sp0 = s.sp0 := by unfold traceRaw; rfl
@[simp] theorem traceRaw_sp1 (e : TrEntry) : (traceRaw e s).sp1 = s.sp1 := by unfold traceRaw; rfl
@[simp] theorem traceRaw_ks (e : TrEntry) : (traceRaw e s).ks = s.ks := by unfold traceRaw; rfl
@[simp] theorem traceRaw_bt (e : TrEntry) : (traceRaw e s).bt = s.bt := by unfold traceRaw; rfl
@[simp] theorem traceRaw_pw (e : TrEntry) : (traceRaw e s).pw = s.pw := by unfold traceRaw; rfl
@[simp] theorem traceRaw_shelf (e : TrEntry) : (traceRaw e s).shelf = s.shelf := by unfold traceRaw; rfl
@[simp] theorem traceRaw_egress (e : TrEntry) : (traceRaw e s).egress = s.egress := by unfold traceRaw; rfl
@[simp] theorem traceRaw_out (e : TrEntry) : (traceRaw e s).out = s.out := by unfold traceRaw; rfl
@[simp] theorem traceRaw_freeCtr (e : TrEntry) : (traceRaw e s).freeCtr = s.freeCtr := by unfold traceRaw; rfl
@[simp] theorem traceRaw_pending (e : TrEntry) : (traceRaw e s).pending = s.pending := by unfold traceRaw; rfl

@[simp] theorem traceAt_now (n : Nat) (t a : BitVec 8) (d0 d1 : Word) : (traceAt n t a d0 d1 s).now = s.now := by unfold traceAt; simp only []; (repeat (first | split | simp))
@[simp] theorem traceAt_gl (n : Nat) (t a : BitVec 8) (d0 d1 : Word) : (traceAt n t a d0 d1 s).gl = s.gl := by unfold traceAt; simp only []; (repeat (first | split | simp))
@[simp] theorem traceAt_pc (n : Nat) (t a : BitVec 8) (d0 d1 : Word) : (traceAt n t a d0 d1 s).pc = s.pc := by unfold traceAt; simp only []; (repeat (first | split | simp))
@[simp] theorem traceAt_ct (n : Nat) (t a : BitVec 8) (d0 d1 : Word) : (traceAt n t a d0 d1 s).ct = s.ct := by unfold traceAt; simp only []; (repeat (first | split | simp))
@[simp] theorem traceAt_duet (n : Nat) (t a : BitVec 8) (d0 d1 : Word) : (traceAt n t a d0 d1 s).duet = s.duet := by unfold traceAt; simp only []; (repeat (first | split | simp))
@[simp] theorem traceAt_md (n : Nat) (t a : BitVec 8) (d0 d1 : Word) : (traceAt n t a d0 d1 s).md = s.md := by unfold traceAt; simp only []; (repeat (first | split | simp))
@[simp] theorem traceAt_tn (n : Nat) (t a : BitVec 8) (d0 d1 : Word) : (traceAt n t a d0 d1 s).tn = s.tn := by unfold traceAt; simp only []; (repeat (first | split | simp))
@[simp] theorem traceAt_cs (n : Nat) (t a : BitVec 8) (d0 d1 : Word) : (traceAt n t a d0 d1 s).cs = s.cs := by unfold traceAt; simp only []; (repeat (first | split | simp))
@[simp] theorem traceAt_lg (n : Nat) (t a : BitVec 8) (d0 d1 : Word) : (traceAt n t a d0 d1 s).lg = s.lg := by unfold traceAt; simp only []; (repeat (first | split | simp))
@[simp] theorem traceAt_dm (n : Nat) (t a : BitVec 8) (d0 d1 : Word) : (traceAt n t a d0 d1 s).dm = s.dm := by unfold traceAt; simp only []; (repeat (first | split | simp))
@[simp] theorem traceAt_hl (n : Nat) (t a : BitVec 8) (d0 d1 : Word) : (traceAt n t a d0 d1 s).hl = s.hl := by unfold traceAt; simp only []; (repeat (first | split | simp))
@[simp] theorem traceAt_sp0 (n : Nat) (t a : BitVec 8) (d0 d1 : Word) : (traceAt n t a d0 d1 s).sp0 = s.sp0 := by unfold traceAt; simp only []; (repeat (first | split | simp))
@[simp] theorem traceAt_sp1 (n : Nat) (t a : BitVec 8) (d0 d1 : Word) : (traceAt n t a d0 d1 s).sp1 = s.sp1 := by unfold traceAt; simp only []; (repeat (first | split | simp))
@[simp] theorem traceAt_ks (n : Nat) (t a : BitVec 8) (d0 d1 : Word) : (traceAt n t a d0 d1 s).ks = s.ks := by unfold traceAt; simp only []; (repeat (first | split | simp))
@[simp] theorem traceAt_bt (n : Nat) (t a : BitVec 8) (d0 d1 : Word) : (traceAt n t a d0 d1 s).bt = s.bt := by unfold traceAt; simp only []; (repeat (first | split | simp))
@[simp] theorem traceAt_pw (n : Nat) (t a : BitVec 8) (d0 d1 : Word) : (traceAt n t a d0 d1 s).pw = s.pw := by unfold traceAt; simp only []; (repeat (first | split | simp))
@[simp] theorem traceAt_shelf (n : Nat) (t a : BitVec 8) (d0 d1 : Word) : (traceAt n t a d0 d1 s).shelf = s.shelf := by unfold traceAt; simp only []; (repeat (first | split | simp))
@[simp] theorem traceAt_egress (n : Nat) (t a : BitVec 8) (d0 d1 : Word) : (traceAt n t a d0 d1 s).egress = s.egress := by unfold traceAt; simp only []; (repeat (first | split | simp))
@[simp] theorem traceAt_out (n : Nat) (t a : BitVec 8) (d0 d1 : Word) : (traceAt n t a d0 d1 s).out = s.out := by unfold traceAt; simp only []; (repeat (first | split | simp))
@[simp] theorem traceAt_freeCtr (n : Nat) (t a : BitVec 8) (d0 d1 : Word) : (traceAt n t a d0 d1 s).freeCtr = s.freeCtr := by unfold traceAt; simp only []; (repeat (first | split | simp))
@[simp] theorem traceAt_pending (n : Nat) (t a : BitVec 8) (d0 d1 : Word) : (traceAt n t a d0 d1 s).pending = s.pending := by unfold traceAt; simp only []; (repeat (first | split | simp))

@[simp] theorem trace_now (t a : BitVec 8) (d0 d1 : Word) : (trace t a d0 d1 s).now = s.now := traceAt_now _ _ _ _ _ _
@[simp] theorem trace_gl (t a : BitVec 8) (d0 d1 : Word) : (trace t a d0 d1 s).gl = s.gl := traceAt_gl _ _ _ _ _ _
@[simp] theorem trace_pc (t a : BitVec 8) (d0 d1 : Word) : (trace t a d0 d1 s).pc = s.pc := traceAt_pc _ _ _ _ _ _
@[simp] theorem trace_ct (t a : BitVec 8) (d0 d1 : Word) : (trace t a d0 d1 s).ct = s.ct := traceAt_ct _ _ _ _ _ _
@[simp] theorem trace_duet (t a : BitVec 8) (d0 d1 : Word) : (trace t a d0 d1 s).duet = s.duet := traceAt_duet _ _ _ _ _ _
@[simp] theorem trace_md (t a : BitVec 8) (d0 d1 : Word) : (trace t a d0 d1 s).md = s.md := traceAt_md _ _ _ _ _ _
@[simp] theorem trace_tn (t a : BitVec 8) (d0 d1 : Word) : (trace t a d0 d1 s).tn = s.tn := traceAt_tn _ _ _ _ _ _
@[simp] theorem trace_cs (t a : BitVec 8) (d0 d1 : Word) : (trace t a d0 d1 s).cs = s.cs := traceAt_cs _ _ _ _ _ _
@[simp] theorem trace_lg (t a : BitVec 8) (d0 d1 : Word) : (trace t a d0 d1 s).lg = s.lg := traceAt_lg _ _ _ _ _ _
@[simp] theorem trace_dm (t a : BitVec 8) (d0 d1 : Word) : (trace t a d0 d1 s).dm = s.dm := traceAt_dm _ _ _ _ _ _
@[simp] theorem trace_hl (t a : BitVec 8) (d0 d1 : Word) : (trace t a d0 d1 s).hl = s.hl := traceAt_hl _ _ _ _ _ _
@[simp] theorem trace_sp0 (t a : BitVec 8) (d0 d1 : Word) : (trace t a d0 d1 s).sp0 = s.sp0 := traceAt_sp0 _ _ _ _ _ _
@[simp] theorem trace_sp1 (t a : BitVec 8) (d0 d1 : Word) : (trace t a d0 d1 s).sp1 = s.sp1 := traceAt_sp1 _ _ _ _ _ _
@[simp] theorem trace_ks (t a : BitVec 8) (d0 d1 : Word) : (trace t a d0 d1 s).ks = s.ks := traceAt_ks _ _ _ _ _ _
@[simp] theorem trace_bt (t a : BitVec 8) (d0 d1 : Word) : (trace t a d0 d1 s).bt = s.bt := traceAt_bt _ _ _ _ _ _
@[simp] theorem trace_pw (t a : BitVec 8) (d0 d1 : Word) : (trace t a d0 d1 s).pw = s.pw := traceAt_pw _ _ _ _ _ _
@[simp] theorem trace_shelf (t a : BitVec 8) (d0 d1 : Word) : (trace t a d0 d1 s).shelf = s.shelf := traceAt_shelf _ _ _ _ _ _
@[simp] theorem trace_egress (t a : BitVec 8) (d0 d1 : Word) : (trace t a d0 d1 s).egress = s.egress := traceAt_egress _ _ _ _ _ _
@[simp] theorem trace_out (t a : BitVec 8) (d0 d1 : Word) : (trace t a d0 d1 s).out = s.out := traceAt_out _ _ _ _ _ _
@[simp] theorem trace_freeCtr (t a : BitVec 8) (d0 d1 : Word) : (trace t a d0 d1 s).freeCtr = s.freeCtr := traceAt_freeCtr _ _ _ _ _ _
@[simp] theorem trace_pending (t a : BitVec 8) (d0 d1 : Word) : (trace t a d0 d1 s).pending = s.pending := traceAt_pending _ _ _ _ _ _

@[simp] theorem goState_now (p : Power) (w : BitVec 8) : (goState p w s).now = s.now := by unfold goState; split <;> simp
@[simp] theorem goState_gl (p : Power) (w : BitVec 8) : (goState p w s).gl = s.gl := by unfold goState; split <;> simp
@[simp] theorem goState_pc (p : Power) (w : BitVec 8) : (goState p w s).pc = s.pc := by unfold goState; split <;> simp
@[simp] theorem goState_ct (p : Power) (w : BitVec 8) : (goState p w s).ct = s.ct := by unfold goState; split <;> simp
@[simp] theorem goState_duet (p : Power) (w : BitVec 8) : (goState p w s).duet = s.duet := by unfold goState; split <;> simp
@[simp] theorem goState_md (p : Power) (w : BitVec 8) : (goState p w s).md = s.md := by unfold goState; split <;> simp
@[simp] theorem goState_tn (p : Power) (w : BitVec 8) : (goState p w s).tn = s.tn := by unfold goState; split <;> simp
@[simp] theorem goState_cs (p : Power) (w : BitVec 8) : (goState p w s).cs = s.cs := by unfold goState; split <;> simp
@[simp] theorem goState_lg (p : Power) (w : BitVec 8) : (goState p w s).lg = s.lg := by unfold goState; split <;> simp
@[simp] theorem goState_dm (p : Power) (w : BitVec 8) : (goState p w s).dm = s.dm := by unfold goState; split <;> simp
@[simp] theorem goState_hl (p : Power) (w : BitVec 8) : (goState p w s).hl = s.hl := by unfold goState; split <;> simp
@[simp] theorem goState_sp0 (p : Power) (w : BitVec 8) : (goState p w s).sp0 = s.sp0 := by unfold goState; split <;> simp
@[simp] theorem goState_sp1 (p : Power) (w : BitVec 8) : (goState p w s).sp1 = s.sp1 := by unfold goState; split <;> simp
@[simp] theorem goState_ks (p : Power) (w : BitVec 8) : (goState p w s).ks = s.ks := by unfold goState; split <;> simp
@[simp] theorem goState_bt (p : Power) (w : BitVec 8) : (goState p w s).bt = s.bt := by unfold goState; split <;> simp
@[simp] theorem goState_shelf (p : Power) (w : BitVec 8) : (goState p w s).shelf = s.shelf := by unfold goState; split <;> simp
@[simp] theorem goState_egress (p : Power) (w : BitVec 8) : (goState p w s).egress = s.egress := by unfold goState; split <;> simp
@[simp] theorem goState_out (p : Power) (w : BitVec 8) : (goState p w s).out = s.out := by unfold goState; split <;> simp
@[simp] theorem goState_freeCtr (p : Power) (w : BitVec 8) : (goState p w s).freeCtr = s.freeCtr := by unfold goState; split <;> simp
@[simp] theorem goState_pending (p : Power) (w : BitVec 8) : (goState p w s).pending = s.pending := by unfold goState; split <;> simp

@[simp] theorem goDuet_now (d : Duet) : (goDuet d s).now = s.now := by unfold goDuet; split <;> simp
@[simp] theorem goDuet_gl (d : Duet) : (goDuet d s).gl = s.gl := by unfold goDuet; split <;> simp
@[simp] theorem goDuet_pc (d : Duet) : (goDuet d s).pc = s.pc := by unfold goDuet; split <;> simp
@[simp] theorem goDuet_ct (d : Duet) : (goDuet d s).ct = s.ct := by unfold goDuet; split <;> simp
@[simp] theorem goDuet_md (d : Duet) : (goDuet d s).md = s.md := by unfold goDuet; split <;> simp
@[simp] theorem goDuet_tn (d : Duet) : (goDuet d s).tn = s.tn := by unfold goDuet; split <;> simp
@[simp] theorem goDuet_cs (d : Duet) : (goDuet d s).cs = s.cs := by unfold goDuet; split <;> simp
@[simp] theorem goDuet_lg (d : Duet) : (goDuet d s).lg = s.lg := by unfold goDuet; split <;> simp
@[simp] theorem goDuet_dm (d : Duet) : (goDuet d s).dm = s.dm := by unfold goDuet; split <;> simp
@[simp] theorem goDuet_hl (d : Duet) : (goDuet d s).hl = s.hl := by unfold goDuet; split <;> simp
@[simp] theorem goDuet_sp0 (d : Duet) : (goDuet d s).sp0 = s.sp0 := by unfold goDuet; split <;> simp
@[simp] theorem goDuet_sp1 (d : Duet) : (goDuet d s).sp1 = s.sp1 := by unfold goDuet; split <;> simp
@[simp] theorem goDuet_ks (d : Duet) : (goDuet d s).ks = s.ks := by unfold goDuet; split <;> simp
@[simp] theorem goDuet_bt (d : Duet) : (goDuet d s).bt = s.bt := by unfold goDuet; split <;> simp
@[simp] theorem goDuet_pw (d : Duet) : (goDuet d s).pw = s.pw := by unfold goDuet; split <;> simp
@[simp] theorem goDuet_shelf (d : Duet) : (goDuet d s).shelf = s.shelf := by unfold goDuet; split <;> simp
@[simp] theorem goDuet_egress (d : Duet) : (goDuet d s).egress = s.egress := by unfold goDuet; split <;> simp
@[simp] theorem goDuet_out (d : Duet) : (goDuet d s).out = s.out := by unfold goDuet; split <;> simp
@[simp] theorem goDuet_freeCtr (d : Duet) : (goDuet d s).freeCtr = s.freeCtr := by unfold goDuet; split <;> simp
@[simp] theorem goDuet_pending (d : Duet) : (goDuet d s).pending = s.pending := by unfold goDuet; split <;> simp

@[simp] theorem count_now (c : Ctx) (f : Counters → Counters) : (count c f s).now = s.now := rfl
@[simp] theorem count_gl (c : Ctx) (f : Counters → Counters) : (count c f s).gl = s.gl := rfl
@[simp] theorem count_pc (c : Ctx) (f : Counters → Counters) : (count c f s).pc = s.pc := rfl
@[simp] theorem count_ct (c : Ctx) (f : Counters → Counters) : (count c f s).ct = s.ct := rfl
@[simp] theorem count_duet (c : Ctx) (f : Counters → Counters) : (count c f s).duet = s.duet := rfl
@[simp] theorem count_md (c : Ctx) (f : Counters → Counters) : (count c f s).md = s.md := rfl
@[simp] theorem count_tn (c : Ctx) (f : Counters → Counters) : (count c f s).tn = s.tn := rfl
@[simp] theorem count_cs (c : Ctx) (f : Counters → Counters) : (count c f s).cs = s.cs := rfl
@[simp] theorem count_dm (c : Ctx) (f : Counters → Counters) : (count c f s).dm = s.dm := rfl
@[simp] theorem count_hl (c : Ctx) (f : Counters → Counters) : (count c f s).hl = s.hl := rfl
@[simp] theorem count_sp0 (c : Ctx) (f : Counters → Counters) : (count c f s).sp0 = s.sp0 := rfl
@[simp] theorem count_sp1 (c : Ctx) (f : Counters → Counters) : (count c f s).sp1 = s.sp1 := rfl
@[simp] theorem count_ks (c : Ctx) (f : Counters → Counters) : (count c f s).ks = s.ks := rfl
@[simp] theorem count_bt (c : Ctx) (f : Counters → Counters) : (count c f s).bt = s.bt := rfl
@[simp] theorem count_pw (c : Ctx) (f : Counters → Counters) : (count c f s).pw = s.pw := rfl
@[simp] theorem count_ev (c : Ctx) (f : Counters → Counters) : (count c f s).ev = s.ev := rfl
@[simp] theorem count_shelf (c : Ctx) (f : Counters → Counters) : (count c f s).shelf = s.shelf := rfl
@[simp] theorem count_egress (c : Ctx) (f : Counters → Counters) : (count c f s).egress = s.egress := rfl
@[simp] theorem count_out (c : Ctx) (f : Counters → Counters) : (count c f s).out = s.out := rfl
@[simp] theorem count_freeCtr (c : Ctx) (f : Counters → Counters) : (count c f s).freeCtr = s.freeCtr := rfl
@[simp] theorem count_pending (c : Ctx) (f : Counters → Counters) : (count c f s).pending = s.pending := rfl

@[simp] theorem chargeSlot_now (x : Slot) (n : Nat) : (chargeSlot x n s).now = s.now := by unfold chargeSlot; simp only []; split <;> simp
@[simp] theorem chargeSlot_gl (x : Slot) (n : Nat) : (chargeSlot x n s).gl = s.gl := by unfold chargeSlot; simp only []; split <;> simp
@[simp] theorem chargeSlot_pc (x : Slot) (n : Nat) : (chargeSlot x n s).pc = s.pc := by unfold chargeSlot; simp only []; split <;> simp
@[simp] theorem chargeSlot_duet (x : Slot) (n : Nat) : (chargeSlot x n s).duet = s.duet := by unfold chargeSlot; simp only []; split <;> simp
@[simp] theorem chargeSlot_md (x : Slot) (n : Nat) : (chargeSlot x n s).md = s.md := by unfold chargeSlot; simp only []; split <;> simp
@[simp] theorem chargeSlot_tn (x : Slot) (n : Nat) : (chargeSlot x n s).tn = s.tn := by unfold chargeSlot; simp only []; split <;> simp
@[simp] theorem chargeSlot_cs (x : Slot) (n : Nat) : (chargeSlot x n s).cs = s.cs := by unfold chargeSlot; simp only []; split <;> simp
@[simp] theorem chargeSlot_lg (x : Slot) (n : Nat) : (chargeSlot x n s).lg = s.lg := by unfold chargeSlot; simp only []; split <;> simp
@[simp] theorem chargeSlot_dm (x : Slot) (n : Nat) : (chargeSlot x n s).dm = s.dm := by unfold chargeSlot; simp only []; split <;> simp
@[simp] theorem chargeSlot_hl (x : Slot) (n : Nat) : (chargeSlot x n s).hl = s.hl := by unfold chargeSlot; simp only []; split <;> simp
@[simp] theorem chargeSlot_sp0 (x : Slot) (n : Nat) : (chargeSlot x n s).sp0 = s.sp0 := by unfold chargeSlot; simp only []; split <;> simp
@[simp] theorem chargeSlot_sp1 (x : Slot) (n : Nat) : (chargeSlot x n s).sp1 = s.sp1 := by unfold chargeSlot; simp only []; split <;> simp
@[simp] theorem chargeSlot_ks (x : Slot) (n : Nat) : (chargeSlot x n s).ks = s.ks := by unfold chargeSlot; simp only []; split <;> simp
@[simp] theorem chargeSlot_bt (x : Slot) (n : Nat) : (chargeSlot x n s).bt = s.bt := by unfold chargeSlot; simp only []; split <;> simp
@[simp] theorem chargeSlot_pw (x : Slot) (n : Nat) : (chargeSlot x n s).pw = s.pw := by unfold chargeSlot; simp only []; split <;> simp
@[simp] theorem chargeSlot_shelf (x : Slot) (n : Nat) : (chargeSlot x n s).shelf = s.shelf := by unfold chargeSlot; simp only []; split <;> simp
@[simp] theorem chargeSlot_egress (x : Slot) (n : Nat) : (chargeSlot x n s).egress = s.egress := by unfold chargeSlot; simp only []; split <;> simp
@[simp] theorem chargeSlot_out (x : Slot) (n : Nat) : (chargeSlot x n s).out = s.out := by unfold chargeSlot; simp only []; split <;> simp
@[simp] theorem chargeSlot_freeCtr (x : Slot) (n : Nat) : (chargeSlot x n s).freeCtr = s.freeCtr := by unfold chargeSlot; simp only []; split <;> simp
@[simp] theorem chargeSlot_pending (x : Slot) (n : Nat) : (chargeSlot x n s).pending = s.pending := by unfold chargeSlot; simp only []; split <;> simp

@[simp] theorem engineWrites_now (x : Slot) (t : Tempo) (n : Nat) : (engineWrites x t n s).now = s.now := chargeSlot_now _ _ _
@[simp] theorem engineWrites_gl (x : Slot) (t : Tempo) (n : Nat) : (engineWrites x t n s).gl = s.gl := chargeSlot_gl _ _ _
@[simp] theorem engineWrites_pc (x : Slot) (t : Tempo) (n : Nat) : (engineWrites x t n s).pc = s.pc := chargeSlot_pc _ _ _
@[simp] theorem engineWrites_duet (x : Slot) (t : Tempo) (n : Nat) : (engineWrites x t n s).duet = s.duet := chargeSlot_duet _ _ _
@[simp] theorem engineWrites_md (x : Slot) (t : Tempo) (n : Nat) : (engineWrites x t n s).md = s.md := chargeSlot_md _ _ _
@[simp] theorem engineWrites_tn (x : Slot) (t : Tempo) (n : Nat) : (engineWrites x t n s).tn = s.tn := chargeSlot_tn _ _ _
@[simp] theorem engineWrites_cs (x : Slot) (t : Tempo) (n : Nat) : (engineWrites x t n s).cs = s.cs := chargeSlot_cs _ _ _
@[simp] theorem engineWrites_dm (x : Slot) (t : Tempo) (n : Nat) : (engineWrites x t n s).dm = s.dm := chargeSlot_dm _ _ _
@[simp] theorem engineWrites_hl (x : Slot) (t : Tempo) (n : Nat) : (engineWrites x t n s).hl = s.hl := chargeSlot_hl _ _ _
@[simp] theorem engineWrites_sp0 (x : Slot) (t : Tempo) (n : Nat) : (engineWrites x t n s).sp0 = s.sp0 := chargeSlot_sp0 _ _ _
@[simp] theorem engineWrites_sp1 (x : Slot) (t : Tempo) (n : Nat) : (engineWrites x t n s).sp1 = s.sp1 := chargeSlot_sp1 _ _ _
@[simp] theorem engineWrites_ks (x : Slot) (t : Tempo) (n : Nat) : (engineWrites x t n s).ks = s.ks := chargeSlot_ks _ _ _
@[simp] theorem engineWrites_bt (x : Slot) (t : Tempo) (n : Nat) : (engineWrites x t n s).bt = s.bt := chargeSlot_bt _ _ _
@[simp] theorem engineWrites_pw (x : Slot) (t : Tempo) (n : Nat) : (engineWrites x t n s).pw = s.pw := chargeSlot_pw _ _ _
@[simp] theorem engineWrites_shelf (x : Slot) (t : Tempo) (n : Nat) : (engineWrites x t n s).shelf = s.shelf := chargeSlot_shelf _ _ _
@[simp] theorem engineWrites_egress (x : Slot) (t : Tempo) (n : Nat) : (engineWrites x t n s).egress = s.egress := chargeSlot_egress _ _ _
@[simp] theorem engineWrites_out (x : Slot) (t : Tempo) (n : Nat) : (engineWrites x t n s).out = s.out := chargeSlot_out _ _ _
@[simp] theorem engineWrites_freeCtr (x : Slot) (t : Tempo) (n : Nat) : (engineWrites x t n s).freeCtr = s.freeCtr := chargeSlot_freeCtr _ _ _
@[simp] theorem engineWrites_pending (x : Slot) (t : Tempo) (n : Nat) : (engineWrites x t n s).pending = s.pending := chargeSlot_pending _ _ _

@[simp] theorem storeLine_now (x : Slot) (n : Nat) (l : StoredLine) : (storeLine x n l s).now = s.now := modCart_now _ _ _
@[simp] theorem storeLine_gl (x : Slot) (n : Nat) (l : StoredLine) : (storeLine x n l s).gl = s.gl := modCart_gl _ _ _
@[simp] theorem storeLine_pc (x : Slot) (n : Nat) (l : StoredLine) : (storeLine x n l s).pc = s.pc := modCart_pc _ _ _
@[simp] theorem storeLine_duet (x : Slot) (n : Nat) (l : StoredLine) : (storeLine x n l s).duet = s.duet := modCart_duet _ _ _
@[simp] theorem storeLine_md (x : Slot) (n : Nat) (l : StoredLine) : (storeLine x n l s).md = s.md := modCart_md _ _ _
@[simp] theorem storeLine_tn (x : Slot) (n : Nat) (l : StoredLine) : (storeLine x n l s).tn = s.tn := modCart_tn _ _ _
@[simp] theorem storeLine_cs (x : Slot) (n : Nat) (l : StoredLine) : (storeLine x n l s).cs = s.cs := modCart_cs _ _ _
@[simp] theorem storeLine_lg (x : Slot) (n : Nat) (l : StoredLine) : (storeLine x n l s).lg = s.lg := modCart_lg _ _ _
@[simp] theorem storeLine_dm (x : Slot) (n : Nat) (l : StoredLine) : (storeLine x n l s).dm = s.dm := modCart_dm _ _ _
@[simp] theorem storeLine_hl (x : Slot) (n : Nat) (l : StoredLine) : (storeLine x n l s).hl = s.hl := modCart_hl _ _ _
@[simp] theorem storeLine_sp0 (x : Slot) (n : Nat) (l : StoredLine) : (storeLine x n l s).sp0 = s.sp0 := modCart_sp0 _ _ _
@[simp] theorem storeLine_sp1 (x : Slot) (n : Nat) (l : StoredLine) : (storeLine x n l s).sp1 = s.sp1 := modCart_sp1 _ _ _
@[simp] theorem storeLine_ks (x : Slot) (n : Nat) (l : StoredLine) : (storeLine x n l s).ks = s.ks := modCart_ks _ _ _
@[simp] theorem storeLine_bt (x : Slot) (n : Nat) (l : StoredLine) : (storeLine x n l s).bt = s.bt := modCart_bt _ _ _
@[simp] theorem storeLine_pw (x : Slot) (n : Nat) (l : StoredLine) : (storeLine x n l s).pw = s.pw := modCart_pw _ _ _
@[simp] theorem storeLine_ev (x : Slot) (n : Nat) (l : StoredLine) : (storeLine x n l s).ev = s.ev := modCart_ev _ _ _
@[simp] theorem storeLine_shelf (x : Slot) (n : Nat) (l : StoredLine) : (storeLine x n l s).shelf = s.shelf := modCart_shelf _ _ _
@[simp] theorem storeLine_egress (x : Slot) (n : Nat) (l : StoredLine) : (storeLine x n l s).egress = s.egress := modCart_egress _ _ _
@[simp] theorem storeLine_out (x : Slot) (n : Nat) (l : StoredLine) : (storeLine x n l s).out = s.out := modCart_out _ _ _
@[simp] theorem storeLine_freeCtr (x : Slot) (n : Nat) (l : StoredLine) : (storeLine x n l s).freeCtr = s.freeCtr := modCart_freeCtr _ _ _
@[simp] theorem storeLine_pending (x : Slot) (n : Nat) (l : StoredLine) : (storeLine x n l s).pending = s.pending := modCart_pending _ _ _

@[simp] theorem freeShare_now (c : Ctx) : (freeShare c s).now = s.now := modTenant_now _ _ _
@[simp] theorem freeShare_gl (c : Ctx) : (freeShare c s).gl = s.gl := modTenant_gl _ _ _
@[simp] theorem freeShare_pc (c : Ctx) : (freeShare c s).pc = s.pc := modTenant_pc _ _ _
@[simp] theorem freeShare_ct (c : Ctx) : (freeShare c s).ct = s.ct := modTenant_ct _ _ _
@[simp] theorem freeShare_duet (c : Ctx) : (freeShare c s).duet = s.duet := modTenant_duet _ _ _
@[simp] theorem freeShare_md (c : Ctx) : (freeShare c s).md = s.md := modTenant_md _ _ _
@[simp] theorem freeShare_cs (c : Ctx) : (freeShare c s).cs = s.cs := modTenant_cs _ _ _
@[simp] theorem freeShare_lg (c : Ctx) : (freeShare c s).lg = s.lg := modTenant_lg _ _ _
@[simp] theorem freeShare_dm (c : Ctx) : (freeShare c s).dm = s.dm := modTenant_dm _ _ _
@[simp] theorem freeShare_hl (c : Ctx) : (freeShare c s).hl = s.hl := modTenant_hl _ _ _
@[simp] theorem freeShare_sp0 (c : Ctx) : (freeShare c s).sp0 = s.sp0 := modTenant_sp0 _ _ _
@[simp] theorem freeShare_sp1 (c : Ctx) : (freeShare c s).sp1 = s.sp1 := modTenant_sp1 _ _ _
@[simp] theorem freeShare_ks (c : Ctx) : (freeShare c s).ks = s.ks := modTenant_ks _ _ _
@[simp] theorem freeShare_bt (c : Ctx) : (freeShare c s).bt = s.bt := modTenant_bt _ _ _
@[simp] theorem freeShare_pw (c : Ctx) : (freeShare c s).pw = s.pw := modTenant_pw _ _ _
@[simp] theorem freeShare_ev (c : Ctx) : (freeShare c s).ev = s.ev := modTenant_ev _ _ _
@[simp] theorem freeShare_shelf (c : Ctx) : (freeShare c s).shelf = s.shelf := modTenant_shelf _ _ _
@[simp] theorem freeShare_egress (c : Ctx) : (freeShare c s).egress = s.egress := modTenant_egress _ _ _
@[simp] theorem freeShare_out (c : Ctx) : (freeShare c s).out = s.out := modTenant_out _ _ _
@[simp] theorem freeShare_freeCtr (c : Ctx) : (freeShare c s).freeCtr = s.freeCtr := modTenant_freeCtr _ _ _
@[simp] theorem freeShare_pending (c : Ctx) : (freeShare c s).pending = s.pending := modTenant_pending _ _ _

@[simp] theorem freeStaging_now (w : Bool) : (freeStaging w s).now = s.now := by unfold freeStaging; split <;> rfl
@[simp] theorem freeStaging_pc (w : Bool) : (freeStaging w s).pc = s.pc := by unfold freeStaging; split <;> rfl
@[simp] theorem freeStaging_ct (w : Bool) : (freeStaging w s).ct = s.ct := by unfold freeStaging; split <;> rfl
@[simp] theorem freeStaging_duet (w : Bool) : (freeStaging w s).duet = s.duet := by unfold freeStaging; split <;> rfl
@[simp] theorem freeStaging_md (w : Bool) : (freeStaging w s).md = s.md := by unfold freeStaging; split <;> rfl
@[simp] theorem freeStaging_tn (w : Bool) : (freeStaging w s).tn = s.tn := by unfold freeStaging; split <;> rfl
@[simp] theorem freeStaging_cs (w : Bool) : (freeStaging w s).cs = s.cs := by unfold freeStaging; split <;> rfl
@[simp] theorem freeStaging_lg (w : Bool) : (freeStaging w s).lg = s.lg := by unfold freeStaging; split <;> rfl
@[simp] theorem freeStaging_dm (w : Bool) : (freeStaging w s).dm = s.dm := by unfold freeStaging; split <;> rfl
@[simp] theorem freeStaging_hl (w : Bool) : (freeStaging w s).hl = s.hl := by unfold freeStaging; split <;> rfl
@[simp] theorem freeStaging_sp0 (w : Bool) : (freeStaging w s).sp0 = s.sp0 := by unfold freeStaging; split <;> rfl
@[simp] theorem freeStaging_sp1 (w : Bool) : (freeStaging w s).sp1 = s.sp1 := by unfold freeStaging; split <;> rfl
@[simp] theorem freeStaging_ks (w : Bool) : (freeStaging w s).ks = s.ks := by unfold freeStaging; split <;> rfl
@[simp] theorem freeStaging_bt (w : Bool) : (freeStaging w s).bt = s.bt := by unfold freeStaging; split <;> rfl
@[simp] theorem freeStaging_pw (w : Bool) : (freeStaging w s).pw = s.pw := by unfold freeStaging; split <;> rfl
@[simp] theorem freeStaging_ev (w : Bool) : (freeStaging w s).ev = s.ev := by unfold freeStaging; split <;> rfl
@[simp] theorem freeStaging_shelf (w : Bool) : (freeStaging w s).shelf = s.shelf := by unfold freeStaging; split <;> rfl
@[simp] theorem freeStaging_egress (w : Bool) : (freeStaging w s).egress = s.egress := by unfold freeStaging; split <;> rfl
@[simp] theorem freeStaging_out (w : Bool) : (freeStaging w s).out = s.out := by unfold freeStaging; split <;> rfl
@[simp] theorem freeStaging_freeCtr (w : Bool) : (freeStaging w s).freeCtr = s.freeCtr := by unfold freeStaging; split <;> rfl
@[simp] theorem freeStaging_pending (w : Bool) : (freeStaging w s).pending = s.pending := by unfold freeStaging; split <;> rfl

@[simp] theorem freeEntry_now (st : Stage) (w : Bool) (c : Ctx) : (freeEntry st w c s).now = s.now := by
  cases st <;> simp [freeEntry]
@[simp] theorem freeEntry_pc (st : Stage) (w : Bool) (c : Ctx) : (freeEntry st w c s).pc = s.pc := by
  cases st <;> simp [freeEntry]
@[simp] theorem freeEntry_ct (st : Stage) (w : Bool) (c : Ctx) : (freeEntry st w c s).ct = s.ct := by
  cases st <;> simp [freeEntry]
@[simp] theorem freeEntry_duet (st : Stage) (w : Bool) (c : Ctx) : (freeEntry st w c s).duet = s.duet := by
  cases st <;> simp [freeEntry]
@[simp] theorem freeEntry_md (st : Stage) (w : Bool) (c : Ctx) : (freeEntry st w c s).md = s.md := by
  cases st <;> simp [freeEntry]
@[simp] theorem freeEntry_cs (st : Stage) (w : Bool) (c : Ctx) : (freeEntry st w c s).cs = s.cs := by
  cases st <;> simp [freeEntry]
@[simp] theorem freeEntry_lg (st : Stage) (w : Bool) (c : Ctx) : (freeEntry st w c s).lg = s.lg := by
  cases st <;> simp [freeEntry]
@[simp] theorem freeEntry_dm (st : Stage) (w : Bool) (c : Ctx) : (freeEntry st w c s).dm = s.dm := by
  cases st <;> simp [freeEntry]
@[simp] theorem freeEntry_hl (st : Stage) (w : Bool) (c : Ctx) : (freeEntry st w c s).hl = s.hl := by
  cases st <;> simp [freeEntry]
@[simp] theorem freeEntry_sp0 (st : Stage) (w : Bool) (c : Ctx) : (freeEntry st w c s).sp0 = s.sp0 := by
  cases st <;> simp [freeEntry]
@[simp] theorem freeEntry_sp1 (st : Stage) (w : Bool) (c : Ctx) : (freeEntry st w c s).sp1 = s.sp1 := by
  cases st <;> simp [freeEntry]
@[simp] theorem freeEntry_ks (st : Stage) (w : Bool) (c : Ctx) : (freeEntry st w c s).ks = s.ks := by
  cases st <;> simp [freeEntry]
@[simp] theorem freeEntry_bt (st : Stage) (w : Bool) (c : Ctx) : (freeEntry st w c s).bt = s.bt := by
  cases st <;> simp [freeEntry]
@[simp] theorem freeEntry_pw (st : Stage) (w : Bool) (c : Ctx) : (freeEntry st w c s).pw = s.pw := by
  cases st <;> simp [freeEntry]
@[simp] theorem freeEntry_ev (st : Stage) (w : Bool) (c : Ctx) : (freeEntry st w c s).ev = s.ev := by
  cases st <;> simp [freeEntry]
@[simp] theorem freeEntry_shelf (st : Stage) (w : Bool) (c : Ctx) : (freeEntry st w c s).shelf = s.shelf := by
  cases st <;> simp [freeEntry]
@[simp] theorem freeEntry_egress (st : Stage) (w : Bool) (c : Ctx) : (freeEntry st w c s).egress = s.egress := by
  cases st <;> simp [freeEntry]
@[simp] theorem freeEntry_out (st : Stage) (w : Bool) (c : Ctx) : (freeEntry st w c s).out = s.out := by
  cases st <;> simp [freeEntry]
@[simp] theorem freeEntry_freeCtr (st : Stage) (w : Bool) (c : Ctx) : (freeEntry st w c s).freeCtr = s.freeCtr := by
  cases st <;> simp [freeEntry]
@[simp] theorem freeEntry_pending (st : Stage) (w : Bool) (c : Ctx) : (freeEntry st w c s).pending = s.pending := by
  cases st <;> simp [freeEntry]

/-! ### What they set -/

@[simp] theorem emit_out (o : Out) : (emit o s).out = s.out ++ [o] := rfl
@[simp] theorem modSlot_slot (x : Slot) (f : CtSlot → CtSlot) : (modSlot x f s).slot x = f (s.slot x) := by cases x <;> rfl
@[simp] theorem modSlot_slot_other (x : Slot) (f : CtSlot → CtSlot) : (modSlot x f s).slot x.other = s.slot x.other := by
  cases x <;> rfl
theorem modSlot_slot_ne (x y : Slot) (f : CtSlot → CtSlot) (h : y ≠ x) : (modSlot x f s).slot y = s.slot y := by
  cases x <;> cases y <;> first | rfl | exact absurd rfl h
theorem slot_congr {t : State} (h : t.ct = s.ct) (x : Slot) : t.slot x = s.slot x := by
  cases x <;> simp [State.slot, h]
@[simp] theorem modSp_sp (p : Port) (f : Sp → Sp) : (modSp p f s).sp p = f (s.sp p) := by cases p <;> rfl
@[simp] theorem modTenant_tenant (c : Ctx) (f : Tenant → Tenant) : (modTenant c f s).tenant c = f (s.tenant c) := by
  simp [modTenant, State.tenant, modAt]
theorem modTenant_tenant_ne (c d : Ctx) (f : Tenant → Tenant) (h : d ≠ c) : (modTenant c f s).tenant d = s.tenant d := by
  have : c.val ≠ d.val := fun e => h (Fin.ext e.symm)
  simp [modTenant, State.tenant, modAt, this]
@[simp] theorem modCh_ch (n : Fin 32) (f : DmaCh → DmaCh) : (modCh n f s).dm.ch[n] = f s.dm.ch[n] := by
  simp [modCh, modAt]
theorem modCh_ch_ne (n m : Fin 32) (f : DmaCh → DmaCh) (h : m ≠ n) : (modCh n f s).dm.ch[m] = s.dm.ch[m] := by
  have : n.val ≠ m.val := fun e => h (Fin.ext e.symm)
  simp [modCh, modAt, this]
@[simp] theorem goState_state (p : Power) (w : BitVec 8) : (goState p w s).pw.state = p := by
  unfold goState; split
  · assumption
  · rfl
@[simp] theorem goDuet_state (d : Duet) : (goDuet d s).duet.state = d := by
  unfold goDuet; split
  · assumption
  · rfl

/-- A fold of operations that keep a part of the state keeps that part. -/
theorem foldl_keeps {α β : Type} (g : State → β) (f : State → α → State) (h : ∀ s a, g (f s a) = g s) (l : List α) :
    ∀ s, g (l.foldl f s) = g s := by
  induction l with
  | nil => intro s; rfl
  | cons a l ih => intro s; rw [List.foldl_cons, ih, h]

end Sys2Proof.Machine
end

