-- ==== Sys2Proof/Laws/Access.lean ====
section
/-! SUPPORT. What a register write comes to: the lemmas that lead from a channel's write to its unit's judgement. -/

namespace Sys2Proof.Machine

@[simp] theorem byteMask_all : byteMask allBytes = 0xFFFFFFFF := by decide

@[simp] theorem and_ones32 (v : Word) : v &&& 0xFFFFFFFF#32 = v := by
  have : (0xFFFFFFFF#32 : Word) = BitVec.allOnes 32 := by decide
  rw [this, BitVec.and_allOnes]

@[simp] theorem blend_all (old v : Word) : blend old v allBytes = v := by
  have : ~~~(0xFFFFFFFF#32 : Word) = 0 := by decide
  simp [blend, this]

theorem judge_taken {codes : List (Option (BitVec 8))} (h : ∀ c ∈ codes, c = none) (t : State) : judge codes t = .taken t := by
  have : codes.findSome? id = none := by rw [List.findSome?_eq_none_iff]; exact h
  simp [judge, this]

theorem judge_refused {codes : List (Option (BitVec 8))} {k : BitVec 8} (h : codes.findSome? id = some k) (t : State) :
    judge codes t = .refused k := by simp [judge, h]

@[simp] theorem inState_true : inState true = none := rfl
@[simp] theorem inState_false : inState false = some cWRONG_STATE := rfl
@[simp] theorem inBound_true : inBound true = none := rfl
@[simp] theorem inBound_false : inBound false = some cRANGE := rfl
@[simp] theorem permitted_true : permitted true = none := rfl
@[simp] theorem permitted_false : permitted false = some cPERMISSION := rfl

theorem not_booting {s : State} (h : afterReplay s = true) : booting s = false := by
  revert h; simp only [afterReplay, notTest, usualField, usual, booting]; cases s.pw.state <;> simp

theorem MayWrite.reaches {ch : Chan} {off : Nat} {s : State} (h : MayWrite ch off s) : Machine.reaches s ch = true := by
  obtain ⟨⟨⟨hc, hd, hs⟩, ha, -⟩, hch⟩ := h
  have hb := not_booting ha
  revert hc hb ha
  rcases hch with rfl | ⟨rfl, -⟩ | ⟨rfl, hm⟩ <;>
    simp only [Machine.reaches, hd, hs, booting, afterReplay, notTest, usualField, usual] <;>
    cases s.pw.state <;> simp_all [Power.clocked]

theorem MayWrite.notSp1 {ch : Chan} {off : Nat} {s : State} (h : MayWrite ch off s) : ch ≠ .sp1 := by
  rcases h.2 with rfl | ⟨rfl, -⟩ | ⟨rfl, -⟩ <;> decide

theorem MayWrite.cmdOp {ch : Chan} {off : Nat} {s : State} (h : MayWrite ch off s) :
    cmdOp ch off = some { off := off } := by
  rcases h.2 with rfl | ⟨rfl, hg⟩ | ⟨rfl, -⟩ <;> simp_all [Machine.cmdOp]

theorem MayWrite.gate {ch : Chan} {off : Nat} {s : State} (h : MayWrite ch off s) : gateCode ch off s = none := by
  have := h.notSp1
  obtain ⟨⟨⟨-, -, hs⟩, ha, he⟩, -⟩ := h
  simp [gateCode, this, not_booting ha, hs, he]

/-- A write that its unit takes, and that stages nothing, leaves what the unit's judgement leaves. -/
theorem writeAt_taken {ch : Chan} {off : Nat} {be : BitVec 4} {v : Word} {s t : State} {b : Block} (h : MayWrite ch off s)
    (hb : blockOf off = some b) (hm : off ≠ 0x1014)
    (hj : judgeWrite ch b off (tnIndex s ch) be v s = .taken t)
    (hs : stageOf (windowLapse s) ch.mgmt off (tnIndex s ch) v be = .nothing) : writeAt ch off be v s = t := by
  have hc : RegOp.carried { off := off, ctx := none, shown := 4294967295#32 } ch v s = v := by simp [RegOp.carried, hm]
  simp [writeAt, h.cmdOp, h.reaches, writeReg, hb, h.gate, RegOp.tenant, hc, hj, hs]

/-- A register without CS fields stages nothing. -/
theorem stageOf_plain {s : State} {mgmt : Bool} {off : Nat} {c : Ctx} {v : Word} {be : BitVec 4} (h : csMask off = 0) :
    stageOf s mgmt off c v be = .nothing := by
  have hw : csWritten off be = 0 := by simp [csWritten, h]
  simp [stageOf, hw, stages]

end Sys2Proof.Machine
end

