-- ==== Sys2Proof/Laws/Arbiter.lean ====
section
/-! SUPPORT. What the end of a cycle and the arbiters change, and what a grant comes to where nobody else waits. -/

namespace Sys2Proof.Machine

variable (s : State)

/-- The end of a cycle changes the time, the ledger and the contexts only. -/
theorem swapMinute_shape : swapMinute s = { s with lg := (swapMinute s).lg, tn := (swapMinute s).tn } := by
  unfold swapMinute
  split
  · rfl
  · rename_i k _
    cases hm : k.merge <;> cases hs : k.step <;> rfl

theorem passCycle_shape :
    passCycle s = { s with now := s.now + 1, lg := (passCycle s).lg, tn := (passCycle s).tn } := by
  unfold passCycle
  rw [swapMinute_shape]

@[simp] theorem passCycle_now : (passCycle s).now = s.now + 1 := by rw [passCycle_shape]
@[simp] theorem passCycle_gl : (passCycle s).gl = s.gl := by rw [passCycle_shape]
@[simp] theorem passCycle_pc : (passCycle s).pc = s.pc := by rw [passCycle_shape]
@[simp] theorem passCycle_ct : (passCycle s).ct = s.ct := by rw [passCycle_shape]
@[simp] theorem passCycle_duet : (passCycle s).duet = s.duet := by rw [passCycle_shape]
@[simp] theorem passCycle_md : (passCycle s).md = s.md := by rw [passCycle_shape]
@[simp] theorem passCycle_cs : (passCycle s).cs = s.cs := by rw [passCycle_shape]
@[simp] theorem passCycle_dm : (passCycle s).dm = s.dm := by rw [passCycle_shape]
@[simp] theorem passCycle_hl : (passCycle s).hl = s.hl := by rw [passCycle_shape]
@[simp] theorem passCycle_sp0 : (passCycle s).sp0 = s.sp0 := by rw [passCycle_shape]
@[simp] theorem passCycle_sp1 : (passCycle s).sp1 = s.sp1 := by rw [passCycle_shape]
@[simp] theorem passCycle_ks : (passCycle s).ks = s.ks := by rw [passCycle_shape]
@[simp] theorem passCycle_bt : (passCycle s).bt = s.bt := by rw [passCycle_shape]
@[simp] theorem passCycle_pw : (passCycle s).pw = s.pw := by rw [passCycle_shape]
@[simp] theorem passCycle_ev : (passCycle s).ev = s.ev := by rw [passCycle_shape]
@[simp] theorem passCycle_shelf : (passCycle s).shelf = s.shelf := by rw [passCycle_shape]
@[simp] theorem passCycle_out : (passCycle s).out = s.out := by rw [passCycle_shape]
@[simp] theorem passCycle_egress : (passCycle s).egress = s.egress := by rw [passCycle_shape]
@[simp] theorem passCycle_freeCtr : (passCycle s).freeCtr = s.freeCtr := by rw [passCycle_shape]
@[simp] theorem passCycle_pending : (passCycle s).pending = s.pending := by rw [passCycle_shape]

/-- Where no minute closes, only the time goes on. -/
theorem passCycle_open (h : s.lg.closing = none) : passCycle s = { s with now := s.now + 1 } := by
  simp [passCycle, swapMinute, h]

/-- What an arbiter's grants change: its own record and GL_ARB_MAXWAIT, and the cycles that pass. -/
def ArbShape (s t : State) : Prop :=
  t = { s with now := t.now, lg := t.lg, tn := t.tn, gl := { s.gl with
    arbTag := t.gl.arbTag, arbBank := t.gl.arbBank, arbEgress := t.gl.arbEgress, arbCrypto := t.gl.arbCrypto
    maxArb := t.gl.maxArb, maxGrants := t.gl.maxGrants } }

theorem ArbShape.refl : ArbShape s s := rfl

theorem ArbShape.trans {s t u : State} (h : ArbShape s t) (k : ArbShape t u) : ArbShape s u := by
  unfold ArbShape at *
  rw [k, h]

theorem setArb_shape (i : ArbId) (a : Arb) : ArbShape s (setArb i a s) := by cases i <;> rfl

theorem noteWait_shape (c : BitVec 8) (n : Nat) : ArbShape s (noteWait c n s) := by
  unfold noteWait; split <;> rfl

theorem grantTo_shape (i : ArbId) (who : Nat) (l : List Nat) : ArbShape s (grantTo i who l s) :=
  (setArb_shape s i _).trans (noteWait_shape _ _ _)

theorem nextGrant_shape (i : ArbId) : ArbShape s (nextGrant i s) := by
  unfold nextGrant; split
  · unfold ArbShape; rw [passCycle_shape]
  · rfl

theorem grantUntil_shape (i : ArbId) (who n : Nat) : ∀ (l : List Nat) (s : State), ArbShape s (grantUntil i who n l s) := by
  induction n with
  | zero => intro l s; rfl
  | succ n ih =>
    intro l s
    simp only [grantUntil]
    have h := nextGrant_shape s i
    split
    · exact h
    · rename_i k _
      have g := h.trans (grantTo_shape (nextGrant i s) i k l)
      split
      · exact g
      · exact (g.trans (setArb_shape _ i _)).trans (ih _ _)

/-- Everything that a request at an arbiter can do. -/
theorem arbitrate_shape (i : ArbId) (who : Nat) (l : List Nat) : ArbShape s (arbitrate i who l s) := by
  unfold arbitrate
  simp only
  split
  · exact setArb_shape s i _
  · exact (setArb_shape s i _).trans (grantUntil_shape i who _ _ _)

@[simp] theorem arbitrate_pc (i : ArbId) (who : Nat) (l : List Nat) : (arbitrate i who l s).pc = s.pc := by
  rw [arbitrate_shape s i who l]
@[simp] theorem arbitrate_ct (i : ArbId) (who : Nat) (l : List Nat) : (arbitrate i who l s).ct = s.ct := by
  rw [arbitrate_shape s i who l]
@[simp] theorem arbitrate_duet (i : ArbId) (who : Nat) (l : List Nat) : (arbitrate i who l s).duet = s.duet := by
  rw [arbitrate_shape s i who l]
@[simp] theorem arbitrate_md (i : ArbId) (who : Nat) (l : List Nat) : (arbitrate i who l s).md = s.md := by
  rw [arbitrate_shape s i who l]
@[simp] theorem arbitrate_cs (i : ArbId) (who : Nat) (l : List Nat) : (arbitrate i who l s).cs = s.cs := by
  rw [arbitrate_shape s i who l]
@[simp] theorem arbitrate_dm (i : ArbId) (who : Nat) (l : List Nat) : (arbitrate i who l s).dm = s.dm := by
  rw [arbitrate_shape s i who l]
@[simp] theorem arbitrate_hl (i : ArbId) (who : Nat) (l : List Nat) : (arbitrate i who l s).hl = s.hl := by
  rw [arbitrate_shape s i who l]
@[simp] theorem arbitrate_sp0 (i : ArbId) (who : Nat) (l : List Nat) : (arbitrate i who l s).sp0 = s.sp0 := by
  rw [arbitrate_shape s i who l]
@[simp] theorem arbitrate_sp1 (i : ArbId) (who : Nat) (l : List Nat) : (arbitrate i who l s).sp1 = s.sp1 := by
  rw [arbitrate_shape s i who l]
@[simp] theorem arbitrate_ks (i : ArbId) (who : Nat) (l : List Nat) : (arbitrate i who l s).ks = s.ks := by
  rw [arbitrate_shape s i who l]
@[simp] theorem arbitrate_bt (i : ArbId) (who : Nat) (l : List Nat) : (arbitrate i who l s).bt = s.bt := by
  rw [arbitrate_shape s i who l]
@[simp] theorem arbitrate_pw (i : ArbId) (who : Nat) (l : List Nat) : (arbitrate i who l s).pw = s.pw := by
  rw [arbitrate_shape s i who l]
@[simp] theorem arbitrate_ev (i : ArbId) (who : Nat) (l : List Nat) : (arbitrate i who l s).ev = s.ev := by
  rw [arbitrate_shape s i who l]
@[simp] theorem arbitrate_shelf (i : ArbId) (who : Nat) (l : List Nat) : (arbitrate i who l s).shelf = s.shelf := by
  rw [arbitrate_shape s i who l]
@[simp] theorem arbitrate_out (i : ArbId) (who : Nat) (l : List Nat) : (arbitrate i who l s).out = s.out := by
  rw [arbitrate_shape s i who l]
@[simp] theorem arbitrate_egress (i : ArbId) (who : Nat) (l : List Nat) : (arbitrate i who l s).egress = s.egress := by
  rw [arbitrate_shape s i who l]
@[simp] theorem arbitrate_freeCtr (i : ArbId) (who : Nat) (l : List Nat) : (arbitrate i who l s).freeCtr = s.freeCtr := by
  rw [arbitrate_shape s i who l]
@[simp] theorem arbitrate_pending (i : ArbId) (who : Nat) (l : List Nat) : (arbitrate i who l s).pending = s.pending := by
  rw [arbitrate_shape s i who l]
@[simp] theorem arbitrate_gl_tags (i : ArbId) (who : Nat) (l : List Nat) : (arbitrate i who l s).gl.tags = s.gl.tags := by
  rw [arbitrate_shape s i who l]
@[simp] theorem arbitrate_gl_relTags (i : ArbId) (who : Nat) (l : List Nat) : (arbitrate i who l s).gl.relTags = s.gl.relTags := by
  rw [arbitrate_shape s i who l]
@[simp] theorem arbitrate_gl_ingress (i : ArbId) (who : Nat) (l : List Nat) : (arbitrate i who l s).gl.ingress = s.gl.ingress := by
  rw [arbitrate_shape s i who l]
@[simp] theorem arbitrate_gl_tagPeak (i : ArbId) (who : Nat) (l : List Nat) : (arbitrate i who l s).gl.tagPeak = s.gl.tagPeak := by
  rw [arbitrate_shape s i who l]
@[simp] theorem arbitrate_gl_ageLimit (i : ArbId) (who : Nat) (l : List Nat) : (arbitrate i who l s).gl.ageLimit = s.gl.ageLimit := by
  rw [arbitrate_shape s i who l]
@[simp] theorem arbitrate_gl_stall (i : ArbId) (who : Nat) (l : List Nat) : (arbitrate i who l s).gl.stall = s.gl.stall := by
  rw [arbitrate_shape s i who l]
@[simp] theorem arbitrate_gl_relPosted (i : ArbId) (who : Nat) (l : List Nat) : (arbitrate i who l s).gl.relPosted = s.gl.relPosted := by
  rw [arbitrate_shape s i who l]
@[simp] theorem arbitrate_gl_relNonPosted (i : ArbId) (who : Nat) (l : List Nat) : (arbitrate i who l s).gl.relNonPosted = s.gl.relNonPosted := by
  rw [arbitrate_shape s i who l]
@[simp] theorem arbitrate_gl_nextReq (i : ArbId) (who : Nat) (l : List Nat) : (arbitrate i who l s).gl.nextReq = s.gl.nextReq := by
  rw [arbitrate_shape s i who l]
@[simp] theorem arbitrate_gl_fences (i : ArbId) (who : Nat) (l : List Nat) : (arbitrate i who l s).gl.fences = s.gl.fences := by
  rw [arbitrate_shape s i who l]
@[simp] theorem arbitrate_gl_bankLast (i : ArbId) (who : Nat) (l : List Nat) : (arbitrate i who l s).gl.bankLast = s.gl.bankLast := by
  rw [arbitrate_shape s i who l]
@[simp] theorem arbitrate_gl_holPosted (i : ArbId) (who : Nat) (l : List Nat) : (arbitrate i who l s).gl.holPosted = s.gl.holPosted := by
  rw [arbitrate_shape s i who l]
@[simp] theorem arbitrate_gl_holNonPosted (i : ArbId) (who : Nat) (l : List Nat) : (arbitrate i who l s).gl.holNonPosted = s.gl.holNonPosted := by
  rw [arbitrate_shape s i who l]
@[simp] theorem arbitrate_gl_bootEnd (i : ArbId) (who : Nat) (l : List Nat) : (arbitrate i who l s).gl.bootEnd = s.gl.bootEnd := by
  rw [arbitrate_shape s i who l]

/-- A requester with nobody else before it, at an arbiter that has not granted in the cycle, is granted in it. -/
theorem arbitrate_alone (i : ArbId) (who : Nat) (l : List Nat) (hg : (s.arb i).granted ≠ some s.now) (hd : (s.arb i).due = [])
    (hl : l = [] ∨ l = [who]) : arbitrate i who l s = grantTo i who [who] s := by
  have hw : withWho who l = [who] := by rcases hl with rfl | rfl <;> simp [withWho]
  have hs : setArb i { s.arb i with due := [] } s = s := by
    have : ({ s.arb i with due := [] } : Arb) = s.arb i := by rw [← hd]
    rw [this]; cases i <;> simp [setArb, State.arb]
  have hp : pick i (s.arb i) [who] = some who := by
    have aged : ∀ ws : List Waiter, ((firstAged (ws.filter fun w => decide (w.who ∈ [who]))).map fun w => w.who) = none ∨
        ((firstAged (ws.filter fun w => decide (w.who ∈ [who]))).map fun w => w.who) = some who := by
      intro ws
      have all : ∀ w ∈ ws.filter (fun w => decide (w.who ∈ [who])), w.who = who := by simp
      generalize ws.filter (fun w => decide (w.who ∈ [who])) = f at all
      have pick : ∀ f : List Waiter, (∀ w ∈ f, w.who = who) → ∀ w, firstAged f = some w → w.who = who := by
        intro f
        induction f with
        | nil => intro _ w h; simp [firstAged] at h
        | cons a r ih =>
          intro hf w h
          have ha := hf a (by simp)
          have hr := ih fun w hw => hf w (by simp [hw])
          simp only [firstAged] at h
          split at h
          · exact hr w h
          · cases h; exact ha
          · rename_i t v _ hv
            split at h
            · cases h; exact hr _ hv
            · cases h; exact ha
      cases h : firstAged f with
      | none => simp
      | some w => right; simp [pick f all w h]
    unfold pick
    rcases aged (s.arb i).waits with h | h
    · rw [h]
      have : inTurn i (s.arb i) [who] = some who := by
        unfold inTurn
        split
        · rfl
        · split
          · rename_i _ h; simp at h; simp [h.2]
          · by_cases hk : (s.arb i).last < who <;> simp [hk]
      simp [this]
    · rw [h]; rfl
  unfold arbitrate
  simp only [hd, List.filter_nil, List.not_mem_nil, if_false]
  have hf : l.filter (fun _ => decide ¬False) = l := by simp
  rw [hs, hf, hw]
  simp [grantUntil, nextGrant, hg, hp]

/-! ### What egress sends -/

@[simp] theorem send_pc (o : Out) (g : Option Nat) : (send o g s).pc = s.pc := by
  unfold send; repeat' split
  all_goals simp
@[simp] theorem send_ct (o : Out) (g : Option Nat) : (send o g s).ct = s.ct := by
  unfold send; repeat' split
  all_goals simp
@[simp] theorem send_duet (o : Out) (g : Option Nat) : (send o g s).duet = s.duet := by
  unfold send; repeat' split
  all_goals simp
@[simp] theorem send_md (o : Out) (g : Option Nat) : (send o g s).md = s.md := by
  unfold send; repeat' split
  all_goals simp
@[simp] theorem send_cs (o : Out) (g : Option Nat) : (send o g s).cs = s.cs := by
  unfold send; repeat' split
  all_goals simp
@[simp] theorem send_dm (o : Out) (g : Option Nat) : (send o g s).dm = s.dm := by
  unfold send; repeat' split
  all_goals simp
@[simp] theorem send_hl (o : Out) (g : Option Nat) : (send o g s).hl = s.hl := by
  unfold send; repeat' split
  all_goals simp
@[simp] theorem send_sp0 (o : Out) (g : Option Nat) : (send o g s).sp0 = s.sp0 := by
  unfold send; repeat' split
  all_goals simp
@[simp] theorem send_sp1 (o : Out) (g : Option Nat) : (send o g s).sp1 = s.sp1 := by
  unfold send; repeat' split
  all_goals simp
@[simp] theorem send_ks (o : Out) (g : Option Nat) : (send o g s).ks = s.ks := by
  unfold send; repeat' split
  all_goals simp
@[simp] theorem send_bt (o : Out) (g : Option Nat) : (send o g s).bt = s.bt := by
  unfold send; repeat' split
  all_goals simp
@[simp] theorem send_pw (o : Out) (g : Option Nat) : (send o g s).pw = s.pw := by
  unfold send; repeat' split
  all_goals simp
@[simp] theorem send_ev (o : Out) (g : Option Nat) : (send o g s).ev = s.ev := by
  unfold send; repeat' split
  all_goals simp
@[simp] theorem send_shelf (o : Out) (g : Option Nat) : (send o g s).shelf = s.shelf := by
  unfold send; repeat' split
  all_goals simp
@[simp] theorem send_freeCtr (o : Out) (g : Option Nat) : (send o g s).freeCtr = s.freeCtr := by
  unfold send; repeat' split
  all_goals simp
@[simp] theorem send_pending (o : Out) (g : Option Nat) : (send o g s).pending = s.pending := by
  unfold send; repeat' split
  all_goals simp

end Sys2Proof.Machine
end

