-- ==== Sys2Proof/Laws/Bits.lean ====
section
/-! SUPPORT. Bytes and the numbers they spell: the two conversions undo each other, and the lengths of what the hash gives. -/

namespace Sys2Proof.Machine

@[simp] theorem leBytes_length (k x : Nat) : (leBytes k x).length = k := by
  induction k generalizing x with
  | zero => rfl
  | succ k ih => simp [leBytes, ih]

theorem ofLe_lt (l : List Byte) : ofLe l < 256 ^ l.length := by
  induction l with
  | nil => simp [ofLe]
  | cons b l ih =>
    have := b.isLt
    simp only [ofLe, List.length_cons, Nat.pow_succ]
    omega

theorem leBytes_ofLe (l : List Byte) : leBytes l.length (ofLe l) = l := by
  induction l with
  | nil => rfl
  | cons b l ih =>
    have hb : BitVec.ofNat 8 (b.toNat + 256 * ofLe l) = b := by
      apply BitVec.eq_of_toNat_eq
      have := b.isLt
      simp only [BitVec.toNat_ofNat]
      omega
    have hq : (b.toNat + 256 * ofLe l) / 256 = ofLe l := by
      have := b.isLt
      omega
    simp [leBytes, ofLe, hb, hq, ih]

theorem ofLe_leBytes (k x : Nat) : ofLe (leBytes k x) = x % 256 ^ k := by
  induction k generalizing x with
  | zero => simp [leBytes, ofLe, Nat.mod_one]
  | succ k ih =>
    have h8 : (2 : Nat) ^ 8 = 256 := rfl
    rw [Nat.pow_succ, Nat.mul_comm (256 ^ k) 256, Nat.mod_mul]
    simp only [leBytes, ofLe, ih, BitVec.toNat_ofNat, h8]

/-- A number of `8 k` bits spells `k` bytes that spell it. -/
theorem leBytes_ofNat (l : List Byte) (w : Nat) (h : 256 ^ l.length ≤ 2 ^ w) : leBytes l.length (BitVec.ofNat w (ofLe l)).toNat = l := by
  rw [BitVec.toNat_ofNat, Nat.mod_eq_of_lt (Nat.lt_of_lt_of_le (ofLe_lt l) h), leBytes_ofLe]

@[simp] theorem wordBytes_length (w : Word) : (wordBytes w).length = 4 := leBytes_length _ _

theorem wordBytes_wordOf (l : List Byte) (h : 4 ≤ l.length) : wordBytes (wordOf l) = l.take 4 := by
  have hl : (l.take 4).length = 4 := by simp [h]
  have := leBytes_ofNat (l.take 4) 32 (by rw [hl]; decide)
  rwa [hl] at this

@[simp] theorem sha256_length (m : List Byte) : (sha256 m).length = 32 := by
  simp [sha256, List.flatMap]

@[simp] theorem hmac_length (key msg : List Byte) : (hmac key msg).length = 32 := sha256_length _

end Sys2Proof.Machine
end

