-- ==== Sys2Proof/Laws/Memory.lean ====
section
/-! SUPPORT. The laws of the byte memories: every write keeps the canonical form, a read after a write gives the value written,
every other address reads as before, and two memories in the form that read alike are equal. -/

namespace Sys2Proof.Machine

theorem mem_memWrite {dflt : Nat → Byte} {a : Nat} {v : Byte} {c : Host.Cell} :
    ∀ {m : List Host.Cell}, c ∈ memWrite dflt a v m → c.1 = a ∨ c ∈ m
  | [], h => by
    unfold memWrite at h; split at h <;> simp at h; left; rw [h]
  | (k, b) :: rest, h => by
    unfold memWrite at h
    split at h
    · split at h
      · exact .inr h
      · rcases List.mem_cons.1 h with h | h
        · left; rw [h]
        · exact .inr h
    · split at h
      · split at h
        · exact .inr (List.mem_cons_of_mem _ h)
        · rcases List.mem_cons.1 h with h | h
          · left; rw [h]
          · exact .inr (List.mem_cons_of_mem _ h)
      · rcases List.mem_cons.1 h with h | h
        · exact .inr (h ▸ List.mem_cons_self)
        · exact (mem_memWrite h).imp id (List.mem_cons_of_mem _)

theorem memOk_cons {dflt : Nat → Byte} {k : Nat} {b : Byte} {m : List Host.Cell} :
    memOk dflt ((k, b) :: m) = true ↔ b ≠ dflt k ∧ (∀ c ∈ m, k < c.1) ∧ memOk dflt m = true := by
  simp only [memOk, Bool.and_eq_true, decide_eq_true_eq, List.all_eq_true, and_assoc]

/-- A write of one byte keeps the canonical form. -/
theorem memOk_memWrite (dflt : Nat → Byte) (a : Nat) (v : Byte) :
    ∀ m : List Host.Cell, memOk dflt m = true → memOk dflt (memWrite dflt a v m) = true
  | [], _ => by unfold memWrite; split <;> simp_all [memOk]
  | (k, b) :: rest, h => by
    obtain ⟨h1, h2, h3⟩ := memOk_cons.1 h
    unfold memWrite
    split
    · split
      · exact h
      · refine memOk_cons.2 ⟨‹_›, fun c hc => ?_, h⟩
        rcases List.mem_cons.1 hc with hc | hc
        · rw [hc]; assumption
        · exact Nat.lt_trans ‹a < k› (h2 c hc)
    · split
      · subst a; split
        · exact h3
        · exact memOk_cons.2 ⟨‹_›, h2, h3⟩
      · refine memOk_cons.2 ⟨h1, fun c hc => ?_, memOk_memWrite dflt a v rest h3⟩
        rcases mem_memWrite hc with hc | hc
        · omega
        · exact h2 c hc

/-- A write of several bytes keeps the canonical form. -/
theorem memOk_memWriteMany (dflt : Nat → Byte) :
    ∀ (bs : List Byte) (a : Nat) (m : List Host.Cell), memOk dflt m = true → memOk dflt (memWriteMany dflt a bs m) = true
  | [], _, _, h => h
  | b :: bs, a, m, h => memOk_memWriteMany dflt bs (a + 1) _ (memOk_memWrite dflt a b m h)

theorem memRead_below {dflt : Nat → Byte} {a : Nat} : ∀ {m : List Host.Cell}, (∀ c ∈ m, a < c.1) → memRead dflt a m = dflt a
  | [], _ => rfl
  | (k, b) :: rest, h => by
    have hk : a < k := h (k, b) List.mem_cons_self
    unfold memRead
    rw [if_neg (by omega)]
    exact memRead_below fun c hc => h c (List.mem_cons_of_mem _ hc)

/-- What a byte reads as after a write of one byte. -/
theorem memRead_memWrite (dflt : Nat → Byte) (a x : Nat) (v : Byte) :
    ∀ m : List Host.Cell, memOk dflt m = true → memRead dflt x (memWrite dflt a v m) = if x = a then v else memRead dflt x m
  | [], _ => by
    unfold memWrite
    by_cases h : v = dflt a <;> by_cases hx : x = a
    · subst hx; simp [memRead, h]
    · simp [memRead, h, hx]
    · subst hx; simp [memRead, h]
    · simp [memRead, h, hx, Ne.symm hx]
  | (k, b) :: rest, h => by
    obtain ⟨_, h2, h3⟩ := memOk_cons.1 h
    have ih := memRead_memWrite dflt a x v rest h3
    unfold memWrite
    by_cases hak : a < k
    · have hbelow : memRead dflt a ((k, b) :: rest) = dflt a :=
        memRead_below fun c hc => by
          rcases List.mem_cons.1 hc with hc | hc
          · rw [hc]; exact hak
          · exact Nat.lt_trans hak (h2 c hc)
      by_cases hv : v = dflt a <;> by_cases hx : x = a
      · subst hx; simp [hak, hv, hbelow]
      · simp [hak, hv, hx]
      · subst hx; simp [hak, hv, memRead]
      · simp [hak, hv, hx, memRead, Ne.symm hx]
    · by_cases hk : a = k
      · subst hk
        have hbelow : memRead dflt a rest = dflt a := memRead_below h2
        by_cases hv : v = dflt a <;> by_cases hx : x = a
        · subst hx; simp [hv, hbelow]
        · simp [hv, hx, memRead, Ne.symm hx]
        · subst hx; simp [hv, memRead]
        · simp [hv, hx, memRead, Ne.symm hx]
      · simp only [hak, hk, if_false, memRead, ih]
        by_cases hx : x = a
        · subst hx; simp [Ne.symm hk]
        · simp [hx]

/-- Every byte outside the ones written reads as before. -/
theorem memRead_memWriteMany_outside (dflt : Nat → Byte) (x : Nat) :
    ∀ (bs : List Byte) (a : Nat) (m : List Host.Cell), memOk dflt m = true → (x < a ∨ a + bs.length ≤ x) →
      memRead dflt x (memWriteMany dflt a bs m) = memRead dflt x m
  | [], _, _, _, _ => rfl
  | b :: bs, a, m, h, hx => by
    rw [List.length_cons] at hx
    rw [memWriteMany, memRead_memWriteMany_outside dflt x bs (a + 1) _ (memOk_memWrite dflt a b m h) (by omega),
      memRead_memWrite dflt a x b m h, if_neg (by omega)]

/-- Reading the bytes written gives them back. -/
theorem memReadMany_memWriteMany (dflt : Nat → Byte) :
    ∀ (bs : List Byte) (a : Nat) (m : List Host.Cell), memOk dflt m = true →
      memReadMany dflt (memWriteMany dflt a bs m) a bs.length = bs
  | [], _, _, _ => rfl
  | b :: bs, a, m, h => by
    have hk := memOk_memWrite dflt a b m h
    rw [List.length_cons, memReadMany, memWriteMany, memReadMany_memWriteMany dflt bs (a + 1) _ hk,
      memRead_memWriteMany_outside dflt a bs (a + 1) _ hk (by omega), memRead_memWrite dflt a a b m h, if_pos rfl]

/-- Two memories in the canonical form that read alike are the same data. -/
theorem memOk_ext {dflt : Nat → Byte} : ∀ {m n : List Host.Cell}, memOk dflt m = true → memOk dflt n = true →
    (∀ x, memRead dflt x m = memRead dflt x n) → m = n
  | [], [], _, _, _ => rfl
  | [], (k, b) :: rest, _, hn, h => by
    have := h k; simp only [memRead, if_true] at this
    exact absurd this.symm (memOk_cons.1 hn).1
  | (k, b) :: rest, [], hm, _, h => by
    have := h k; simp only [memRead, if_true] at this
    exact absurd this (memOk_cons.1 hm).1
  | (k, b) :: m, (k', b') :: n, hm, hn, h => by
    obtain ⟨h1, h2, h3⟩ := memOk_cons.1 hm
    obtain ⟨g1, g2, g3⟩ := memOk_cons.1 hn
    have hkk : k = k' := by
      rcases Nat.lt_trichotomy k k' with hlt | he | hlt
      · have e := h k
        rw [memRead, if_pos rfl, memRead_below (m := (k', b') :: n) fun c hc => by
          rcases List.mem_cons.1 hc with hc | hc
          · rw [hc]; exact hlt
          · exact Nat.lt_trans hlt (g2 c hc)] at e
        exact absurd e h1
      · exact he
      · have e := h k'
        rw [memRead_below (m := (k, b) :: m) fun c hc => by
          rcases List.mem_cons.1 hc with hc | hc
          · rw [hc]; exact hlt
          · exact Nat.lt_trans hlt (h2 c hc), memRead, if_pos rfl] at e
        exact absurd e.symm g1
    subst hkk
    have hb : b = b' := by have := h k; simpa [memRead] using this
    subst hb
    refine congrArg _ (memOk_ext h3 g3 fun x => ?_)
    by_cases hx : k = x
    · subst hx; rw [memRead_below h2, memRead_below g2]
    · have := h x; simpa [memRead, hx] using this

end Sys2Proof.Machine
end

