-- ==== Sys2Proof/WellFormed.lean ====
section
/-! DEFINITION. Which terms are commands that the block's ports can carry: the bounds that the manual and its buses put on the operands. -/

namespace Sys2Proof

/-- A trained host-link width (R219). -/
def linkWidth (w : Fin 9) : Bool := decide (w = 1 ∨ w = 2 ∨ w = 4 ∨ w = 8)

/-- A VF has one vector, entry 0; the PF has 192 (R229). -/
def vectorOf (fn : Fn) (entry : Fin 192) : Bool :=
  match fn with
  | .pf => true
  | .vf _ => decide (entry = 0)

/-- The byte enables of one access to a register are some, and contiguous (R380). -/
def contiguous (be : BitVec 4) : Bool :=
  decide (be ∈ ([1, 2, 4, 8, 3, 6, 12, 7, 14, 15] : List (BitVec 4)))

/-- A setting of configuration space lies in its range: the payload and request sizes of PCI Express, and a page size that is a power of two
from 4 KiB (R228, R239). -/
def fits (fn : Fn) (reg : CfgReg) : Bool :=
  match reg with
  | .device mps mrrs _ _ =>
    decide (mps ∈ ([128, 256, 512, 1024, 2048, 4096] : List Nat)) && decide (mrrs ∈ ([128, 256, 512, 1024, 2048, 4096] : List Nat))
  | .sysPage bytes => decide (fn = .pf) && (List.range 32).any fun k => decide (bytes = 4096 * 2 ^ k)
  | .hdm _ _ => decide (fn = .pf)
  | .ident | .classCode | .subsystem | .serialLo | .serialHi | .msix _ _ | .power _ | .bar _ _ | .cap _ | .aer _ => true

/-- The command is one that the block's ports can carry. A request lies within 4 KiB, as PCI Express has it (R234); the readings of a test are
as many as Table 11.1 takes (R292); the rows of a failing SRAM are named by their array (R306). -/
def Instr.wellFormed : Instr → Bool
  | .hostRead _ _ off len sense => decide (1 ≤ len) && decide (off % 4096 + len ≤ 4096) && decide (sense.length ≤ 65)
  | .hostWrite _ _ off data _ _ => decide (1 ≤ data.length) && decide (off % 4096 + data.length ≤ 4096)
  | .configRequest fn reg => fits fn reg
  | .hostServiceStall fn entry => vectorOf fn entry
  | .csStage _ off be _ => decide (off.toNat % 4 = 0) && contiguous be
  | .disciplineInterval cycles => decide (0 < cycles)
  | .ksWdata _ be _ => contiguous be
  | .masterTransactionEnd _ sdo => decide (sdo.length ≤ 32768)
  | .spDataAccess _ _ _ be _ => contiguous be
  | .msixMessage fn entry => vectorOf fn entry
  | .holdup cs rs _ => decide (cs.length = 3) && decide (rs.length = 3)
  | .sramBist failing => failing.all fun r => decide (1 ≤ r.1) && decide (r.1 ≤ 4) && decide (r.2 < 4096)
  | .temp slot rs => decide (rs.length = if slot.isNone then 2 else 4)
  | .readClear _ off be => decide (off.toNat % 4 = 0) && contiguous be
  | .registerWrite _ off be _ => decide (off.toNat % 4 = 0) && contiguous be
  | .hostLinkUp speed width _ => decide (1 ≤ speed.val) && decide (speed.val ≤ 5) && linkWidth width
  | .perstNRelease _ _ _ | .perstNAssertion | .pfailNFall | .drainEnd .. | .pfailNRise | .lossOfLock | .referenceReturn
  | .railOutOfRange _ | .thermalTrip _ | .vbatLow _ | .ksBootScan | .bootEnd | .replayEntry .. | .ledgerReconcile _ | .replayEnd
  | .replayLate | .replayInhibitTimeout | .bootTestTimeout | .quietEn _ _ | .standby _ _ | .disarm _ _ | .standbyEntry
  | .standbyArmTimeout | .hibernate _ _ | .wake _ | .wakeAlarm | .ingressMove | .lineAdmission _ | .zeroLengthRead _ | .pcFlushRead _
  | .flushCompletion _ | .flushTimeout _ | .gpfPhase1 | .gpfPhase2 | .fence _ | .hotReset | .pfFlr | .vfFlr _ | .vfEnable _ _ _
  | .unsupportedRequest _ _ | .vendorDefinedMessage | .identifyMemoryDevice | .getPartitionInfo | .getHealthInfo | .setShutdownState _
  | .getEventRecords _ | .clearEventRecords _ _ | .getSupportedLogs | .getLog | .mailboxUnsupported _ | .completionTimeout _
  | .hlCreditStall _ _ | .holStall _ | .energyRecompute _ | .writeBack _ | .lineWrite _ _ | .trySenseResult ..
  | .correctionRewrite _ _ | .poisonRewrite _ _ | .gapMove .. | .scrub _ _ | .scrubNow _ _ | .scrubPause _ _ | .injectionArm _ _
  | .writeInhibit _ | .inhibitClear _ _ | .fieldHoldEntry | .fieldRepeat | .prsntNFall _ _ | .debounceEnd _ | .supervisorReady _
  | .authTimeout _ | .linkTraining _ _ _ | .headerClassify _ | .prsntNOpen _ | .release _ _ _ | .releaseComplete _ | .reauth _ _ _
  | .svSoft _ _ _ | .svSoftTimeout _ | .supervisorPassthrough _ _ _ | .idRead _ _ | .auth _ _ _ | .wearRead _ _ | .wearCharge _ _
  | .expoRead _ _ _ | .clockSync _ _ | .sensorRead _ _ | .indicator _ _ _ | .alertRead _ _ | .fieldTest _ _ _ _ | .powerNotice _ _ _
  | .supervisorPoll _ _ | .svTimeout _ | .supervisorRetry _ _ | .svalert _ | .exposureSecond _ _ _ | .flitLcrcError _
  | .linkIdleTimeout _ | .retrainEnd _ _ | .migratePacer | .duetAbort _ _ | .cut _ _ | .formatDone _ | .tnModeWrite .. | .tnModePersist _
  | .tokenRefill | .digestRecompute | .countersign _ _ | .withdraw _ _ | .windowLapse | .secretCommit _ _ | .metronomeTick
  | .secondBoundary | .minuteTick | .ledgerWrite _ | .frameSealed | .timeSync _ _ | .lgConsumedSeqWrite _ _ | .latch _ _ | .start _ _ _
  | .fermata _ _ _ | .pauseReached _ | .resume _ _ _ | .abort _ _ _ | .kick _ _ _ | .doorbell _ _ _ | .swRequest _ _ | .gpioRequest _ _
  | .descriptorFetch _ _ | .burstOpen _ | .beatRead _ | .beatWrite _ _ _ | .barrierReached _ | .coda _ | .busError _ | .ksRdata _
  | .commit _ _ | .discard _ _ | .ksBufExpired | .pageWriteStart | .pageWriteDone | .spPoll _ _ _ _ | .spWriteFrame _ _ _ _
  | .spReadFrame _ _ _ _ | .spModeChange _ | .masterTransaction _ _ _ | .stretchTimeout _ | .flushTx _ _ _ | .flushRx _ _ _ | .evPop _ _
  | .evRdSeqWrite _ _ | .evEntryLatch _ | .evRouteWrite _ _ | .evTraceMark _ _ | .evTraceSelWrite _ _ | .traceDataFetch _ | .twEvPop _ _
  | .twEvEntryLatch _ | .eventLogWrite | .traceSpill _ | .run _ _ | .testEntry | .stop _ _ | .exit _ _ | .testStart _ | .clkMetro _
  | .vholdCmp _ _ | .phyLb _ | .mlLb _ _ _ | .mramRef _ _ _ _ | .wdrv _ _ _ | .mag _ _ _ _ _ _ | .array _ _ _ _ | .remeasure _ _
  | .writebackAll _ _ | .apertureWrite _ _ | .shortDrain .. | .lossOfVbat | .startFromOff | .unexpectedCompletion => true

end Sys2Proof
end

