-- ==== Sys2Proof/Tests/Slice0.lean ====
section
/-! SUPPORT. Tests: terms that are no commands, the manual's examples, single steps, and states that meet the hypotheses of the statements. -/

section

set_option Elab.async false

open Sys2Proof Sys2Proof.Machine

/-! ### Small states -/

/-- ACTIVE, the log open, nothing in flight and both slots empty. -/
def live : State :=
  { State.reset with pw := { State.reset.pw with state := .active }, ev := { State.reset.ev with logOpen := true } }

/-- The state in another engine state. -/
def inP (p : Power) (s : State) : State := { s with pw := { s.pw with state := p } }

/-- A cartridge as made. -/
def cartA : Cart := { serial := 0x1234, big := false }

/-- A slot that serves a cartridge. -/
def slotUp (c : Cart) : CtSlot :=
  { state := .inService, cart := some c, present := true, link := .active, width := 8, svReady := true, identified := true,
    pwren := true, tested := true, bound := true, serial := c.serial, budget := 1000000, userGib := 32, idType := 1 }

/-- One cartridge in slot A, SOLO. -/
def solo (c : Cart) (s : State) : State :=
  { s with ct := { s.ct with a := slotUp c }, duet := { s.duet with state := .soloA, inA := true, serialA := c.serial },
           pc := { s.pc with sized := 16, live := 16, availNj := 10000000000 } }

/-- Contexts 0 and the provider with a partition each. -/
def tenant0 : Tenant := { enable := true, base := 0, size := 4, keyValid := true, persist := false, metered := true }
def withTenant (t : Tenant) (s : State) : State := { s with tn := { s.tn with ctx := s.tn.ctx.set 0 t } }
def one : State := withTenant tenant0 (solo cartA live)

/-- A drain toward slot A, in its first cycle. -/
def drainA : Drain := { cycle := 0, target := some .a, cause := 0, early := false, noTarget := false }
def draining : State := { one with pc := { one.pc with drain := some drainA, slots := [slot0] } }
where slot0 : HoldSlot :=
  { id := 0, ctx := 0, off := 0, media := 0, data := 7, mask := fullMask, tempo := .moderato, verified := false, poison := false,
    asn := 1, verAsn := 0, issued := false, left := [(.a, 0)], first := .a, reqs := [], chans := [], direct := false,
    stampAt := 0, stampRank := 0, stampMask := 0 }

/-- In REPLAY, before anything of it. -/
def boot0 : State := State.reset
def replay0 : State := inP .replay one

/-- A cartridge whose hold area has one entry. -/
def entry0 : HoldEntry :=
  { index := 0, boot := 1, ctx := 0, off := 3, media := 3, tempo := .moderato, mask := fullMask, data := 9, keyGen := 0,
    poison := false, asn := 1, damaged := false }
def cartH : Cart :=
  { cartA with hold := { header0 := some { boot := 1, total := 1, counts := [(0, 1)], commit := true }, entries := [entry0] } }

/-- In BOOT with one test running. -/
def testing (i : Fin 16) (s : State) : State :=
  { inP .boot s with bt := { s.bt with run := 0, running := [i], todo := [], scan := false } }
def booting0 : State := { one with ev := { one.ev with logOpen := true } }
/-- One line admitted as posted is dirty. -/
def dirty1 : State := { one with pc := { one.pc with slots := [draining.slot0] } }

/-- The header of a write of 64 bytes at BAR2. -/
def tlp0 : Tlp := { fn := .pf, bar := .bar2, off := 0, len := 64, write := true, poison := false, ro := false }

/-- A write request of one whole line of context 0. -/
def reqW : Req :=
  { id := 5, kind := .media, tlp := tlp0, fn := .pf, ctx := 0, write := true, off := 0, len := 64, base := 0,
    parts := [{ off := 0, data := 7, mask := fullMask }], poison := false, ro := false, fence := 0, cycle := 0, verified := false,
    unlimited := true, quota := 0xFFFFFFFF, stage := .share, tag := none, unverified := 0, sense := [] }
def ofReq (r : Req) (s : State) : State := { s with gl := { s.gl with ingress := [r], nextReq := 6 } }
/-- A cartridge with one stored line of context 0. -/
def line0 : StoredLine := { data := 0x1234, keyCtx := 0, keyGen := 0, tweak := 0, tempo := 2, fresh := false }
def cartL : Cart := { cartA with lines := [(0, line0)] }
def flush0 : Flush :=
  { id := 3, scope := .all, zero := some .pf, read := none, stage := .share, ctx := provider, tag := none, before := 0, cycle := 0, reqs := [],
    slots := [], asn := 0, waits := [], lost := none }
def flushing (f : Flush) (s : State) : State := { s with pc := { s.pc with flushes := [f] } }
/-- The state with VF 0 exposed. -/
def exposed (s : State) : State := { s with hl := { s.hl with vfEnable := true, numVfs := 1 } }
def cxl (s : State) : State := { s with hl := { s.hl with effCxl := true } }
def pfEntry (i : Fin 192) (v : Vec) (s : State) : State := { s with hl := { s.hl with pfVec := s.hl.pfVec.set i v } }

/-- A line-write on bank 0 of slot A. -/
def write0 : LineWrite :=
  { slot := .a, cline := 0, kind := .hold 0, tempo := .moderato, line := line0, used := 0, fired := false, held := false,
    poisonMerge := false, second := false, tag := none }
def writing (w : LineWrite) (s : State) : State := { s with md := { s.md with writes := [w] } }
def rewrite0 : Rewrite := { slot := .a, cline := 0, poison := false, ctx := 0 }
def withCart (c : Cart) (s : State) : State := { s with ct := { s.ct with a := slotUp c } }

/-- The state with a slot A of one's own making. -/
def slotA (t : CtSlot) (s : State) : State := { s with ct := { s.ct with a := t } }
def inSlot (st : SlotState) (t : CtSlot) : CtSlot := { t with state := st }
def upA : CtSlot := slotUp cartA
def bound0 : Cart := { cartA with header := true, tagEngine := engineId, tagGen := 0 }
/-- A supervisor request that waits for its answer. -/
def asked (opc : BitVec 7) (repeats : Nat) : SvOut := { opc := opc, payload := [], toggle := false, repeats := repeats, cycle := 0, extra := [], soft := false }
def answered (opc : BitVec 7) (c : Cart) : Cart :=
  { c with sv := { c.sv with done := some { toggle := false, opc := opc, payload := [], response := [cOK] } } }
def owing (opc : BitVec 7) (t : CtSlot) : CtSlot := { t with svDue := [opc] }
def at1s (s : State) : State := { s with now := sec }
def copying (s : State) : State :=
  { s with ct := { s.ct with b := slotUp { serial := 0x5678, big := false } }, duet := { s.duet with state := .migrateCopy },
           dm := { s.dm with ch := s.dm.ch.set 31 { copy := true, state := .fetch } } }

/-- A change of CS_WINDOW proposed by the host, open with its digest. -/
def entryWin : CsEntry := { addr := 0x4814, mask := 0x1FF, value := 60 }
def secrets (s : State) : State := { s with cs := { s.cs with hostSet := true, mgmtSet := true, kHost := 1, kMgmt := 2 } }
def opened0 (s : State) : State :=
  { secrets s with cs := { (secrets s).cs with state := .opened, mgmt := false, entries := [entryWin], count := 1, opened := true, chgNo := 1 } }
/-- The state at one second of the ledger, reconciled. -/
def ledger1 : State := { one with pc := { one.pc with reconciled := true }, lg := { one.lg with lgt := 32768 * 4294967296 } }
def minute1 : State := { ledger1 with lg := { ledger1.lg with lgt := 60 * 32768 * 4294967296 } }
def unit0 : LgUnit := { marker := false, minute := 0, whole := [5], left := [5], sum := {} }
/-- A mirror of two equal cartridges, with slot A write-inhibited. -/
def mirrorInh (s : State) : State :=
  { s with ct := { a := slotUp cartA, b := slotUp cartA }, duet := { s.duet with state := .mirror, inA := true, inB := true }
           md := { s.md with inhA := some 0 } }
/-- The cycle of a minute tick: the open minute closes. -/
def closing0 : Closing := { tick := 0, merge := false, label := 0, extra := 0, next := 1, flags := 0, trail := [], step := none }
def ticked : State := { live with lg := { live.lg with syncLo := 251, closing := some closing0 } }
/-- A frame on its way to the seal buffer. -/
def frozen0 : Frozen :=
  { minute := 0, flags := 0, epoch := 0, ctx := [0, provider], bank := Vector.replicate 129 {}, totals := { read := 3 }, trail := [] }
def queuedUnit (u : LgUnit) (s : State) : State := { s with lg := { s.lg with outq := [u] } }

/-- A G7 descriptor's 64 bytes (Table 7.3). -/
def descLine (ctrl : Word) (length src dst next : Nat) : Line :=
  BitVec.ofNat 512 (ctrl.toNat + length * 2 ^ 32 + src * 2 ^ 64 + dst * 2 ^ 128 + next * 2 ^ 192)
/-- 64 bytes from the host to context 0, the last of its chain. -/
def lineHM : Line := descLine 0x90170000 64 0x1000000 0 0
def descHM : Desc := descG7 (lineBytes lineHM)
/-- From the host to the host. -/
def descHH : Desc := descG7 (lineBytes (descLine 0x90070000 64 0x1000000 0x2000000 0))
def inCh (c : DmaCh) (s : State) : State := { s with dm := { s.dm with ch := s.dm.ch.set 0 c } }
def running0 (d : Desc) : DmaCh := { state := .active, desc := some d, burstOpen := true, head := 0x4000, cur := 0x4000, remain := 64 }
def beat0 : Beat :=
  { tag := none, src := 0x1000000, dst := 0x2000000, len := 64, data := some 5, poison := false, cell := none, bad := false, cycle := 0,
    fence := 0, line := 0, verified := false, quota := 0xFFFFFFFF, dropped := false, burstEnd := true }
def ksw (kind : KsKind) : PageWrite := { kind := kind, page := 0xD1, bytes := [(0, 1)], chg := 0, wipe := false }
def ksBusy (w : PageWrite) (s : State) : State := { s with ks := { s.ks with busy := some w, owner := .engine } }

/-- The host returns no credits of a kind, since cycle 0. -/
def starving (k : Credit) (s : State) : State := { s with hl := { s.hl with noCredit := s.hl.noCredit.set (creditNum k) (some (0, false)) } }
/-- 64 requests of a kind wait in staging, of a context without a share. -/
def stuck (write : Bool) : State :=
  { withTenant { tenant0 with shareEff := 0 } live with
    now := 10000
    gl := { live.gl with ingress := List.replicate 64 { reqW with write := write, stage := .staging }
                         holPosted := some (0, false), holNonPosted := some (0, false) } }
/-- A gap move of bank 0 is due on slot A's cartridge. -/
def gapDue (c : Cart) : State := { withCart c one with md := { one.md with gapCount := one.md.gapCount.set 0 256 } }

/-- An event, and a trace entry. -/
def ev0 : EvEntry :=
  { seq := 0, code := cRANGE, ctx := 0xFF, unit := uGL, bootq := false, flags := 0, cycle := 0, epoch := 0, minute := 0,
    d0 := 1, d1 := 2, d2 := 3, alert := false }
def tr0 : TrEntry := ⟨5, 1, 2, 3, 4⟩

/-! ### Terms that are no commands -/

theorem illFormed_hostRead_empty : (Instr.hostRead .pf .bar2 0 0 []).wellFormed = false := rfl
theorem illFormed_hostRead_crosses : (Instr.hostRead .pf .bar2 4095 2 []).wellFormed = false := rfl
theorem illFormed_hostWrite_empty : (Instr.hostWrite .pf .bar2 0 [] false false).wellFormed = false := rfl
theorem illFormed_hostWrite_crosses : (Instr.hostWrite .pf .bar2 4095 [1, 2] false false).wellFormed = false := rfl
theorem illFormed_link_speed : (Instr.hostLinkUp 6 8 false).wellFormed = false := rfl
theorem illFormed_link_width : (Instr.hostLinkUp 5 3 false).wellFormed = false := rfl
theorem illFormed_holdup : (Instr.holdup [470, 470] [80, 80, 80] 1200).wellFormed = false := rfl
theorem illFormed_temp : (Instr.temp (some .a) [30, 30]).wellFormed = false := rfl
theorem illFormed_sramBist : (Instr.sramBist [(5, 0)]).wellFormed = false := rfl
theorem illFormed_vf_vector : (Instr.msixMessage (.vf 3) 1).wellFormed = false := rfl
theorem illFormed_vf_stall : (Instr.hostServiceStall (.vf 3) 1).wellFormed = false := rfl
theorem illFormed_interval : (Instr.disciplineInterval 0).wellFormed = false := rfl
theorem illFormed_page_size : (Instr.configRequest .pf (.sysPage 5000)).wellFormed = false := by decide +kernel
theorem illFormed_payload : (Instr.configRequest .pf (.device 100 512 true 0)).wellFormed = false := by decide +kernel
theorem illFormed_vf_decoder : (Instr.configRequest (.vf 0) (.hdm 0 none)).wellFormed = false := rfl
theorem illFormed_offset : (Instr.registerWrite .bar0 0x0002 0xF 0).wellFormed = false := by decide +kernel
theorem illFormed_enables : (Instr.registerWrite .bar0 0x0004 0x5 0).wellFormed = false := by decide +kernel
theorem illFormed_read_offset : (Instr.readClear .bar0 0x0003 0xF).wellFormed = false := by decide +kernel
theorem illFormed_stage : (Instr.csStage .bar0 0x4815 0xF 0).wellFormed = false := by decide +kernel
theorem illFormed_keep_enables : (Instr.ksWdata .bar0 0x9 0).wellFormed = false := by decide +kernel
theorem illFormed_fifo_enables : (Instr.spDataAccess .bar0 .p0 true 0x0 0).wellFormed = false := by decide +kernel
theorem illFormed_master_bits : (Instr.masterTransactionEnd .p0 (List.replicate 32769 true)).wellFormed = false := by decide +kernel
theorem wellFormed_write : (Instr.registerWrite .bar0 0x0054 0xF 8).wellFormed = true := by decide +kernel

/-! ### The manual's own examples -/

/-- The command completes, and what it leaves has the property. -/
def after (c : Instr) (s : State) (p : State → Bool) : Bool :=
  match exec c s with
  | .next t => p t
  | _ => false

/-- Chapter 09's worked example: CRC-8 over 06 9E 41 07 C2 5A 38 D1 6B is DC. -/
theorem test_frame_crc : crc8 [0x06, 0x9E, 0x41, 0x07, 0xC2, 0x5A, 0x38, 0xD1, 0x6B] = 0xDC := by decide +kernel

/-- Chapter 01's sizing: 470 uF and 80 mOhm at 12.00 V pay for 16 steps. -/
theorem test_sizing : stepsOf (energyNj 470 80 1200) = 16 := by decide +kernel

/-- Table 8.13: HL_APERTURE is 0x0000_2323 at reset. -/
theorem test_aperture_reset : regValue .bar0 { off := 0x3008 } State.reset = 0x2323 := by decide +kernel

/-- Table 9.11: SP0_CFG and SP1_CFG are 0x0000_0000 and 0x0000_0301 at reset. -/
theorem test_sp_cfg_reset : regValue .bar0 { off := 0x3404 } State.reset = 0 ∧ regValue .bar0 { off := 0x3504 } State.reset = 0x301 := by
  decide +kernel

/-- Table 0.7: GL_STEPPING. -/
theorem test_stepping : regValue .bar0 { off := 0x0004 } State.reset = 0x4200 := by decide +kernel

/-- The check value of CRC-32 (ISO-HDLC) over the digits 1 to 9. -/
theorem test_crc32 : crc32 [0x31, 0x32, 0x33, 0x34, 0x35, 0x36, 0x37, 0x38, 0x39] = 0xCBF43926 := by decide +kernel

/-- FIPS 180-4: SHA-256 of "abc" begins BA 78 16 BF. -/
theorem test_sha256 : (sha256 [0x61, 0x62, 0x63]).take 4 = [0xBA, 0x78, 0x16, 0xBF] := by decide +kernel

/-! ### One step each -/

theorem test_idle_cycle : (match step live with | .next t => t.now | _ => 0) = 1 := by decide +kernel

/-- R25, R85: the line is dirty, its number is 1, and a moderato write costs its price. -/
theorem test_admission : after (.lineAdmission 5) (ofReq reqW one) (fun t => decide (t.pc.slots.length = 1 ∧ t.pc.asn = 1 ∧
    (t.tenant 0).used = Tempo.moderato.price ∧ t.gl.ingress = [])) = true := by decide +kernel

/-- R141: a token short, the line waits. -/
theorem test_admission_waits : after (.lineAdmission 5) (ofReq { reqW with unlimited := false } (withTenant { tenant0 with unlimited := false } one))
    (fun t => decide (t.pc.slots = [] ∧ t.gl.ingress.length = 1)) = true := by decide +kernel

/-- R234: a write to a write-locked context is PERMISSION. -/
theorem test_locked_write : after (.hostWrite .pf .bar2 0 [1] false false) (withTenant { tenant0 with lock := .writeLock } one)
    (fun t => decide (t.hl.refCode = cPERMISSION ∧ t.gl.ingress = [])) = true := by decide +kernel

/-- R109: the eighth try fails and the line goes to a spare, which passes. -/
theorem test_relocation : after (.trySenseResult .a 0 1 (some 0) []) (writing { write0 with used := 8, fired := true } dirty1)
    (fun t => decide ((t.slot .a).cart.elim 0 (fun c => c.relocs.length) = 1 ∧ t.pc.slots = [])) = true := by decide +kernel

/-- R17: after a proven drain the cartridge holds the whole line, and the engine is in HIBERNATE. -/
theorem test_drain : after (.drainEnd [] []) draining (fun t => decide (t.pw.state = .hibernate ∧
    (t.slot .a).cart.elim [] (fun c => c.hold.entries.map fun e => e.data) = [7])) = true := by decide +kernel

/-- R154: at the window's last cycle the change is still open, one cycle later it has lapsed. -/
theorem test_window : after .windowLapse { opened0 live with now := 29999999999 } (fun t => decide (t.cs.state = .opened)) = true ∧
    after .windowLapse { opened0 live with now := 30000000000 } (fun t => decide (t.cs.state = .idle ∧ t.cs.lastResult = cTIMEOUT)) = true := by
  decide +kernel

/-- R70: the fifth flit error retrains. -/
theorem test_flit : after (.flitLcrcError .a) (slotA { upA with flitFails := 4 } live) (fun t => decide ((t.slot .a).link = .retrain)) = true := by
  decide +kernel

/-- R257: the repeat is answered and not executed. -/
theorem test_repeat : after (.spWriteFrame .p0 (frameBits false true 7 (List.replicate 8 true)) false false)
    { live with sp0 := { live.sp0 with copy := some ⟨true, frameBits false true 7 (List.replicate 8 true), []⟩ } }
    (fun t => decide (t.sp0.status = 4 ∧ t.ev.mod = live.ev.mod)) = true := by decide +kernel

/-- R346: the TENANT bit of PWF stays set. -/
theorem test_route : after (.evRouteWrite .bar0 0) { live with ev := { live.ev with routeIdx := cPWF } }
    (fun t => decide (routeOf t cPWF = 0x40)) = true := by decide +kernel

/-- R277: the binding tag, the counters and the memory of the keep store are as the factory left them. -/
theorem test_factory_memory : memRead factoryImage 0xD000 State.reset.ks.mem = 0 := by decide +kernel

/-- R195: a doorbell saturates the count. -/
theorem test_doorbell : after (.doorbell .bar0 0 0xFFFF) (inCh { paced := true, pending := 1 } live)
    (fun t => decide (t.dm.ch[0].pending = 65535)) = true := by decide +kernel

/-- R261: LEN 0 is RANGE and starts nothing. -/
theorem test_mcmd_range : after (.masterTransaction .bar0 .p1 0) live (fun t => decide (t.sp1.txn = none ∧
    t.ev.intake.map (fun e => e.code) = [cRANGE])) = true := by decide +kernel

/-- R172: a TIME_SYNC of minute 2^32 is refused. -/
theorem test_sync_range : after (.timeSync .bar0 60000) live (fun t => decide (t.lg.action = 3)) = true := by decide +kernel

/-- R377: a write to a reserved offset is ignored. -/
theorem test_reserved : after (.registerWrite .bar0 0x0F00 0xF 7) live (fun t => decide (t = live)) = true := by decide +kernel

/-- R317: QUIET_EN. -/
theorem test_quiet : after (.quietEn .bar0 1) live (fun t => decide (t.pw.state = .quiet)) = true := by decide +kernel

/-! ### Tags: the right one and a wrong one -/

theorem expectedTag_length (s : State) (t : CtSlot) : (expectedTag s t).length = 16 := by simp [expectedTag]

/-- The tag that spells the expected bytes. -/
theorem tag_spelled (s : State) (t : CtSlot) : leBytes 16 (BitVec.ofNat 128 (ofLe (expectedTag s t))).toNat = expectedTag s t := by
  have h := leBytes_ofNat (expectedTag s t) 128 (by rw [expectedTag_length]; decide)
  rwa [expectedTag_length] at h

/-- Some tag is wrong. -/
theorem wrong_tag (s : State) (t : CtSlot) : ∃ tag : BitVec 128, leBytes 16 tag.toNat ≠ expectedTag s t := by
  by_cases h : leBytes 16 (0 : BitVec 128).toNat = expectedTag s t
  · exact ⟨1, fun h' => absurd (h.trans h'.symm) (by decide)⟩
  · exact ⟨0, h⟩

theorem wrong_auth : ∃ (s : State) (x : Slot) (c : Cart) (tag : BitVec 128), CanAsk s x c ∧ authTurn s x = true ∧
    (s.slot x).identified = true ∧ leBytes 16 tag.toNat ≠ expectedTag s (s.slot x) := by
  obtain ⟨tag, h⟩ := wrong_tag (slotA (inSlot .auth upA) live) (inSlot .auth upA)
  exact ⟨slotA (inSlot .auth upA) live, .a, cartA, tag, by decide +kernel, by decide +kernel, by decide +kernel, h⟩

theorem changeTag_length (s : State) (k : BitVec 256) : (changeTag s k).length = 8 := by simp [changeTag]

theorem changeTag_tagLo (s : State) (w : Word) (k : BitVec 256) :
    changeTag { s with cs := { s.cs with tagLo := w } } k = changeTag s k := by unfold changeTag changeRecord; rfl

/-- An open change whose tag's low word the countersigner has written. -/
def signed0 : State := { opened0 live with cs := { (opened0 live).cs with tagLo := wordOf (changeTag (opened0 live) 2) } }

theorem halves (l : List Byte) (h : l.length = 8) : wordBytes (wordOf l) ++ wordBytes (wordOf (l.drop 4)) = l := by
  rw [wordBytes_wordOf _ (by omega), wordBytes_wordOf _ (by rw [List.length_drop, h]),
    List.take_of_length_le (l := l.drop 4) (by rw [List.length_drop, h]), List.take_append_drop]

theorem tag_halves : wordBytes signed0.cs.tagLo ++ wordBytes (wordOf ((changeTag (opened0 live) 2).drop 4)) =
    changeTag signed0 (counterSecret signed0) :=
  (halves _ (changeTag_length _ _)).trans (changeTag_tagLo (opened0 live) _ 2).symm

theorem bad_tag : ∃ (s : State) (ch : Chan) (v : Word), MayWrite ch 0x481C s ∧ s.cs.state = .opened ∧ s.now < windowEnd s ∧
    s.cs.mgmt ≠ ch.mgmt ∧ s.cs.busyTill = none ∧ wordBytes s.cs.tagLo ++ wordBytes v ≠ changeTag s (counterSecret s) ∧
    s.ev.logOpen = true := by
  by_cases h : wordBytes (opened0 live).cs.tagLo ++ wordBytes 0 = changeTag (opened0 live) (counterSecret (opened0 live))
  · refine ⟨opened0 live, .sp0, 1, by decide +kernel, rfl, by decide +kernel, by decide, rfl, fun h' => ?_, rfl⟩
    exact absurd (List.append_cancel_left (h.trans h'.symm)) (by decide)
  · exact ⟨opened0 live, .sp0, 0, by decide +kernel, rfl, by decide +kernel, by decide, rfl, h, rfl⟩

/-! ### States that meet the hypotheses -/

theorem link_open {s : State} (h : hasCredit s .posted = true ∧ hasCredit s .nonPosted = true ∧ hasCredit s .completion = true ∧
    s.egress = [] ∧ MinuteOpen s) : LinkOpen s :=
  ⟨fun k => by cases k <;> simp [h], h.2.2.2⟩

theorem still {s : State} (h : MinuteOpen s ∧ (∀ r ∈ s.gl.relTags, r.1 < s.now) ∧ (∀ n ∈ inhibitedAt s .a, n ≤ s.now) ∧
    ∀ n ∈ inhibitedAt s .b, n ≤ s.now) : Still s :=
  ⟨h.1, h.2.1, fun x => by cases x; exacts [h.2.2.1, h.2.2.2]⟩

theorem settled {s : State} (h : (MinuteOpen s ∧ (∀ r ∈ s.gl.relTags, r.1 < s.now) ∧ (∀ n ∈ inhibitedAt s .a, n ≤ s.now) ∧
    ∀ n ∈ inhibitedAt s .b, n ≤ s.now) ∧ (∀ n : Fin 32, s.dm.ch[n].relBeats.cycle < s.now) ∧ ∀ c : Ctx,
      (s.tenant c).fresh.cycle < s.now ∧ (s.tenant c).cut.cycle < s.now ∧ ∀ w ∈ (s.tenant c).was, w.1 < s.now) : Settled s :=
  ⟨still h.1, h.2.1, fun c => ⟨(h.2.2 c).1, (h.2.2 c).2.1, fun n w hw => (h.2.2 c).2.2 (n, w) hw⟩⟩

/-- No context's quota or mode was another in this very cycle. -/
theorem never_was {s : State} (h : ∀ c : Ctx, ∀ w ∈ (s.tenant c).was, w.1 ≠ s.now) (c : Ctx) (n : Nat) (w : Terms) :
    (s.tenant c).was = some (n, w) → n ≠ s.now := fun hw => h c (n, w) hw

/-- The line that a gap move copies, if there is one, reads good at the first sense. -/
theorem gap_reads {c : Cart} {b : Nat} {e : Sense}
    (h : ∀ cl ∈ logicalLine c b (nextLevel c b).2.1, readLineCells (lineAt c cl) e = .good 0 0) (cl : Nat)
    (hcl : logicalLine c b (nextLevel c b).2.1 = some cl) : ∃ n, readLineCells (lineAt c cl) e = .good n 0 := ⟨0, h cl hcl⟩

/-- A queue with a command in front. -/
theorem witness_StepRunsFrontCommand : ∃ (c : Instr) (rest : List Instr) (s : State), s.pending = c :: rest :=
  ⟨.vendorDefinedMessage, [], { live with pending := [.vendorDefinedMessage] }, rfl⟩

/-- A command that completes. -/
theorem witness_CommandsLeaveTheQueue : ∃ (c : Instr) (s t : State), exec c s = .next t := ⟨.vendorDefinedMessage, live, _, rfl⟩

/-- A command of each kind completes. -/
theorem witness_CommandsLeaveOtherUnitsAlone :
    (∃ t, exec (.svalert .a) live = .next t ∧ slotWork (.svalert .a) = true ∧ keepWork (.svalert .a) = false ∧
      secretWork (.svalert .a) = false ∧ startWork (.svalert .a) = false ∧ handWork (.svalert .a) = false) ∧
    (∃ t, exec .fieldRepeat live = .next t ∧ mediaWork .fieldRepeat = true) ∧
    (∃ t, exec .metronomeTick live = .next t ∧ ledgerWork .metronomeTick = true) ∧
    (∃ t, exec (.pauseReached 0) live = .next t ∧ channelWork (.pauseReached 0) = true) ∧
    (∃ t, exec .gpfPhase1 live = .next t ∧ linkWork .gpfPhase1 = true) ∧
    ∃ t, exec (.spModeChange .p0) live = .next t ∧ portWork (.spModeChange .p0) = true :=
  ⟨⟨_, rfl, rfl, rfl, rfl, rfl, rfl⟩, ⟨_, rfl, rfl⟩, ⟨_, rfl, rfl⟩, ⟨_, rfl, rfl⟩, ⟨_, rfl, rfl⟩, ⟨_, rfl, rfl⟩⟩

/-- A state with both memories in form, and its step. -/
theorem witness_StepKeepsMemoryForm : ∃ (s t : State), MemoriesOk s ∧ step s = .next t := ⟨live, _, by decide +kernel, rfl⟩

/-- A state with balanced books, a tag in use and tokens in the buckets, and its step. -/
theorem witness_StepKeepsTheBooks :
    (∃ (s t : State), BooksBalance s ∧ step s = .next t) ∧ ∃ s : State, BooksBalance s ∧ s.gl.tags ≠ [] ∧ (s.tenant 0).tokens = 5 :=
  ⟨⟨live, _, by decide +kernel, rfl⟩,
   ⟨modTenant 0 (fun t => { t with refilled := 9, tokens := 5, spent := 4 }) { live with gl := { live.gl with tags := [⟨0, .hrd, false, 0⟩] } },
    by decide +kernel⟩⟩

/-- States and operands that meet the hypotheses of each clause. -/
theorem witness_EmptyQueueLetsACyclePass :
    (∃ (s : State), s.pending = [] ∧ s.pw.state.clocked = false) ∧
    (∃ (s : State), s.pending = [] ∧ s.pw.state.clocked = true ∧ MinuteOpen s ∧ s.lg.sealEnd = none ∧ s.gl.ingress = []) ∧
    (∃ (s : State) (k : Closing), s.pending = [] ∧ s.pw.state.clocked = true ∧ s.lg.closing = some k ∧ s.gl.ingress = []) ∧
    (∃ (s : State) (k : Closing), s.pending = [] ∧ s.pw.state.clocked = true ∧ s.lg.closing = some k ∧ s.gl.ingress = []) :=
  ⟨⟨inP .hibernate live, by decide +kernel⟩,
    ⟨live, by decide +kernel⟩,
    ⟨ticked, closing0, by decide +kernel⟩,
    ⟨{ live with lg := { live.lg with closing := some { closing0 with merge := true } } }, { closing0 with merge := true }, by decide +kernel⟩⟩

/-- States and operands that meet the hypotheses of each clause. -/
theorem witness_DrainsBegin :
    (∃ (s : State), Running s) ∧
    (∃ (s : State), Running s) ∧
    (∃ (s : State), Running s) ∧
    (∃ (s : State), Running s) ∧
    (∃ (s : State) (tj : BitVec 8), Running s ∧ 125 ≤ tj.toNat ∧ tj.toNat < 128) ∧
    (∃ (s : State) (tj : BitVec 8), Running s ∧ 125 ≤ tj.toNat ∧ tj.toNat < 128) ∧
    (∃ (s : State), s.pw.state = .hibernate ∧ s.pw.vbat = true) ∧
    (∃ (s : State), s.pw.state = .hibernate) ∧
    (∃ (s : State), s.pw.state = .hibernate) ∧
    (∃ (s : State), s.pw.state = .test ∧ s.bt.scan = true ∧ s.pw.mainPower = true ∧ s.gl.refOk = true) :=
  ⟨⟨one, by decide +kernel⟩,
    ⟨one, by decide +kernel⟩,
    ⟨one, by decide +kernel⟩,
    ⟨one, by decide +kernel⟩,
    ⟨one, 125, by decide +kernel⟩,
    ⟨one, 127, by decide +kernel⟩,
    ⟨inP .hibernate live, by decide +kernel⟩,
    ⟨inP .hibernate live, by decide +kernel⟩,
    ⟨inP .hibernate live, by decide +kernel⟩,
    ⟨{ inP .test live with bt := { live.bt with scan := true } }, by decide +kernel⟩⟩

/-- States and operands that meet the hypotheses of each clause. -/
theorem witness_DrainEndsInHeaderEntriesAndCommit :
    (∃ (s : State) (d : Drain) (x : Slot) (c : Cart), s.pc.drain = some d ∧ d.target = some x ∧ d.early = false ∧ d.noTarget = false ∧ d.cause ≠ 5 ∧ s.md.writes = [] ∧ (s.slot x).cart = some c) ∧
    (∃ (s : State) (d : Drain) (x : Slot) (c : Cart), s.pc.drain = some d ∧ d.target = some x ∧ d.early = false ∧ d.noTarget = false ∧ s.md.writes = [] ∧ (s.slot x).cart = some c) ∧
    (∃ (s : State) (d : Drain) (x : Slot) (c : Cart), s.pc.drain = some d ∧ d.target = some x ∧ d.noTarget = false ∧ s.md.writes = [] ∧ (s.slot x).cart = some c) :=
  ⟨⟨draining, drainA, .a, cartA, by decide +kernel⟩,
    ⟨draining, drainA, .a, cartA, by decide +kernel⟩,
    ⟨draining, drainA, .a, cartA, by decide +kernel⟩⟩

/-- States and operands that meet the hypotheses of each clause. -/
theorem witness_PerstReleaseStartsBoot :
    (∃ (s : State), (s.pw.state = .off ∨ s.pw.state = .hibernate) ∧ s.pw.mainPower = true ∧ s.gl.refOk = true) ∧
    (∃ (s : State), (s.pw.state = .off ∨ s.pw.state = .hibernate) ∧ s.pw.mainPower = true ∧ s.gl.refOk = true) ∧
    (∃ (s : State), s.pw.state ≠ .off ∧ s.pw.state ≠ .hibernate) ∧
    (∃ (s : State), s.pw.state = .hibernate ∧ s.gl.lock = false ∧ s.pw.mainPower = true ∧ s.pw.perstLow = false) ∧
    (∃ (s : State), s.pw.state.clocked = true) :=
  ⟨⟨inP .off (solo cartA live), by decide +kernel⟩,
    ⟨inP .hibernate (solo cartA live), by decide +kernel⟩,
    ⟨live, by decide +kernel⟩,
    ⟨{ inP .hibernate one with gl := { one.gl with lock := false } }, by decide +kernel⟩,
    ⟨live, by decide +kernel⟩⟩

/-- States and operands that meet the hypotheses of each clause. -/
theorem witness_IslandWakesAndSupplies :
    (∃ (s : State), s.pw.state = .hibernate ∧ s.pw.coreOn = false) ∧
    (∃ (s : State) (src : BitVec 9) (c : Nat), s.pw.state = .hibernate ∧ s.pw.coreOn = false ∧ s.pw.mainPower = true ∧ lowestCode (src &&& wakeEnabled s s.pw.islandEn s.pw.islandAfter) = some c ∧ c ≠ 2) ∧
    (∃ (s : State) (e : Nat × Power), s.pw.state = .hibernate ∧ s.pw.coreOn = false ∧ s.pw.mainPower = true ∧ s.pw.tripWake = false ∧ bit s.pw.islandEn 1 = true ∧ s.pw.islandAfter ≠ 0 ∧ s.pw.lpEnter = some e ∧ s.pw.islandAfter.toNat * 32768 ≤ (s.lg.lgt - e.1) / tick1) ∧
    (∃ (s : State), s.pw.state = .off) ∧
    (∃ (s : State), s.pw.state = .hibernate ∧ s.pw.mainPower = false) ∧
    (∃ (s : State) (v : BitVec 16), v.toNat < 240 ∧ s.pw.vbatLow = false ∧ s.pw.state.clocked = true) ∧
    (∃ (v : BitVec 16), 240 ≤ v.toNat) :=
  ⟨⟨{ inP .hibernate one with pw := { (inP .hibernate one).pw with coreOn := false, mainPower := false } }, by decide +kernel⟩,
    ⟨{ inP .hibernate one with pw := { (inP .hibernate one).pw with coreOn := false, islandEn := 1 } }, 0x008, 3, by decide +kernel⟩,
    ⟨{ inP .hibernate one with pw := { (inP .hibernate one).pw with coreOn := false, islandEn := 2, islandAfter := 1, lpEnter := some (0, .hibernate) }, lg := { one.lg with lgt := 32768 * tick1 } }, (0, .hibernate), by decide +kernel⟩,
    ⟨inP .off live, by decide +kernel⟩,
    ⟨{ inP .hibernate live with pw := { (inP .hibernate live).pw with mainPower := false } }, by decide +kernel⟩,
    ⟨live, 239, by decide +kernel⟩,
    ⟨240, by decide +kernel⟩⟩

/-- States and operands that meet the hypotheses of each clause. -/
theorem witness_BootScanReplayAndService :
    (∃ (s : State), s.pw.state = .boot ∧ s.ks.scanned = false) ∧
    (∃ (s : State), s.pw.state = .boot ∧ s.ks.scanned = true ∧ s.bt.sramDone = true ∧ s.pc.drain = none ∧ s.ks.late = [] ∧ slotSettled s .a = true ∧ slotSettled s .b = true) ∧
    (∃ (s : State), s.pw.state = .replay ∧ s.pc.drain = none ∧ areaAbsent s = false ∧ eraseWaits s = false ∧ s.ks.late = [] ∧ s.pc.reconciled = true ∧ replayDone s = true ∧ startWritesOver s = true ∧ testsOver s = true ∧ s.bt.causes = []) ∧
    (∃ (s : State), (s.pw.state = .boot ∧ (s.ks.scanned = false ∨ s.bt.sramDone = false ∨ slotSettled s .a = false ∨ slotSettled s .b = false))) :=
  ⟨⟨State.reset, by decide +kernel⟩,
    ⟨{ State.reset with ks := { State.reset.ks with scanned := true }, bt := { State.reset.bt with sramDone := true } }, by decide +kernel⟩,
    ⟨{ replay0 with pc := { replay0.pc with reconciled := true }, bt := { replay0.bt with todo := [] } }, by decide +kernel⟩,
    ⟨State.reset, by decide +kernel⟩⟩

/-- States and operands that meet the hypotheses of each clause. -/
theorem witness_ReplayWritesHomeOrRests :
    (∃ (s : State) (c : Cart) (p : Nat) (e : HoldEntry), s.pw.state = .replay ∧ s.pc.drain = none ∧ Still s ∧ s.duet.state = .soloA ∧ areaSlot s = some .a ∧ replayReady s [(.a, e.media)] = true ∧ tagFree s .wbk e.ctx = true ∧ s.md.injArmed = false ∧ (s.slot .a).cart = some c ∧ nextEntry c.hold s.pc.replayIdx = some (p, e) ∧ e.mask = fullMask) ∧
    (∃ (s : State), s.pw.state = .replay ∧ s.pc.drain = none ∧ replayDone s = true ∧ s.pc.reconciled = false ∧ areaAbsent s = false) ∧
    (∃ (s : State), s.pw.state = .replay ∧ s.pc.drain = none ∧ 750 * ms ≤ s.now) ∧
    (∃ (s : State), s.now < 750 * ms) ∧
    (∃ (s : State) (x : Slot) (n : Nat), s.pw.state = .replay ∧ s.pc.drain = none ∧ areaSlot s = some x ∧ inhibitedAt s x = some n ∧ n + 500 * ms ≤ s.now) :=
  ⟨⟨withCart cartH (at1s replay0), cartH, 0, entry0, by decide +kernel, by decide +kernel, still (by decide +kernel), by decide +kernel, by decide +kernel, by decide +kernel, by decide +kernel, by decide +kernel, by decide +kernel, by decide +kernel, by decide +kernel⟩,
    ⟨replay0, by decide +kernel⟩,
    ⟨{ replay0 with now := 750 * ms }, by decide +kernel⟩,
    ⟨{ replay0 with now := 750 * ms - 1 }, by decide +kernel⟩,
    ⟨{ replay0 with now := 500 * ms, md := { replay0.md with inhA := some 0 } }, .a, 0, by decide +kernel⟩⟩

/-- States and operands that meet the hypotheses of each clause. -/
theorem witness_QuietAndStandby :
    (∃ (ch : Chan) (s : State) (v : BitVec 32), MayWrite ch 0x4004 s ∧ usual s = true ∧ bit v 1 = false ∧ bit v 2 = false ∧ bit v 3 = false) ∧
    (∃ (ch : Chan) (s : State) (v : BitVec 32), MayWrite ch 0x4004 s ∧ usual s = true ∧ bit v 1 = false ∧ bit v 2 = false ∧ bit v 3 = false) ∧
    (∃ (ch : Chan) (s : State) (v : Word), MayWrite ch 0x4004 s ∧ usual s = true ∧ lowPowerOk s = true ∧ v = putB s.pw.quietEn 0) ∧
    (∃ (ch : Chan) (s : State) (v : Word) (n : Nat), MayWrite ch 0x4004 s ∧ usual s = true ∧ s.pw.armed = some n ∧ v = putB s.pw.quietEn 0) ∧
    (∃ (s : State) (n : Nat), s.pw.armed = some n ∧ n + sec ≤ s.now) ∧
    (∃ (s : State) (n : Nat), s.pw.armed = some n ∧ usual s = true ∧ lowPowerOk s = true ∧ s.sp0.inFrame = false ∧ s.pc.drain = none) ∧
    (∃ (s : State), s.pw.state = .standby) ∧
    (∃ (s : State) (e : Nat × Power), s.pw.state = .standby ∧ bit s.pw.wakeEn 1 = true ∧ s.pw.wakeAfter ≠ 0 ∧ s.pw.lpEnter = some e ∧ s.pw.wakeAfter.toNat * 32768 ≤ (s.lg.lgt - e.1) / tick1) :=
  ⟨⟨.bar0, live, 0x1, by decide +kernel⟩,
    ⟨.sp0, inP .quiet live, 0x0, by decide +kernel⟩,
    ⟨.bar0, live, 0, by decide +kernel⟩,
    ⟨.bar0, { live with pw := { live.pw with armed := some 0 } }, 0, 0, by decide +kernel⟩,
    ⟨{ live with now := sec, pw := { live.pw with armed := some 0 } }, 0, by decide +kernel⟩,
    ⟨{ live with pw := { live.pw with armed := some 0 } }, 0, by decide +kernel⟩,
    ⟨inP .standby live, by decide +kernel⟩,
    ⟨{ inP .standby live with pw := { (inP .standby live).pw with wakeEn := 2, wakeAfter := 1, lpEnter := some (0, .standby) }, lg := { live.lg with lgt := 32768 * tick1 } }, (0, .standby), by decide +kernel⟩⟩

/-- States and operands that meet the hypotheses of each clause. -/
theorem witness_HibernateEntryDrains :
    (∃ (ch : Chan) (s : State), MayWrite ch 0x4004 s ∧ hibernateState s = true ∧ lowPowerOk s = true) ∧
    (∃ (ch : Chan) (s : State) (off : Nat), Running s ∧ afterReplay s = true ∧ s.pw.entering = true ∧ ((ch = .bar0 ∨ (ch = .sp0 ∧ s.sp0.master = false))) ∧ (off = 0x4008 ∨ off = 0x0438)) ∧
    (∃ (ch : Chan) (s : State) (off : Nat), Running s ∧ afterReplay s = true ∧ s.pw.entering = true ∧ ((ch = .bar0 ∨ (ch = .sp0 ∧ s.sp0.master = false))) ∧ (off = 0x4008 ∨ off = 0x0438)) :=
  ⟨⟨.bar0, live, by decide +kernel⟩,
    ⟨.bar0, { live with pw := { live.pw with entering := true } }, 0x4008, by decide +kernel⟩,
    ⟨.sp0, { live with pw := { live.pw with entering := true } }, 0x0438, by decide +kernel⟩⟩

/-- States and operands that meet the hypotheses of each clause. -/
theorem witness_TestsPassByTheirCriteria :
    (∃ (s : State) (n : Nat), InBoot 1 s ∧ 7808594 ≤ n ∧ n ≤ 7816406) ∧
    (∃ (s : State) (n : Nat), InBoot 1 s ∧ 7808594 ≤ n ∧ n ≤ 7816406) ∧
    (∃ (s : State) (r : Nat) (f : Nat), InBoot 3 s ∧ 5445 ≤ r ∧ r ≤ 5555 ∧ 5445 ≤ f ∧ f ≤ 5555) ∧
    (∃ (s : State) (a : Int) (b : Int), InBoot 4 s ∧ s.bt.fail = 0 ∧ (a - b).natAbs ≤ 3) ∧
    (∃ (s : State), InBoot 5 s) ∧
    (∃ (s : State) (x : Slot) (e : Nat), InBoot (testBit 6 x) s ∧ 200 ≤ e) ∧
    (∃ (s : State) (x : Slot) (o : Nat) (r : Nat), InBoot (testBit 7 x) s ∧ o ≤ 15 ∧ 80 ≤ r) ∧
    (∃ (s : State) (x : Slot) (v : Nat), InBoot (testBit 8 x) s ∧ v ≤ 50) ∧
    (∃ (s : State) (x : Slot) (o : Nat) (lo : Nat) (hi : Nat), InBoot (testBit 9 x) s ∧ o < 50 ∧ 360 ≤ lo ∧ hi ≤ 440) :=
  ⟨⟨testing 1 one, 7808594, by decide +kernel⟩,
    ⟨testing 1 one, 7816406, by decide +kernel⟩,
    ⟨testing 3 one, 5445, 5555, by decide +kernel⟩,
    ⟨testing 4 one, 30, 27, by decide +kernel⟩,
    ⟨testing 5 one, by decide +kernel⟩,
    ⟨testing 11 one, .b, 200, by decide +kernel⟩,
    ⟨testing 7 one, .a, 15, 80, by decide +kernel⟩,
    ⟨testing 8 one, .a, 50, by decide +kernel⟩,
    ⟨testing 9 one, .a, 49, 360, 440, by decide +kernel⟩⟩

/-- States and operands that meet the hypotheses of each clause. -/
theorem witness_TestFailuresHaveTheirOutcome :
    (∃ (s : State) (n : Nat), InBoot 1 s ∧ (n < 7808594 ∨ 7816406 < n)) ∧
    (∃ (s : State) (n : Nat), InBoot 1 s ∧ (n < 7808594 ∨ 7816406 < n)) ∧
    (∃ (s : State) (r : Nat), InBoot 3 s ∧ 5555 < r) ∧
    (∃ (s : State), s.pw.state = .boot ∧ s.bt.run = 0 ∧ s.bt.running = [5] ∧ 150 * ms ≤ s.now) :=
  ⟨⟨testing 1 one, 7808593, by decide +kernel⟩,
    ⟨testing 1 one, 7816407, by decide +kernel⟩,
    ⟨testing 3 one, 5556, by decide +kernel⟩,
    ⟨{ testing 5 one with now := 150 * ms }, by decide +kernel⟩⟩

/-- States and operands that meet the hypotheses of each clause. -/
theorem witness_RunsOfTheDriver :
    (∃ (ch : Chan) (s : State), MayWrite ch 0x3C04 s ∧ usual s = true ∧ maskBad s.bt.mask = false ∧ noPosted s = false ∧ s.bt.stay = false) ∧
    (∃ (s : State), s.bt.run = 1 ∧ usual s = true ∧ s.pc.drain = none ∧ noPosted s = true ∧ s.bt.mask = 0x2) ∧
    (∃ (s : State) (i : Fin 16), nextTest s = some i ∧ testFits s i = true ∧ Running s) ∧
    (∃ (ch : Chan) (s : State), MayWrite ch 0x3C04 s ∧ s.pw.state = .test ∧ s.bt.run = 2 ∧ s.bt.stay = true ∧ s.bt.running ≠ [] ∧ (∀ i ∈ s.bt.todo, i ∉ s.bt.running)) ∧
    (∃ (ch : Chan) (s : State), MayWrite ch 0x3C04 s ∧ s.pw.state = .test ∧ s.bt.run = 3 ∧ s.bt.causes = [] ∧ s.pc.replayPending = false) :=
  ⟨⟨.bar0, dirty1, by decide +kernel⟩,
    ⟨{ live with bt := { live.bt with run := 1, mask := 2 } }, by decide +kernel⟩,
    ⟨{ inP .test one with bt := { one.bt with run := 2, todo := [1] } }, 1, by decide +kernel⟩,
    ⟨.bar0, { inP .test one with bt := { one.bt with run := 2, stay := true, todo := [3], running := [1] } }, by decide +kernel⟩,
    ⟨.bar0, { inP .test one with bt := { one.bt with run := 3 } }, by decide +kernel⟩⟩

/-- States and operands that meet the hypotheses of each clause. -/
theorem witness_SramBistAndArray :
    (∃ (s : State), InBoot 0 s ∧ s.ks.scanned = true) ∧
    (∃ (s : State) (x : Slot) (c : Cart), testBit 10 x ∈ s.bt.running ∧ inhibited s x = false ∧ (s.slot x).cart = some c ∧ s.bt.arrayA < 127 ∧ s.bt.arrayB < 127) :=
  ⟨⟨{ testing 0 one with ks := { one.ks with scanned := true } }, by decide +kernel⟩,
    ⟨{ testing 10 one with pw := { one.pw with state := .test } }, .a, cartA, by decide +kernel⟩⟩

/-- States and operands that meet the hypotheses of each clause. -/
theorem witness_HostReadsReturnTheLine :
    (∃ (s : State) (fn : Fn) (bar : Bar) (c : Ctx) (o : Nat) (off : Nat) (len : Nat) (h : HoldSlot), reaches s .bar0 = true ∧ s.hl.effCxl = false ∧ targetOf s fn bar off = .media c o ∧ 0 < len ∧ o % 64 + len ≤ 64 ∧ s.gl.ingress = [] ∧ refusalOf s c false o len = none ∧ stagingFree s false = true ∧ shareFree s c = true ∧ (((s.judged c).unlimited = true ∨ hasTokens s c 1 = true)) ∧ tagFree s .hrd c = true ∧ s.pw.entering = false ∧ LinkOpen s ∧ writeWaits s (lineIn s c 0 + o / 64) = false ∧ dirtyOf s (lineIn s c 0 + o / 64) = some h ∧ h.mask = fullMask ∧ h.poison = false) ∧
    (∃ (s : State) (fn : Fn) (bar : Bar) (c : Ctx) (o : Nat) (off : Nat) (len : Nat) (x : Slot) (n : Nat), reaches s .bar0 = true ∧ s.hl.effCxl = false ∧ targetOf s fn bar off = .media c o ∧ 0 < len ∧ o % 64 + len ≤ 64 ∧ s.gl.ingress = [] ∧ refusalOf s c false o len = none ∧ stagingFree s false = true ∧ shareFree s c = true ∧ (((s.judged c).unlimited = true ∨ hasTokens s c 1 = true)) ∧ tagFree s .hrd c = true ∧ s.pw.entering = false ∧ LinkOpen s ∧ writeWaits s (lineIn s c 0 + o / 64) = false ∧ lineReady s (lineIn s c 0 + o / 64) = true ∧ dirtyOf s (lineIn s c 0 + o / 64) = none ∧ readHome s (lineIn s c 0 + o / 64) = some (x, n) ∧ s.md.injArmed = false ∧ (lineOn s x n).err = 0 ∧ (lineOn s x n).version = 1 ∧ (lineOn s x n).poison = false ∧ (lineOn s x n).fresh = false ∧ (lineOn s x n).keyCtx = c.val ∧ (lineOn s x n).keyGen = (s.tenant c).keyNo ∧ (lineOn s x n).tweak = o / 64) ∧
    (∃ (s : State) (fn : Fn) (bar : Bar) (c : Ctx) (o : Nat) (off : Nat) (len : Nat) (code : BitVec 8), reaches s .bar0 = true ∧ s.hl.effCxl = false ∧ targetOf s fn bar off = .media c o ∧ 0 < len ∧ o % 4096 + len ≤ 4096 ∧ s.gl.ingress = [] ∧ refusalOf s c false o len = some code ∧ stagingFree s false = true ∧ shareFree s c = true ∧ tagFree s .hrd c = true ∧ LinkOpen s) ∧
    (∃ (s : State) (fn : Fn) (bar : Bar) (c : Ctx) (o : Nat) (off : Nat) (len : Nat) (code : BitVec 8), reaches s .bar0 = true ∧ s.hl.effCxl = false ∧ targetOf s fn bar off = .media c o ∧ 0 < len ∧ o % 4096 + len ≤ 4096 ∧ s.gl.ingress = [] ∧ refusalOf s c false o len = some code ∧ stagingFree s false = true ∧ shareFree s c = true ∧ tagFree s .hrd c = true ∧ LinkOpen s) :=
  ⟨⟨dirty1, .pf, .bar2, 0, 3, 3, 61, draining.slot0, by decide +kernel, by decide +kernel, by decide +kernel, by decide +kernel, by decide +kernel, by decide +kernel, by decide +kernel, by decide +kernel, by decide +kernel, by decide +kernel, by decide +kernel, by decide +kernel, link_open (by decide +kernel), by decide +kernel, by decide +kernel, by decide +kernel, by decide +kernel⟩,
    ⟨{ one with ct := { one.ct with a := slotUp cartL } }, .pf, .bar2, 0, 0, 0, 64, .a, 0, by decide +kernel, by decide +kernel, by decide +kernel, by decide +kernel, by decide +kernel, by decide +kernel, by decide +kernel, by decide +kernel, by decide +kernel, by decide +kernel, by decide +kernel, by decide +kernel, link_open (by decide +kernel), by decide +kernel, by decide +kernel, by decide +kernel, by decide +kernel, by decide +kernel, by decide +kernel, by decide +kernel, by decide +kernel, by decide +kernel, by decide +kernel, by decide +kernel, by decide +kernel⟩,
    ⟨one, .pf, .bar2, 0, 4194304, 4194304, 64, cRANGE, by decide +kernel, by decide +kernel, by decide +kernel, by decide +kernel, by decide +kernel, by decide +kernel, by decide +kernel, by decide +kernel, by decide +kernel, by decide +kernel, link_open (by decide +kernel)⟩,
    ⟨one, .pf, .bar2, 0, 4198399, 4198399, 1, cRANGE, by decide +kernel, by decide +kernel, by decide +kernel, by decide +kernel, by decide +kernel, by decide +kernel, by decide +kernel, by decide +kernel, by decide +kernel, by decide +kernel, link_open (by decide +kernel)⟩⟩

/-- States and operands that meet the hypotheses of each clause. -/
theorem witness_HostWritesAreRegistered :
    (∃ (s : State) (fn : Fn) (bar : Bar) (c : Ctx) (o : Nat) (off : Nat) (data : List Byte), reaches s .bar0 = true ∧ s.hl.effCxl = false ∧ targetOf s fn bar off = .media c o ∧ data ≠ [] ∧ o % 4096 + data.length ≤ 4096 ∧ stagingFree s true = true ∧ refusalOf s c true o data.length = none) ∧
    (∃ (s : State) (fn : Fn) (bar : Bar) (c : Ctx) (o : Nat) (off : Nat) (data : List Byte) (code : BitVec 8), reaches s .bar0 = true ∧ s.hl.effCxl = false ∧ targetOf s fn bar off = .media c o ∧ data ≠ [] ∧ o % 4096 + data.length ≤ 4096 ∧ stagingFree s true = true ∧ refusalOf s c true o data.length = some code) ∧
    (∃ (s : State) (r : Req), reaches s .bar0 = true ∧ (∀ q ∈ s.gl.ingress, q.write = true) ∧ (∀ f ∈ s.pc.flushes, f.stage = .staging → r.id < f.before) ∧ s.gl.ingress.find? (fun r => decide (r.stage = .staging) && shareFree s r.ctx) = some r) :=
  ⟨⟨one, .pf, .bar2, 0, 5, 5, [1, 2, 3], by decide +kernel⟩,
    ⟨one, .pf, .bar2, 0, 4194304, 4194304, [1], cRANGE, by decide +kernel⟩,
    ⟨ofReq { reqW with stage := .staging } one, { reqW with stage := .staging }, by decide +kernel⟩⟩

/-- States and operands that meet the hypotheses of each clause. -/
theorem witness_LineAdmissionTakesASlot :
    (∃ (s : State) (r : Req) (p : LinePart), s.gl.ingress = [r] ∧ r.write = true ∧ r.kind = .media ∧ r.parts = [p] ∧ r.stage = .share ∧ r.tag = none ∧ r.verified = false ∧ r.unverified = 0 ∧ s.hl.effCxl = false ∧ forcedVerified s = false ∧ mediaBeats s = [] ∧ MinuteOpen s ∧ usual s = true ∧ s.pc.drain = none ∧ s.bt.scan = false ∧ s.pw.entering = false ∧ tagFree s .hwr r.ctx = true ∧ ((r.unlimited = true ∨ hasTokens s r.ctx r.lines = true)) ∧ s.duet.state = .soloA ∧ (s.slot .a).serves = true ∧ dirtyOf s (r.base + p.off) = none ∧ dirty s + s.pc.relSlots.at s.now < capLines s ∧ rsvdNj s + 256 ≤ s.pc.availNj ∧ spentOf (s.slot .a) + (writeTempo s r.ctx).price ≤ (s.slot .a).budget ∧ r.quota = 0xFFFFFFFF) :=
  ⟨ofReq reqW one, reqW, { off := 0, data := 7, mask := fullMask }, by decide +kernel⟩

/-- States and operands that meet the hypotheses of each clause. -/
theorem witness_FlushesComplete :
    (∃ (s : State) (fn : Fn), reaches s .bar0 = true ∧ memOn s fn = true ∧ NothingWaits s ∧ stagingFree s false = true ∧ shareFree s fn.ctx = true ∧ tagFree s .hrd fn.ctx = true ∧ LinkOpen s) ∧
    (∃ (s : State) (fn : Fn), reaches s .bar0 = true ∧ memOn s fn = true ∧ NothingWaits s ∧ stagingFree s false = true ∧ shareFree s fn.ctx = true ∧ tagFree s .hrd fn.ctx = true ∧ LinkOpen s) ∧
    (∃ (s : State), reaches s .bar0 = true ∧ memOn s .pf = true ∧ NothingWaits s ∧ stagingFree s false = true ∧ shareFree s provider = true ∧ tagFree s .hrd provider = true ∧ LinkOpen s) ∧
    (∃ (s : State) (n : Fin 128), reaches s .bar0 = true ∧ memOn s .pf = true ∧ NothingWaits s ∧ vfOn s n = false ∧ stagingFree s false = true ∧ shareFree s (ofTenant n) = true ∧ tagFree s .hrd (ofTenant n) = true ∧ LinkOpen s) ∧
    (∃ (s : State) (f : Flush) (fn : Fn), s.pc.flushes = [f] ∧ f.zero = some fn ∧ f.waits = [] ∧ f.stage = .tagged ∧ f.tag.isSome = true ∧ f.lost = none ∧ s.gl.ingress = [] ∧ s.pc.slots = [] ∧ LinkOpen s) ∧
    (∃ (s : State) (f : Flush) (fn : Fn), s.pc.flushes = [f] ∧ f.zero = some fn ∧ f.cycle + 40000000 ≤ s.now ∧ LinkOpen s) ∧
    (∃ (s : State) (f : Flush), s.pc.flushes = [f] ∧ f.zero = none ∧ f.read = none ∧ f.cycle + 40000000 ≤ s.now) ∧
    (∃ (s : State) (f : Flush), s.pc.flushes = [f] ∧ s.now < f.cycle + 40000000) :=
  ⟨⟨one, .pf, by decide +kernel, by decide +kernel, by decide +kernel, by decide +kernel, by decide +kernel, by decide +kernel, link_open (by decide +kernel)⟩,
    ⟨exposed one, .vf 0, by decide +kernel, by decide +kernel, by decide +kernel, by decide +kernel, by decide +kernel, by decide +kernel, link_open (by decide +kernel)⟩,
    ⟨one, by decide +kernel, by decide +kernel, by decide +kernel, by decide +kernel, by decide +kernel, by decide +kernel, link_open (by decide +kernel)⟩,
    ⟨one, 0, by decide +kernel, by decide +kernel, by decide +kernel, by decide +kernel, by decide +kernel, by decide +kernel, by decide +kernel, link_open (by decide +kernel)⟩,
    ⟨flushing { flush0 with stage := .tagged, tag := some 0 } one, { flush0 with stage := .tagged, tag := some 0 }, .pf, by decide +kernel, by decide +kernel, by decide +kernel, by decide +kernel, by decide +kernel, by decide +kernel, by decide +kernel, by decide +kernel, link_open (by decide +kernel)⟩,
    ⟨{ flushing flush0 dirty1 with pc := { (flushing flush0 dirty1).pc with flushes := [{ flush0 with slots := [0] }] }, now := 40000000 }, { flush0 with slots := [0] }, .pf, by decide +kernel, by decide +kernel, by decide +kernel, link_open (by decide +kernel)⟩,
    ⟨{ flushing { flush0 with zero := none, slots := [0] } dirty1 with now := 40000000 }, { flush0 with zero := none, slots := [0] }, by decide +kernel⟩,
    ⟨{ flushing flush0 one with now := 39999999 }, flush0, by decide +kernel⟩⟩

/-- States and operands that meet the hypotheses of each clause. -/
theorem witness_FencesOrderContexts :
    (∃ (s : State), MayWrite .bar0 0x0050 s) ∧
    (∃ (s : State), MayWrite .sp0 0x0050 s) ∧
    (∃ (s : State), MayWrite .bar0 0x0050 s) ∧
    (∃ (s : State), Serves s) ∧
    (∃ (s : State) (q : Req) (r : Req), s.gl.ingress = [q, r] ∧ q.id < r.id ∧ q.write = true ∧ r.write = true ∧ q.kind = .media ∧ q.parts ≠ [] ∧ q.ctx = r.ctx ∧ q.fence < r.fence) :=
  ⟨⟨live, by decide +kernel⟩,
    ⟨live, by decide +kernel⟩,
    ⟨live, by decide +kernel⟩,
    ⟨live, by decide +kernel⟩,
    ⟨{ live with gl := { live.gl with ingress := [reqW, { reqW with id := 6, fence := 1, off := 640 }] } }, reqW, { reqW with id := 6, fence := 1, off := 640 }, by decide +kernel⟩⟩

/-- States and operands that meet the hypotheses of each clause. -/
theorem witness_ConfigurationAndOddRequests :
    (∃ (s : State), (s.pw.state = .boot ∨ s.pw.state = .replay) ∧ s.pc.drain = none ∧ s.bt.scan = false ∧ LinkOpen s) ∧
    (∃ (s : State), (s.pw.state = .boot ∨ s.pw.state = .replay) ∧ s.pc.drain = none ∧ s.bt.scan = false ∧ LinkOpen s) ∧
    (∃ (s : State), Serves s ∧ LinkOpen s) ∧
    (∃ (s : State) (v : Fin 128), Serves s ∧ vfOn s v = true ∧ LinkOpen s) ∧
    (∃ (s : State), Serves s ∧ LinkOpen s) ∧
    (∃ (s : State), Serves s ∧ LinkOpen s) ∧
    (∃ (s : State), Serves s ∧ LinkOpen s) ∧
    (∃ (s : State), Serves s ∧ LinkOpen s) ∧
    (∃ (s : State) (fn : Fn), Serves s ∧ s.gl.ingress = [] ∧ stagingFree s false = true ∧ shareFree s fn.ctx = true ∧ tagFree s .hrd fn.ctx = true ∧ LinkOpen s) ∧
    (∃ (s : State) (fn : Fn), Serves s ∧ s.gl.ingress = [] ∧ stagingFree s false = true ∧ shareFree s fn.ctx = true ∧ tagFree s .hrd fn.ctx = true ∧ LinkOpen s) :=
  ⟨⟨inP .boot live, by decide +kernel, by decide +kernel, by decide +kernel, link_open (by decide +kernel)⟩,
    ⟨inP .replay live, by decide +kernel, by decide +kernel, by decide +kernel, link_open (by decide +kernel)⟩,
    ⟨live, by decide +kernel, link_open (by decide +kernel)⟩,
    ⟨exposed live, 0, by decide +kernel, by decide +kernel, link_open (by decide +kernel)⟩,
    ⟨live, by decide +kernel, link_open (by decide +kernel)⟩,
    ⟨cxl live, by decide +kernel, link_open (by decide +kernel)⟩,
    ⟨exposed live, by decide +kernel, link_open (by decide +kernel)⟩,
    ⟨live, by decide +kernel, link_open (by decide +kernel)⟩,
    ⟨live, .pf, by decide +kernel, by decide +kernel, by decide +kernel, by decide +kernel, by decide +kernel, link_open (by decide +kernel)⟩,
    ⟨exposed live, .vf 0, by decide +kernel, by decide +kernel, by decide +kernel, by decide +kernel, by decide +kernel, link_open (by decide +kernel)⟩⟩

/-- States and operands that meet the hypotheses of each clause. -/
theorem witness_HostResets :
    (∃ (s : State), Running s) ∧
    (∃ (s : State), Running s) ∧
    (∃ (s : State) (v : Fin 128), Running s ∧ vfOn s v = true) ∧
    (∃ (s : State) (n : BitVec 16) (ari : Bool), Serves s ∧ s.hl.vfEnable = false ∧ n.toNat ≤ 128 ∧ ((ari = true ∨ n.toNat ≤ 7))) ∧
    (∃ (s : State) (n : BitVec 16) (ari : Bool), Serves s ∧ s.hl.vfEnable = false ∧ n.toNat ≤ 128 ∧ ((ari = true ∨ n.toNat ≤ 7))) ∧
    (∃ (s : State) (n : BitVec 16), Serves s ∧ s.hl.vfEnable = false ∧ 7 < n.toNat ∧ n.toNat ≤ 128) :=
  ⟨⟨ofReq reqW one, by decide +kernel⟩,
    ⟨{ ofReq reqW one with cs := { one.cs with state := .opened, opened := true } }, by decide +kernel⟩,
    ⟨exposed (ofReq { reqW with fn := .vf 0 } one), 0, by decide +kernel⟩,
    ⟨live, 128, true, by decide +kernel⟩,
    ⟨live, 7, false, by decide +kernel⟩,
    ⟨live, 8, by decide +kernel⟩⟩

/-- States and operands that meet the hypotheses of each clause. -/
theorem witness_LinkUpAndStalls :
    (∃ (s : State) (sp : Fin 9) (w : Fin 9), Running s ∧ s.ks.scanned = true ∧ 1 ≤ sp.val ∧ sp.val ≤ 5 ∧ ((w = 1 ∨ w = 2 ∨ w = 4 ∨ w = 8))) ∧
    (∃ (s : State) (sp : Fin 9) (w : Fin 9), Running s ∧ s.ks.scanned = true ∧ 1 ≤ sp.val ∧ sp.val ≤ 5 ∧ ((w = 1 ∨ w = 2 ∨ w = 4 ∨ w = 8))) ∧
    (∃ (s : State) (sp : Fin 9) (w : Fin 9), Running s ∧ s.ks.scanned = true ∧ 1 ≤ sp.val ∧ sp.val ≤ 5 ∧ ((w = 1 ∨ w = 2 ∨ w = 4 ∨ w = 8))) ∧
    (∃ (s : State) (k : Credit), s.pw.state.clocked = true ∧ hasCredit s k = true) ∧
    (∃ (s : State) (k : Credit) (c : Nat), s.pw.state.clocked = true ∧ s.hl.noCredit[creditNum k] = some (c, false) ∧ c + ms ≤ s.now ∧ s.ev.logOpen = true) ∧
    (∃ (s : State) (k : Credit) (n : Nat) (o : Out) (g : Option Nat), s.pw.state.clocked = true ∧ n ≠ 0 ∧ s.egress = [(o, g)] ∧ o.credit = some k) ∧
    (∃ (s : State), Serves s ∧ hasCredit s .completion = false) ∧
    (∃ (s : State) (i : Fin 192), s.pw.state.clocked = true ∧ s.hl.pfVec[i].pending = true ∧ s.hl.pfVec[i].reported = false ∧ s.hl.pfVec[i].pendSince + sec ≤ s.now) ∧
    (∃ (s : State) (c : Nat), s.gl.holPosted = some (c, false) ∧ blocked s true = true ∧ c + 10000 ≤ s.now) ∧
    (∃ (s : State) (c : Nat), s.gl.holNonPosted = some (c, false) ∧ blocked s false = true ∧ c + 10000 ≤ s.now) :=
  ⟨⟨{ live with ks := { live.ks with scanned := true } }, 5, 8, by decide +kernel⟩,
    ⟨cxl { live with ks := { live.ks with scanned := true } }, 5, 1, by decide +kernel⟩,
    ⟨cxl { live with ks := { live.ks with scanned := true } }, 1, 2, by decide +kernel⟩,
    ⟨live, .completion, by decide +kernel⟩,
    ⟨starving .posted (at1s live), .posted, 0, by decide +kernel⟩,
    ⟨{ starving .completion live with egress := [(.completion .pf .sc false [], some 4)] }, .completion, 8, .completion .pf .sc false [], some 4, by decide +kernel⟩,
    ⟨starving .completion live, by decide +kernel⟩,
    ⟨{ pfEntry 160 { pending := true, pendSince := 0 } live with now := sec }, 160, by decide +kernel⟩,
    ⟨stuck true, 0, by decide +kernel⟩,
    ⟨stuck false, 0, by decide +kernel⟩⟩

/-- States and operands that meet the hypotheses of each clause. -/
theorem witness_CxlMailboxAnswers :
    (∃ (s : State), Serves s ∧ s.hl.effCxl = true) :=
  ⟨cxl live, by decide +kernel⟩

/-- States and operands that meet the hypotheses of each clause. -/
theorem witness_WriteBackIssuesALineWrite :
    (∃ (s : State) (h : HoldSlot) (x : Slot) (cl : Nat), writesRun s = true ∧ Still s ∧ s.pc.slots.find? (fun h => canIssue s h) = some h ∧ issuable s h = [(x, cl)] ∧ h.mask = fullMask ∧ h.first = x) ∧
    (∃ (s : State), writesRun s = true ∧ s.pc.slots = []) :=
  ⟨⟨at1s dirty1, draining.slot0, .a, 0, by decide +kernel, still (by decide +kernel), by decide +kernel, by decide +kernel, by decide +kernel, by decide +kernel⟩,
    ⟨one, by decide +kernel⟩⟩

/-- States and operands that meet the hypotheses of each clause. -/
theorem witness_TriesPulseVerifyAndPass :
    (∃ (s : State) (x : Slot) (b : Fin 128) (w : LineWrite), writeOn s x b = some w ∧ w.fired = false ∧ w.held = false ∧ inhibited s x = false ∧ w.used < 8 ∧ writesRun s = true) ∧
    (∃ (s : State) (x : Slot) (b : Fin 128) (w : LineWrite), writeOn s x b = some w ∧ w.fired = false ∧ w.held = false ∧ inhibited s x = false ∧ w.used < 8 ∧ writesRun s = true) ∧
    (∃ (s : State) (x : Slot) (b : Fin 128) (w : LineWrite), writeOn s x b = some w ∧ 8 ≤ w.used) ∧
    (∃ (s : State) (x : Slot) (b : Fin 128) (w : LineWrite) (n : Nat), writeOn s x b = some w ∧ w.fired = true ∧ inhibited s x = false ∧ writesRun s = true ∧ 0 < n ∧ w.used < 8 ∧ s.pc.slots ≠ []) ∧
    (∃ (s : State) (x : Slot) (b : Fin 128) (w : LineWrite) (h : HoldSlot) (c : Cart), writeOn s x b = some w ∧ w.fired = true ∧ inhibited s x = false ∧ writesRun s = true ∧ w.kind = .hold h.id ∧ w.second = false ∧ w.poisonMerge = false ∧ s.md.injArmed = false ∧ s.pc.slots = [h] ∧ h.left = [(x, w.cline)] ∧ h.reqs = [] ∧ s.duet.state ≠ .mirrorDegraded ∧ (s.slot x).cart = some c ∧ w.cline < userLines c.big) :=
  ⟨⟨writing write0 dirty1, .a, 0, write0, by decide +kernel⟩,
    ⟨writing { write0 with used := 7 } dirty1, .a, 0, { write0 with used := 7 }, by decide +kernel⟩,
    ⟨writing { write0 with used := 8 } dirty1, .a, 0, { write0 with used := 8 }, by decide +kernel⟩,
    ⟨writing { write0 with used := 7, fired := true } dirty1, .a, 0, { write0 with used := 7, fired := true }, 1, by decide +kernel⟩,
    ⟨writing { write0 with used := 8, fired := true } dirty1, .a, 0, { write0 with used := 8, fired := true }, draining.slot0, cartA, by decide +kernel⟩⟩

/-- States and operands that meet the hypotheses of each clause. -/
theorem witness_FailedWritesAreQuarantined :
    (∃ (s : State) (x : Slot) (b : Fin 128) (w : LineWrite) (h : HoldSlot) (c : Cart) (n : Nat), writeOn s x b = some w ∧ w.fired = true ∧ inhibited s x = false ∧ writesRun s = true ∧ w.kind = .hold h.id ∧ w.used = 8 ∧ 0 < n ∧ w.second = false ∧ s.pc.slots = [h] ∧ h.left = [(x, w.cline)] ∧ h.reqs = [] ∧ h.chans = [] ∧ (s.slot x).cart = some c ∧ sparesUsed c b.val < 256 ∧ s.md.injArmed = false) :=
  ⟨writing { write0 with used := 8, fired := true } dirty1, .a, 0, { write0 with used := 8, fired := true }, draining.slot0, cartA, 1, by decide +kernel⟩

/-- States and operands that meet the hypotheses of each clause. -/
theorem witness_RewritesRepairOrPoison :
    (∃ (s : State) (r : Rewrite) (e : Sense) (n : Nat), nextRewrite s false = some r ∧ tagFree s .wbk provider = true ∧ s.md.injArmed = false ∧ 0 < n ∧ s.md.rewrite ≤ n ∧ readLineCells (lineOn s r.slot r.cline) e = .good n 0) ∧
    (∃ (s : State) (r : Rewrite) (e : Sense) (code : BitVec 8), nextRewrite s true = some r ∧ tagFree s .wbk provider = true ∧ s.md.injArmed = false ∧ readLineCells (lineOn s r.slot r.cline) e = .bad code) :=
  ⟨⟨{ withCart { cartA with lines := [(0, { line0 with err := 3 })] } one with md := { one.md with rewrites := [rewrite0] } }, rewrite0, {}, 2, by decide +kernel⟩,
    ⟨{ withCart { cartA with lines := [(0, { line0 with err := 0xFFF })] } one with md := { one.md with rewrites := [{ rewrite0 with poison := true }] } }, { rewrite0 with poison := true }, {}, cUNCORR, by decide +kernel⟩⟩

/-- States and operands that meet the hypotheses of each clause. -/
theorem witness_GapMovesAndScrub :
    (∃ (s : State) (x : Slot) (b : Fin 128) (e : Sense) (c : Cart), (s.slot x).cart = some c ∧ s.md.wlPeriod ≤ s.md.gapCount[bankNo x b] ∧ takesWrite s x b.val = true ∧ tagFree s .wbk provider = true ∧ s.md.injArmed = false ∧ (∀ cl, logicalLine c b.val (nextLevel c b.val).2.1 = some cl → ∃ n, readLineCells (lineAt c cl) e = .good n 0)) ∧
    (∃ (s : State) (x : Slot) (b : Fin 128) (e : Sense) (c : Cart), (s.slot x).cart = some c ∧ s.md.wlPeriod ≤ s.md.gapCount[bankNo x b] ∧ takesWrite s x b.val = true ∧ tagFree s .wbk provider = true ∧ s.md.injArmed = false ∧ (∀ cl, logicalLine c b.val (nextLevel c b.val).2.1 = some cl → ∃ n, readLineCells (lineAt c cl) e = .good n 0)) ∧
    (∃ (s : State) (x : Slot) (b : Fin 128) (c : Cart), (s.slot x).cart = some c ∧ s.md.wlPeriod ≤ s.md.gapCount[bankNo x b] ∧ takesWrite s x b.val = true ∧ tagFree s .wbk provider = true ∧ (logicalLine c b.val (nextLevel c b.val).2.1).isSome = true ∧ s.ev.logOpen = true) ∧
    (∃ (s : State) (x : Slot) (c : Cart), (s.slot x).cart = some c ∧ (s.slot x).serves = true ∧ scrubRuns s = true ∧ linkReady s x = true ∧ (s.slot x).expoLine = none ∧ bankHeld s x (bankOf (sweepAt c 128 0 (scrubPos s x)).1) = false ∧ scrubPos s x + 1 < sweepTotal c) ∧
    (∃ (s : State) (x : Slot) (c : Cart), (s.slot x).cart = some c ∧ (s.slot x).serves = true ∧ scrubRuns s = true ∧ linkReady s x = true ∧ (s.slot x).expoLine = none ∧ bankHeld s x (bankOf (sweepAt c 128 0 (scrubPos s x)).1) = false ∧ sweepTotal c ≤ scrubPos s x + 1) :=
  ⟨⟨gapDue cartL, .a, 0, {}, cartL, by decide +kernel, by decide +kernel, by decide +kernel, by decide +kernel, rfl, gap_reads (by decide +kernel)⟩,
    ⟨gapDue { cartL with levels := [(0, bankLines false - 1, 0)] }, .a, 0, {}, { cartL with levels := [(0, bankLines false - 1, 0)] }, by decide +kernel, by decide +kernel, by decide +kernel, by decide +kernel, rfl, gap_reads (by decide +kernel)⟩,
    ⟨gapDue cartL, .a, 0, cartL, by decide +kernel⟩,
    ⟨withCart cartL one, .a, cartL, by decide +kernel⟩,
    ⟨{ withCart cartL one with md := { one.md with scrubA := sweepTotal cartL - 1 } }, .a, cartL, by decide +kernel⟩⟩

/-- States and operands that meet the hypotheses of each clause. -/
theorem witness_FieldInhibitsAndHolds :
    (∃ (s : State) (x : Slot), (s.slot x).cart.isSome = true ∧ s.pw.state.clocked = true ∧ inhibitedAt s x = none) ∧
    (∃ (s : State) (x : Slot) (n : Nat), inhibitedAt s x = some n ∧ s.duet.bindDue = none) ∧
    (∃ (s : State) (x : Slot) (n : Nat), usual s = true ∧ s.pc.drain = none ∧ (s.slot x).serves = true ∧ inhibitedAt s x = some n ∧ n + 50 * ms ≤ s.now) ∧
    (∃ (s : State), s.pw.state = .fieldHold ∧ s.md.lastField + 60 * sec ≤ s.now) :=
  ⟨⟨writing write0 dirty1, .a, by decide +kernel⟩,
    ⟨{ inP .fieldHold one with md := { one.md with inhA := some 0 } }, .a, 0, by decide +kernel⟩,
    ⟨{ one with md := { one.md with inhA := some 0 }, now := 50 * ms }, .a, 0, by decide +kernel⟩,
    ⟨{ inP .fieldHold one with now := 60 * sec }, by decide +kernel⟩⟩

/-- States and operands that meet the hypotheses of each clause. -/
theorem witness_LiveEnergyFollowsVhold :
    (∃ (s : State), s.pw.state.clocked = true ∧ (2 : Fin 16) ∉ s.bt.running ∧ s.pc.measured = true) ∧
    (∃ (s : State), s.pw.state.clocked = true ∧ (2 : Fin 16) ∉ s.bt.running ∧ s.pc.measured = true) :=
  ⟨⟨{ one with pc := { one.pc with measured := true, capUf := 470, esrMohm := 80 } }, by decide +kernel⟩,
    ⟨{ one with pc := { one.pc with measured := true, capUf := 470, esrMohm := 80 } }, by decide +kernel⟩⟩

/-- States and operands that meet the hypotheses of each clause. -/
theorem witness_HoldAndMediaCommands :
    (∃ (ch : Chan) (s : State) (v : BitVec 32), MayWrite ch 0x043C s ∧ usualField s = true ∧ bit v 1 = false ∧ bit v 2 = false) ∧
    (∃ (ch : Chan) (s : State) (v : BitVec 32), MayWrite ch 0x043C s ∧ usual s = true ∧ bit v 0 = false ∧ bit v 2 = false) ∧
    (∃ (ch : Chan) (s : State) (v : BitVec 32), MayWrite ch 0x0804 s ∧ bit v 0 = false) ∧
    (∃ (ch : Chan) (s : State) (x : Slot), MayWrite ch 0x0804 s ∧ usual s = true ∧ serving s = [x]) ∧
    (∃ (ch : Chan) (s : State) (v : BitVec 32), MayWrite ch 0x0840 s ∧ usual s = true ∧ fld v 0 4 ≤ 12) :=
  ⟨⟨.bar0, inP .fieldHold one, 0, by decide +kernel⟩,
    ⟨.sp0, one, 0, by decide +kernel⟩,
    ⟨.bar0, one, 2, by decide +kernel⟩,
    ⟨.bar0, one, .a, by decide +kernel⟩,
    ⟨.bar0, one, 0x8C, by decide +kernel⟩⟩

/-- States and operands that meet the hypotheses of each clause. -/
theorem witness_InsertionReachesAuthentication :
    (∃ (s : State) (x : Slot), (s.slot x).cart = none ∧ (s.slot x).state = .empty) ∧
    (∃ (s : State) (x : Slot) (i : Nat) (c : Cart), (s.slot x).cart = none ∧ (s.slot x).state = .empty ∧ s.shelf[i]? = some c) ∧
    (∃ (s : State) (x : Slot), (s.slot x).state = .debounce ∧ (s.slot x).fallAt + 10000000 ≤ s.now ∧ s.pw.state.clocked = true ∧ s.ev.logOpen = true) ∧
    (∃ (s : State) (x : Slot), (s.slot x).state = .debounce ∧ s.now < (s.slot x).fallAt + 10000000) ∧
    (∃ (s : State) (x : Slot), (s.slot x).state = .powering ∧ (s.slot x).fallAt + 50000000 ≤ s.now ∧ (s.slot x).powerAt = none ∧ (s.slot x).pwren = true ∧ s.pw.state.clocked = true) ∧
    (∃ (s : State) (x : Slot), (s.slot x).state = .auth ∧ (s.slot x).authStart + 40000000 ≤ s.now ∧ s.ev.logOpen = true) :=
  ⟨⟨live, .a, by decide +kernel⟩,
    ⟨{ live with shelf := [cartL] }, .b, 0, cartL, by decide +kernel⟩,
    ⟨{ slotA (inSlot .debounce { cart := some cartA }) live with now := 10000000 }, .a, by decide +kernel⟩,
    ⟨{ slotA (inSlot .debounce { cart := some cartA }) live with now := 9999999 }, .a, by decide +kernel⟩,
    ⟨{ slotA (inSlot .powering { cart := some cartA, pwren := true }) live with now := 50000000 }, .a, by decide +kernel⟩,
    ⟨{ slotA (inSlot .auth { cart := some cartA, pwren := true }) live with now := 40000000 }, .a, by decide +kernel⟩⟩

/-- States and operands that meet the hypotheses of each clause. -/
theorem witness_TrainingAndClassing :
    (∃ (s : State) (x : Slot) (w : Fin 9), (s.slot x).state = .training ∧ (s.slot x).link = .train ∧ loopBackFirst s x = false ∧ ((w = 8 ∨ w = 4)) ∧ s.pw.state = .active) ∧
    (∃ (s : State) (x : Slot), (s.slot x).state = .training ∧ (s.slot x).link = .train ∧ loopBackFirst s x = false ∧ s.duet.format = none ∧ s.pw.state = .active) ∧
    (∃ (s : State) (x : Slot) (c : Cart), (s.slot x).state = .training ∧ (s.slot x).cart = some c ∧ linkUp (s.slot x) = true ∧ c.saved = [] ∧ c.header = true ∧ c.tagEngine = engineId ∧ c.tagGen = s.duet.gen ∧ recordSlot s.duet (s.slot x).serial = some x ∧ s.duet.names x = true ∧ stale s x = false ∧ s.pw.state = .active ∧ (s.slot x).eolWarn = true) ∧
    (∃ (s : State) (x : Slot) (c : Cart), (s.slot x).state = .training ∧ (s.slot x).cart = some c ∧ linkUp (s.slot x) = true ∧ c.saved = [] ∧ ((c.tagGen ≠ s.duet.gen ∧ c.tagGen ≠ (s.duet.gen + 1) % 2 ^ 32 ∨ c.header = false ∨ c.tagEngine ≠ engineId ∨ recordSlot s.duet (s.slot x).serial = none)) ∧ (s.slot x).eolWarn = true) ∧
    (∃ (s : State) (x : Slot) (c : Cart), (s.slot x).state = .training ∧ (s.slot x).cart = some c ∧ linkUp (s.slot x) = true ∧ c.saved = [] ∧ ((c.tagGen ≠ s.duet.gen ∧ c.tagGen ≠ (s.duet.gen + 1) % 2 ^ 32 ∨ c.header = false ∨ c.tagEngine ≠ engineId ∨ recordSlot s.duet (s.slot x).serial = none)) ∧ (s.slot x).eolWarn = true) :=
  ⟨⟨slotA { inSlot .training upA with link := .train } live, .a, 4, by decide +kernel⟩,
    ⟨slotA { inSlot .training upA with link := .train } live, .a, by decide +kernel⟩,
    ⟨slotA { inSlot .training (slotUp bound0) with eolWarn := true } one, .a, bound0, rfl, rfl, rfl, rfl, rfl, rfl, rfl, by decide +kernel, rfl, by decide +kernel, rfl, rfl⟩,
    ⟨slotA { inSlot .training (slotUp bound0) with eolWarn := true } live, .a, bound0, rfl, rfl, rfl, rfl, .inr (.inr (.inr (by decide +kernel))), rfl⟩,
    ⟨slotA { inSlot .training (slotUp cartA) with eolWarn := true } one, .a, cartA, rfl, rfl, rfl, rfl, .inr (.inl rfl), rfl⟩⟩

/-- States and operands that meet the hypotheses of each clause. -/
theorem witness_ReleaseRemovalAndReauthentication :
    (∃ (s : State) (ch : Chan) (x : Slot), MayWrite ch (slotBase x + 4) s ∧ usualField s = true ∧ (s.slot x).state = .spare ∧ s.duet.format = none ∧ (s.slot x).svDue = []) ∧
    (∃ (s : State) (x : Slot) (c : Cart), (s.slot x).state = .releasing ∧ (s.slot x).cart = some c ∧ slotClean s x = true ∧ finalDone (s.slot x) = true ∧ s.ev.logOpen = true) ∧
    (∃ (s : State) (x : Slot) (c : Cart), (s.slot x).state = .safeToRemove ∧ (s.slot x).cart = some c ∧ (s.slot x).uncharged = 0 ∧ s.bt.running = [] ∧ s.bt.run = 0 ∧ s.pw.state = .active ∧ s.bt.causes = []) ∧
    (∃ (s : State) (ch : Chan) (x : Slot), MayWrite ch (slotBase x + 4) s ∧ notTest s = true ∧ (s.slot x).cart.isSome = true ∧ (s.slot x).state = .spare ∧ (s.slot x).uncharged = 0 ∧ s.duet.format = none ∧ s.bt.running = [] ∧ s.bt.run = 0) ∧
    (∃ (s : State) (ch : Chan) (x : Slot), MayWrite ch (slotBase x + 4) s ∧ notTest s = true ∧ (s.slot x).svSoft = false) ∧
    (∃ (s : State) (x : Slot), (s.slot x).svSoft = true ∧ (s.slot x).softSince + 100000000 ≤ s.now ∧ s.sp1.txn = none ∧ s.ev.logOpen = true) :=
  ⟨⟨slotA (inSlot .spare upA) live, .bar0, .a, by decide +kernel⟩,
    ⟨slotA (inSlot .releasing upA) live, .a, cartA, by decide +kernel⟩,
    ⟨slotA { inSlot .safeToRemove upA with pwren := false, link := .down } { live with bt := { live.bt with todo := [] } }, .a, cartA, by decide +kernel⟩,
    ⟨slotA (inSlot .spare upA) { live with bt := { live.bt with todo := [] } }, .sp0, .a, by decide +kernel⟩,
    ⟨live, .bar0, .b, by decide +kernel⟩,
    ⟨{ slotA { upA with svSoft := true } live with now := 100000000 }, .a, by decide +kernel⟩⟩

/-- States and operands that meet the hypotheses of each clause. -/
theorem witness_SupervisorCommandsAreAnswered :
    (∃ (s : State) (x : Slot) (c : Cart), CanAsk s x c ∧ authTurn s x = true ∧ (s.slot x).identified = false ∧ c.identOk = true ∧ c.proto = 1) ∧
    (∃ (s : State) (x : Slot) (c : Cart) (tag : BitVec 128), CanAsk s x c ∧ authTurn s x = true ∧ (s.slot x).identified = true ∧ leBytes 16 tag.toNat = expectedTag s (s.slot x)) ∧
    (∃ (s : State) (x : Slot) (c : Cart) (tag : BitVec 128), CanAsk s x c ∧ authTurn s x = true ∧ (s.slot x).identified = true ∧ leBytes 16 tag.toNat ≠ expectedTag s (s.slot x)) ∧
    (∃ (s : State) (x : Slot) (c : Cart), CanAsk s x c ∧ svOwed s x 3 = true ∧ c.sv.spent < 2 ^ 64) ∧
    (∃ (s : State) (x : Slot) (c : Cart), CanAsk s x c ∧ svOwed s x 4 = true ∧ c.sv.spent + (s.slot x).uncharged < 2 ^ 64) ∧
    (∃ (s : State) (x : Slot) (c : Cart) (page : Byte) (b : List Byte), CanAsk s x c ∧ svOwed s x 5 = true ∧ expoPage c.sv page.toNat = some b) ∧
    (∃ (s : State) (x : Slot) (c : Cart), CanAsk s x c ∧ syncDue s x = true ∧ lgtMs s.lg.lgt < 2 ^ 64 ∧ c.sv.clockMs ≠ lgtMs s.lg.lgt ∧ c.sv.clockMs ≤ lgtMs s.lg.lgt + 250 ∧ lgtMs s.lg.lgt ≤ c.sv.clockMs + 250) ∧
    (∃ (s : State) (x : Slot) (c : Cart), CanAsk s x c ∧ syncDue s x = true ∧ lgtMs s.lg.lgt < 2 ^ 64 ∧ c.sv.clockMs + 250 < lgtMs s.lg.lgt) ∧
    (∃ (s : State) (x : Slot) (c : Cart), CanAsk s x c ∧ authed (s.slot x) = true) ∧
    (∃ (s : State) (x : Slot) (c : Cart) (m : Fin 3), CanAsk s x c ∧ authed (s.slot x) = true ∧ wantLamp (s.slot x) = BitVec.ofNat 2 m.val) ∧
    (∃ (s : State) (x : Slot) (c : Cart), CanAsk s x c ∧ (s.slot x).alertPending = true ∧ booting s = false) ∧
    (∃ (s : State) (x : Slot) (c : Cart), CanAsk s x c ∧ testBit 9 x ∈ s.bt.running) ∧
    (∃ (s : State) (x : Slot) (c : Cart) (on : Bool), CanAsk s x c ∧ svOwed s x 11 = true ∧ noticeFits s x on = true) :=
  ⟨⟨slotA (inSlot .auth { upA with identified := false }) live, .a, cartA, by decide +kernel⟩,
    ⟨slotA (inSlot .auth upA) live, .a, cartA, BitVec.ofNat 128 (ofLe (expectedTag (slotA (inSlot .auth upA) live) (inSlot .auth upA))), by decide +kernel, by decide +kernel, by decide +kernel, tag_spelled _ _⟩,
    wrong_auth,
    ⟨slotA (owing 3 upA) live, .a, cartA, by decide +kernel⟩,
    ⟨slotA (owing 4 { upA with uncharged := 7 }) live, .a, cartA, by decide +kernel⟩,
    ⟨slotA (owing 5 upA) live, .a, cartA, 9, [], by decide +kernel⟩,
    ⟨{ slotA upA live with now := 60 * sec, lg := { live.lg with lgt := 2 ^ 45 } }, .a, cartA, by decide +kernel⟩,
    ⟨{ slotA upA live with now := 60 * sec, lg := { live.lg with lgt := 2 ^ 48 } }, .a, cartA, by decide +kernel⟩,
    ⟨slotA upA live, .a, cartA, by decide +kernel⟩,
    ⟨slotA { upA with eolWarn := true } live, .a, cartA, 2, by decide +kernel⟩,
    ⟨slotA { upA with alertPending := true } live, .a, cartA, by decide +kernel⟩,
    ⟨{ slotA upA live with bt := { live.bt with running := [9] } }, .a, cartA, by decide +kernel⟩,
    ⟨slotA (owing 11 upA) live, .a, cartA, true, by decide +kernel⟩⟩

/-- States and operands that meet the hypotheses of each clause. -/
theorem witness_SupervisorPassThroughFaultsAndExposure :
    (∃ (s : State) (ch : Chan) (x : Slot) (opc : BitVec 7) (len : Nat), MayWrite ch (slotBase x + 0x34) s ∧ (s.slot x).svBusy = false ∧ (s.slot x).cart.isSome = true ∧ len ≤ 64 ∧ len ≤ (s.slot x).svFifo.length ∧ listedOpc opc = true ∧ engineOnly opc = false) ∧
    (∃ (s : State) (ch : Chan) (x : Slot) (opc : BitVec 7), MayWrite ch (slotBase x + 0x34) s ∧ (s.slot x).svBusy = false ∧ engineOnly opc = true) ∧
    (∃ (s : State) (x : Slot) (c : Cart) (o : SvOut) (d : SvDone), (s.slot x).outstanding = some o ∧ (s.slot x).cart = some c ∧ svFree s x = true ∧ c.sv.done = some d ∧ d.toggle = o.toggle ∧ d.opc = o.opc ∧ d.payload = o.payload ∧ d.response = [cOK] ∧ o.opc = 8 ∧ c.sv.rejected = none ∧ (s.slot x).passthrough = none ∧ (((s.slot x).exposed = true ∨ c.sv.exposed = false))) ∧
    (∃ (s : State) (x : Slot) (o : SvOut), (s.slot x).outstanding = some o ∧ svFree s x = true ∧ o.opc = 2 ∧ o.cycle + 10000000 ≤ s.now ∧ o.repeats < 3) ∧
    (∃ (s : State) (x : Slot) (o : SvOut), (s.slot x).outstanding = some o ∧ 3 ≤ o.repeats ∧ o.cycle + svLimit o.opc * 1000000 ≤ s.now ∧ (s.slot x).state ≠ .auth ∧ (s.slot x).svFault = false ∧ s.ev.logOpen = true) ∧
    (∃ (s : State) (x : Slot) (o : SvOut), (s.slot x).outstanding = some o ∧ (s.slot x).svFault = true ∧ (s.slot x).state ≠ .authFailed ∧ o.cycle + 10000000000 ≤ s.now ∧ svFree s x = true) ∧
    (∃ (s : State) (x : Slot) (c : Cart) (o : SvOut), (s.slot x).outstanding = some o ∧ (s.slot x).svFault = true ∧ (s.slot x).state ≠ .authFailed ∧ o.cycle + 10000000000 ≤ s.now ∧ svFree s x = true ∧ s.sp1.master = true ∧ (s.slot x).cart = some c ∧ o.opc = 8 ∧ o.payload.length ≤ 64 ∧ (s.slot x).passthrough = none ∧ c.sv.done = none ∧ (((s.slot x).exposed = true ∨ c.sv.exposed = false))) ∧
    (∃ (s : State) (x : Slot), (s.slot x).cart.isSome = true) ∧
    (∃ (s : State) (x : Slot) (c : Cart), (s.slot x).cart = some c) :=
  ⟨⟨slotA { upA with svFifo := [1, 2, 3] } live, .bar0, .a, 2, 3, by decide +kernel⟩,
    ⟨slotA upA live, .bar0, .a, 4, by decide +kernel⟩,
    ⟨slotA { slotUp (answered 8 cartA) with outstanding := some (asked 8 0) } live, .a, answered 8 cartA, asked 8 0, { toggle := false, opc := 8, payload := [], response := [cOK] }, by decide +kernel⟩,
    ⟨{ slotA { upA with outstanding := some (asked 2 2) } live with now := 10000000 }, .a, asked 2 2, by decide +kernel⟩,
    ⟨{ slotA { upA with outstanding := some (asked 2 3) } live with now := 200000000 }, .a, asked 2 3, by decide +kernel⟩,
    ⟨{ slotA { upA with outstanding := some (asked 2 3), svFault := true } live with now := 10000000000 }, .a, asked 2 3, by decide +kernel⟩,
    ⟨{ slotA { upA with outstanding := some (asked 8 3), svFault := true } live with now := 10000000000 }, .a, cartA, asked 8 3, by decide +kernel⟩,
    ⟨slotA upA live, .a, by decide +kernel⟩,
    ⟨slotA upA live, .a, cartA, by decide +kernel⟩⟩

/-- States and operands that meet the hypotheses of each clause. -/
theorem witness_LinksReplayIdleAndRetrain :
    (∃ (s : State) (x : Slot), ((s.slot x).link = .active ∨ (s.slot x).link = .idle) ∧ (s.slot x).flitFails < 4) ∧
    (∃ (s : State) (x : Slot), ((s.slot x).link = .active ∨ (s.slot x).link = .idle) ∧ 4 ≤ (s.slot x).flitFails) ∧
    (∃ (s : State) (x : Slot), (s.slot x).link = .active ∧ (s.slot x).linkUse + 10000 ≤ s.now) ∧
    (∃ (s : State) (x : Slot), s.now < (s.slot x).linkUse + 10000) ∧
    (∃ (s : State) (x : Slot), (s.slot x).link = .retrain) ∧
    (∃ (s : State) (x : Slot), (s.slot x).link = .retrain ∧ (s.slot x).failedRetrains.length < 2) ∧
    (∃ (s : State) (x : Slot) (a : Nat) (b : Nat), (s.slot x).link = .retrain ∧ (s.slot x).failedRetrains = [a, b] ∧ s.now < a + 1000000000 ∧ s.now < b + 1000000000 ∧ (s.slot x).serves = false ∧ s.duet.format = none ∧ s.ev.logOpen = true ∧ s.pw.state = .active) :=
  ⟨⟨slotA { upA with flitFails := 3 } live, .a, by decide +kernel⟩,
    ⟨slotA { upA with flitFails := 4 } live, .a, by decide +kernel⟩,
    ⟨{ slotA upA live with now := 10000 }, .a, by decide +kernel⟩,
    ⟨{ slotA upA live with now := 9999 }, .a, by decide +kernel⟩,
    ⟨slotA { upA with link := .retrain } live, .a, by decide +kernel⟩,
    ⟨slotA { upA with link := .retrain, failedRetrains := [0] } live, .a, by decide +kernel⟩,
    ⟨{ slotA { inSlot .spare upA with link := .retrain, failedRetrains := [0, 5] } live with now := 999999999 }, .a, 0, 5, by decide +kernel⟩⟩

/-- States and operands that meet the hypotheses of each clause. -/
theorem witness_DuetFormatsCopiesAbortsAndCuts :
    (∃ (s : State) (x : Slot) (c : Cart), s.duet.format = some (.solo x) ∧ (s.slot x).cart = some c ∧ (s.slot x).tested = true ∧ (s.slot x).state = .spare ∧ inhibited s x = false) ∧
    (∃ (s : State) (n : Fin 32), s.dm.ch[n].copy = true ∧ s.duet.pacerAt + s.duet.period.toNat ≤ s.now) ∧
    (∃ (s : State), s.now < s.duet.pacerAt + s.duet.period.toNat) ∧
    (∃ (s : State) (ch : Chan) (v : BitVec 32), MayWrite ch 0x0D04 s ∧ usualField s = true ∧ s.duet.state = .migrateCopy ∧ s.duet.noAbort = false ∧ bit v 9 = false ∧ s.ev.logOpen = true) ∧
    (∃ (s : State) (ch : Chan) (v : BitVec 32), MayWrite ch 0x0D04 s ∧ usual s = true ∧ s.duet.state = .migrateCopy ∧ s.duet.cutPending = false ∧ bit v 8 = false) ∧
    (∃ (s : State) (ch : Chan) (v : BitVec 32), MayWrite ch 0x0D04 s ∧ usual s = true ∧ s.duet.state = .migrateCopy ∧ s.duet.cutPending = true ∧ bit v 8 = false ∧ tagReady s s.duet.source.other = true) :=
  ⟨⟨slotA (inSlot .spare upA) { live with duet := { live.duet with format := some (.solo .a) } }, .a, cartA, by decide +kernel⟩,
    ⟨{ copying one with now := 512 }, 31, by decide +kernel⟩,
    ⟨{ copying one with now := 511 }, by decide +kernel⟩,
    ⟨copying dirty1, .bar0, 0x100, by decide +kernel⟩,
    ⟨copying one, .bar0, 0x200, by decide +kernel⟩,
    ⟨{ copying one with duet := { (copying one).duet with cutPending := true } }, .bar0, 0x200, by decide +kernel⟩⟩

/-- States and operands that meet the hypotheses of each clause. -/
theorem witness_TenantModeAndTokens :
    (∃ (s : State) (ch : Chan) (v : BitVec 32) (c : Ctx), MayWrite ch 0x1014 s ∧ ch ≠ .g5 ∧ tnIndex s ch = c ∧ c ≠ provider ∧ notTest s = true ∧ fld v 4 2 ≠ 0 ∧ ((bit v 0 = true ∨ (s.tenant c).persist = false ∨ toPostedOk s = true))) ∧
    (∃ (s : State) (ch : Chan) (v : BitVec 32) (c : Ctx), MayWrite ch 0x1014 s ∧ ch ≠ .g5 ∧ tnIndex s ch = c ∧ c ≠ provider ∧ notTest s = true ∧ fld v 4 2 ≠ 0 ∧ ((bit v 0 = true ∨ (s.tenant c).persist = false ∨ toPostedOk s = true))) ∧
    (∃ (s : State) (pos : Fin 33) (v : BitVec 32) (c : Ctx), Serves s ∧ pos ≠ 32 ∧ toCtx pos.val = c ∧ notTest s = true ∧ ((bit v 0 = true ∨ (s.tenant c).persist = false ∨ toPostedOk s = true))) ∧
    (∃ (s : State) (ch : Chan) (v : BitVec 32) (c : Ctx), MayWrite ch 0x1014 s ∧ ch ≠ .g5 ∧ tnIndex s ch = c ∧ c ≠ provider ∧ notTest s = true ∧ fld v 4 2 ≠ 0 ∧ bit v 0 = false ∧ (s.tenant c).persist = true ∧ postedOk s = false ∧ s.ev.logOpen = true) ∧
    (∃ (s : State) (ch : Chan), MayWrite ch 0x1014 s ∧ ch ≠ .g5 ∧ tnIndex s ch = provider) ∧
    (∃ (s : State), Serves s) ∧
    (∃ (s : State) (c : Ctx) (at' : Nat), (s.tenant c).modeAt = some at' ∧ at' + 1000000000 ≤ s.now) ∧
    (∃ (s : State) (c : Ctx) (at' : Nat), (s.tenant c).modeAt = some at' ∧ s.now < at' + 1000000000) ∧
    (∃ (s : State), refillDue s = true ∧ (∀ (c : Ctx) n w, (s.tenant c).was = some (n, w) → n ≠ s.now)) ∧
    (∃ (s : State), refillDue s = false) :=
  ⟨⟨one, .bar0, 0x30, 0, by decide +kernel⟩,
    ⟨one, .sp0, 0x11, 0, by decide +kernel⟩,
    ⟨{ one with tn := { one.tn with indexHost := 9 } }, 0, 0x1, 0, by decide +kernel⟩,
    ⟨withTenant { tenant0 with persist := true } live, .bar0, 0x10, 0, by decide +kernel⟩,
    ⟨{ live with tn := { live.tn with indexHost := 0x80 } }, .bar0, by decide +kernel⟩,
    ⟨live, by decide +kernel⟩,
    ⟨{ withTenant { tenant0 with modeAt := some 0 } live with now := 1000000000 }, 0, 0, by decide +kernel⟩,
    ⟨{ withTenant { tenant0 with modeAt := some 0 } live with now := 999999999 }, 0, 0, by decide +kernel⟩,
    ⟨{ withTenant { tenant0 with unlimited := false, rate := 100, cap := 10, tokens := 90 } live with now := 1000, gl := { live.gl with bootEnd := some 0 } }, by decide +kernel, fun c n w => never_was (by decide +kernel) c n w⟩,
    ⟨live, by decide +kernel⟩⟩

/-- States and operands that meet the hypotheses of each clause. -/
theorem witness_StagingOpensAChange :
    (∃ (s : State) (ch : Chan) (n : BitVec 9), MayWrite ch 0x4814 s ∧ ch ≠ .g5 ∧ notTest s = true ∧ s.cs.hostSet = true ∧ s.cs.mgmtSet = true ∧ s.cs.state = .idle ∧ 5 ≤ n.toNat ∧ n.toNat ≤ 300 ∧ n ≠ s.cs.window) ∧
    (∃ (s : State) (ch : Chan) (n : BitVec 9), MayWrite ch 0x4814 s ∧ ch ≠ .g5 ∧ notTest s = true ∧ s.cs.hostSet = true ∧ s.cs.mgmtSet = true ∧ s.cs.state = .idle ∧ 5 ≤ n.toNat ∧ n.toNat ≤ 300 ∧ n ≠ s.cs.window) ∧
    (∃ (s : State) (ch : Chan) (v : Word) (c : Ctx), MayWrite ch 0x102C s ∧ ch ≠ .g5 ∧ tnIndex s ch = c ∧ c ≠ provider ∧ notTest s = true ∧ s.cs.hostSet = true ∧ s.cs.mgmtSet = true ∧ s.cs.state = .idle ∧ v ≠ (s.tenant c).quota) ∧
    (∃ (s : State) (ch : Chan) (n : BitVec 9), MayWrite ch 0x4814 s ∧ ch ≠ .g5 ∧ notTest s = true ∧ n ≠ s.cs.window ∧ s.cs.state = .idle ∧ (s.cs.hostSet && s.cs.mgmtSet) = false) ∧
    (∃ (s : State) (ch : Chan) (n : BitVec 9), MayWrite ch 0x4814 s ∧ ch ≠ .g5 ∧ notTest s = true ∧ n ≠ s.cs.window ∧ s.cs.state = .idle ∧ (s.cs.hostSet && s.cs.mgmtSet) = false) ∧
    (∃ (s : State) (ch : Chan) (n : BitVec 9), MayWrite ch 0x4814 s ∧ ch ≠ .g5 ∧ notTest s = true ∧ n ≠ s.cs.window ∧ s.cs.state = .opened ∧ s.cs.mgmt ≠ ch.mgmt ∧ s.now < windowEnd s) ∧
    (∃ (s : State) (e : Nat), s.cs.busyTill = some e ∧ s.cs.opened = false ∧ s.ev.logOpen = true) ∧
    (∃ (s : State) (e : Nat), s.cs.busyTill = some e ∧ s.cs.opened = true) :=
  ⟨⟨secrets live, .bar0, 5, by decide +kernel⟩,
    ⟨secrets live, .sp0, 300, by decide +kernel⟩,
    ⟨secrets live, .bar0, 7, 0, by decide +kernel⟩,
    ⟨live, .bar0, 5, by decide +kernel⟩,
    ⟨live, .sp0, 5, by decide +kernel⟩,
    ⟨opened0 live, .sp0, 5, by decide +kernel⟩,
    ⟨{ secrets live with cs := { (opened0 live).cs with opened := false, busyTill := some 0 } }, 0, by decide +kernel⟩,
    ⟨{ opened0 live with cs := { (opened0 live).cs with busyTill := some 0 } }, 0, by decide +kernel⟩⟩

/-- States and operands that meet the hypotheses of each clause. -/
theorem witness_CountersignCommitsOrLapses :
    (∃ (s : State) (ch : Chan) (v : Word), MayWrite ch 0x481C s ∧ s.cs.state = .opened ∧ s.now < windowEnd s ∧ s.cs.mgmt ≠ ch.mgmt ∧ s.cs.busyTill = none ∧ wordBytes s.cs.tagLo ++ wordBytes v = changeTag s (counterSecret s) ∧ s.cs.entries.findSome? (fun e => entryCode s s.cs.entries e) = none) ∧
    (∃ (s : State) (ch : Chan) (v : Word), MayWrite ch 0x481C s ∧ s.cs.state = .opened ∧ s.now < windowEnd s ∧ s.cs.mgmt ≠ ch.mgmt ∧ s.cs.busyTill = none ∧ wordBytes s.cs.tagLo ++ wordBytes v ≠ changeTag s (counterSecret s) ∧ s.ev.logOpen = true) ∧
    (∃ (s : State) (ch : Chan), MayWrite ch 0x481C s ∧ s.cs.state = .opened ∧ windowEnd s ≤ s.now) ∧
    (∃ (s : State) (ch : Chan), MayWrite ch 0x481C s ∧ s.cs.state = .opened ∧ windowEnd s ≤ s.now) ∧
    (∃ (s : State) (ch : Chan), MayWrite ch 0x481C s ∧ s.cs.state = .opened ∧ s.now < windowEnd s ∧ s.cs.mgmt = ch.mgmt) ∧
    (∃ (s : State) (ch : Chan) (v : BitVec 32), MayWrite ch 0x4820 s ∧ s.cs.state = .opened ∧ s.now < windowEnd s ∧ s.cs.mgmt = ch.mgmt ∧ bit v 1 = false ∧ s.ev.logOpen = true) ∧
    (∃ (s : State), s.cs.state = .opened ∧ s.cs.openAt + s.cs.chgWindow.toNat * 1000000000 ≤ s.now ∧ s.ev.logOpen = true) ∧
    (∃ (s : State), s.now < s.cs.openAt + s.cs.chgWindow.toNat * 1000000000) ∧
    (∃ (s : State) (ch : Chan) (v : BitVec 32), MayWrite ch 0x4820 s ∧ notTest s = true ∧ bit v 0 = false ∧ ch.mgmt = false ∧ s.cs.hostSet = false ∧ s.cs.hostPend = false ∧ bufferSecret s.cs.secretHost ≠ 0) ∧
    (∃ (s : State) (ch : Chan) (v : BitVec 32), MayWrite ch 0x4820 s ∧ notTest s = true ∧ bit v 0 = false ∧ ch.mgmt = true ∧ s.cs.mgmtSet = false ∧ s.cs.mgmtPend = false ∧ bufferSecret s.cs.secretMgmt ≠ 0) ∧
    (∃ (s : State) (ch : Chan) (v : BitVec 32), MayWrite ch 0x4820 s ∧ notTest s = true ∧ bit v 0 = false ∧ ch.mgmt = false ∧ s.cs.hostSet = true) :=
  ⟨⟨signed0, .sp0, wordOf ((changeTag (opened0 live) 2).drop 4), by decide +kernel, by decide +kernel, by decide +kernel, by decide +kernel, by decide +kernel, tag_halves, by decide +kernel⟩,
    bad_tag,
    ⟨{ opened0 live with now := 30000000000 }, .sp0, by decide +kernel⟩,
    ⟨{ opened0 live with now := 30000000000 }, .bar0, by decide +kernel⟩,
    ⟨opened0 live, .bar0, by decide +kernel⟩,
    ⟨opened0 live, .bar0, 1, by decide +kernel⟩,
    ⟨{ opened0 live with now := 30000000000 }, by decide +kernel⟩,
    ⟨{ opened0 live with now := 29999999999 }, by decide +kernel⟩,
    ⟨{ live with cs := { live.cs with secretHost := live.cs.secretHost.set 0 1 } }, .bar0, 2, by decide +kernel⟩,
    ⟨{ live with cs := { live.cs with secretMgmt := live.cs.secretMgmt.set 0 1 } }, .sp0, 2, by decide +kernel⟩,
    ⟨secrets live, .bar0, 2, by decide +kernel⟩⟩

/-- States and operands that meet the hypotheses of each clause. -/
theorem witness_LedgerTimeSecondsAndMinutes :
    (∃ (s : State), s.pw.state ≠ .off ∧ s.lg.slew = 0) ∧
    (∃ (s : State), s.pw.state ≠ .off ∧ s.lg.slew ≠ 0) ∧
    (∃ (s : State), s.pw.state ≠ .off ∧ s.lg.slew ≠ 0) ∧
    (∃ (s : State), s.pw.state = .off) ∧
    (∃ (s : State) (n : Nat), s.pw.state.clocked = true ∧ 999500000 ≤ n ∧ n ≤ 1000500000) ∧
    (∃ (s : State) (n : Nat), s.pw.state.clocked = true ∧ 999500000 ≤ n ∧ n ≤ 1000500000) ∧
    (∃ (s : State) (n : Nat), s.pw.state.clocked = true ∧ (n < 999500000 ∨ 1000500000 < n) ∧ s.ev.logOpen = true) ∧
    (∃ (s : State) (n : Nat), s.pw.state.clocked = true ∧ (n < 999500000 ∨ 1000500000 < n) ∧ s.ev.logOpen = true) ∧
    (∃ (s : State), ledgerRuns s = true ∧ s.lg.secSeen < s.lg.lgt / (32768 * 4294967296)) ∧
    (∃ (s : State), s.lg.sealEnd = none ∧ MinuteOpen s ∧ ledgerRuns s = true ∧ s.lg.minute < minuteOf s.lg.lgt ∧ framePending s = false ∧ s.lg.merging = false) ∧
    (∃ (s : State), s.lg.sealEnd = none ∧ MinuteOpen s ∧ ledgerRuns s = true ∧ s.lg.minute < minuteOf s.lg.lgt ∧ framePending s = true ∧ 60 * minuteOf s.lg.lgt ≤ s.lg.secSeen) ∧
    (∃ (s : State) (k : Closing), s.pending = [] ∧ s.pw.state.clocked = true ∧ s.lg.closing = some k ∧ k.tick = s.now ∧ k.merge = false ∧ s.gl.ingress = []) ∧
    (∃ (s : State) (u : Frozen) (e : Nat), s.pending = [] ∧ s.pw.state.clocked = true ∧ MinuteOpen s ∧ s.lg.frozen = some u ∧ s.lg.sealEnd = some e ∧ e ≤ s.now + 1 ∧ s.gl.ingress = []) :=
  ⟨⟨live, by decide +kernel⟩,
    ⟨{ live with lg := { live.lg with slew := 5000000 } }, by decide +kernel⟩,
    ⟨{ live with lg := { live.lg with slew := -3 } }, by decide +kernel⟩,
    ⟨inP .off live, by decide +kernel⟩,
    ⟨live, 999500000, by decide +kernel⟩,
    ⟨live, 1000500000, by decide +kernel⟩,
    ⟨live, 999499999, by decide +kernel⟩,
    ⟨live, 1000500001, by decide +kernel⟩,
    ⟨ledger1, by decide +kernel⟩,
    ⟨minute1, by decide +kernel⟩,
    ⟨queuedUnit unit0 { minute1 with lg := { minute1.lg with secSeen := 60 } }, by decide +kernel⟩,
    ⟨ticked, closing0, by decide +kernel⟩,
    ⟨{ live with lg := { live.lg with frozen := some frozen0, sealEnd := some 1 } }, frozen0, 1, by decide +kernel⟩⟩

/-- States and operands that meet the hypotheses of each clause. -/
theorem witness_LedgerRingSyncAndLatch :
    (∃ (s : State) (u : LgUnit) (rest : List LgUnit) (l : Line) (more : List Line) (c : Cart), s.pc.drain = none ∧ s.pc.reconciled = true ∧ Still s ∧ s.md.injArmed = false ∧ s.lg.outq = u :: rest ∧ u.left = l :: more ∧ u.marker = false ∧ s.lg.late = [] ∧ s.duet.state = .soloA ∧ (s.slot .a).serves = true ∧ (s.slot .b).serves = false ∧ (s.slot .a).cart = some c ∧ ringReady s (.a, ringBase c.big + s.lg.writeSeq.toNat % 2 ^ 20) = true ∧ unitRoom s u = true ∧ tagFree s .ledg provider = true ∧ writesRun s = true) ∧
    (∃ (s : State) (u : LgUnit) (rest : List LgUnit) (l : Line) (more : List Line) (ca : Cart) (cb : Cart), s.pc.drain = none ∧ s.pc.reconciled = true ∧ Still s ∧ s.md.injArmed = false ∧ s.lg.outq = u :: rest ∧ u.left = l :: more ∧ u.marker = false ∧ s.lg.late = [] ∧ s.duet.state = .mirror ∧ (s.slot .a).serves = true ∧ (s.slot .b).serves = true ∧ (s.slot .a).cart = some ca ∧ (s.slot .b).cart = some cb ∧ inhibited s .a = true ∧ ringReady s (.b, ringBase cb.big + s.lg.writeSeq.toNat % 2 ^ 20) = true ∧ unitRoom s u = true ∧ tagFree s .ledg provider = true ∧ writesRun s = true) ∧
    (∃ (s : State) (u : LgUnit) (l : Line) (c : Cart), s.pc.drain = none ∧ s.pc.reconciled = true ∧ Still s ∧ s.md.injArmed = false ∧ s.lg.outq = [u] ∧ u.left = [l] ∧ u.whole = [l] ∧ u.marker = true ∧ s.lg.late = [] ∧ s.duet.state = .soloA ∧ (s.slot .a).serves = true ∧ (s.slot .b).serves = false ∧ (s.slot .a).cart = some c ∧ ringReady s (.a, ringBase c.big + s.lg.writeSeq.toNat % 2 ^ 20) = true ∧ unitRoom s u = true ∧ tagFree s .ledg provider = true ∧ writesRun s = true) ∧
    (∃ (s : State), s.lg.outq = [] ∧ s.lg.late = []) ∧
    (∃ (s : State) (u : LgUnit) (rest : List LgUnit), s.lg.outq = u :: rest ∧ u.marker = false ∧ u.left = [] ∧ unitLate s u = false ∧ (∀ v ∈ rest.head?, v.left ≠ [])) ∧
    (∃ (s : State) (ch : Chan) (v : Word), MayWrite ch 0x1438 s ∧ (v - s.lg.consumed).toNat ≤ (s.lg.sealedSeq - s.lg.consumed).toNat) ∧
    (∃ (s : State) (ch : Chan) (v : Word), MayWrite ch 0x1438 s ∧ (s.lg.sealedSeq - s.lg.consumed).toNat < (v - s.lg.consumed).toNat ∧ s.ev.logOpen = true) ∧
    (∃ (s : State) (ch : Chan) (v : Word), MayWrite ch 0x1418 s ∧ sealing s = false ∧ syncTime s v < 2 ^ 32 * 60000 ∧ withinGuard (syncOffset s (syncTime s v)) = true) ∧
    (∃ (s : State) (ch : Chan) (v : Word), MayWrite ch 0x1418 s ∧ syncTime s v < 2 ^ 32 * 60000 ∧ withinGuard (syncOffset s (syncTime s v)) = false ∧ s.lg.sealEnd = none ∧ MinuteOpen s ∧ framePending s = false ∧ s.lg.merging = false ∧ s.ev.logOpen = true) ∧
    (∃ (s : State) (ch : Chan) (v : Word) (k : Closing), MayWrite ch 0x1418 s ∧ syncTime s v < 2 ^ 32 * 60000 ∧ withinGuard (syncOffset s (syncTime s v)) = false ∧ s.lg.sealEnd = none ∧ s.lg.closing = some k ∧ framePending s = false ∧ s.lg.merging = false) ∧
    (∃ (s : State) (k : Closing) (x : Nat), s.pending = [] ∧ s.pw.state.clocked = true ∧ s.lg.closing = some k ∧ k.step = some x ∧ s.gl.ingress = []) ∧
    (∃ (s : State) (ch : Chan) (v : Word), MayWrite ch 0x1418 s ∧ 2 ^ 32 * 60000 ≤ syncTime s v) ∧
    (∃ (s : State) (ch : Chan), MayWrite ch 0x1448 s ∧ sealing s = false) ∧
    (∃ (s : State) (ch : Chan), MayWrite ch 0x1448 s ∧ sealing s = true) :=
  ⟨⟨queuedUnit unit0 (at1s ledger1), unit0, [], 5, [], cartA, by decide +kernel, by decide +kernel, still (by decide +kernel), by decide +kernel, by decide +kernel, by decide +kernel, by decide +kernel, by decide +kernel, by decide +kernel, by decide +kernel, by decide +kernel, by decide +kernel, by decide +kernel, by decide +kernel, by decide +kernel, by decide +kernel⟩,
    ⟨mirrorInh (queuedUnit unit0 (at1s ledger1)), unit0, [], 5, [], cartA, cartA, by decide +kernel, by decide +kernel, still (by decide +kernel), by decide +kernel, by decide +kernel, by decide +kernel, by decide +kernel, by decide +kernel, by decide +kernel, by decide +kernel, by decide +kernel, by decide +kernel, by decide +kernel, by decide +kernel, by decide +kernel, by decide +kernel, by decide +kernel, by decide +kernel⟩,
    ⟨queuedUnit { unit0 with marker := true } (at1s ledger1), { unit0 with marker := true }, 5, cartA, by decide +kernel, by decide +kernel, still (by decide +kernel), by decide +kernel, by decide +kernel, by decide +kernel, by decide +kernel, by decide +kernel, by decide +kernel, by decide +kernel, by decide +kernel, by decide +kernel, by decide +kernel, by decide +kernel, by decide +kernel, by decide +kernel, by decide +kernel⟩,
    ⟨ledger1, by decide +kernel⟩,
    ⟨queuedUnit { unit0 with left := [] } ledger1, { unit0 with left := [] }, [], by decide +kernel⟩,
    ⟨{ live with lg := { live.lg with sealedSeq := 5 } }, .bar0, 5, by decide +kernel⟩,
    ⟨{ live with lg := { live.lg with sealedSeq := 5 } }, .bar0, 6, by decide +kernel⟩,
    ⟨{ live with lg := { live.lg with syncLo := 250 } }, .bar0, 0, by decide +kernel⟩,
    ⟨{ live with lg := { live.lg with syncLo := 251 } }, .bar0, 0, by decide +kernel⟩,
    ⟨ticked, .bar0, 0, closing0, by decide +kernel⟩,
    ⟨{ live with lg := { live.lg with closing := some { closing0 with step := some 77 } } }, { closing0 with step := some 77 }, 77, by decide +kernel⟩,
    ⟨live, .bar0, 60000, by decide +kernel⟩,
    ⟨live, .bar0, by decide +kernel⟩,
    ⟨{ live with lg := { live.lg with sealEnd := some 5 } }, .bar0, by decide +kernel⟩⟩

/-- States and operands that meet the hypotheses of each clause. -/
theorem witness_DmaChannelCommands :
    (∃ (s : State) (ch : Chan) (n : Fin 32) (v : Word), MayWrite ch (chBase n) s ∧ startOk s n = true ∧ (v ||| 1) &&& 0x1F = 1) ∧
    (∃ (s : State) (ch : Chan) (n : Fin 32) (v : Word), MayWrite ch (chBase n) s ∧ startOk s n = true ∧ (v ||| 1) &&& 0x1F = 1) ∧
    (∃ (s : State) (ch : Chan) (n : Fin 32) (v : Word), MayWrite ch (chBase n) s ∧ (v ||| 1) &&& 0x1F = 1 ∧ startOk s n = false ∧ s.ev.logOpen = true) ∧
    (∃ (s : State) (ch : Chan) (n : Fin 32) (v : Word), MayWrite ch (chBase n) s ∧ (v ||| 1) &&& 0x1F = 1 ∧ startOk s n = false ∧ s.ev.logOpen = true) ∧
    (∃ (s : State) (ch : Chan) (n : Fin 32) (v : Word), MayWrite ch (chBase n) s ∧ (v ||| 2) &&& 0x1F = 2 ∧ ((s.dm.ch[n].state = .active ∨ s.dm.ch[n].state = .wait ∨ s.dm.ch[n].state = .fetch)) ∧ allRead s.dm.ch[n] = false ∧ s.dm.ch[n].abortAt ≠ some s.now) ∧
    (∃ (s : State) (ch : Chan) (n : Fin 32) (v : Word), MayWrite ch (chBase n) s ∧ (v ||| 2) &&& 0x1F = 2 ∧ ((s.dm.ch[n].state = .barrier ∨ s.dm.ch[n].state = .coda)) ∧ s.dm.ch[n].abortAt ≠ some s.now) ∧
    (∃ (s : State) (ch : Chan) (n : Fin 32) (v : Word), MayWrite ch (chBase n) s ∧ (v ||| 2) &&& 0x1F = 2 ∧ fermataOk s n = true ∧ s.dm.ch[n].abortAt = some s.now) ∧
    (∃ (s : State) (ch : Chan) (n : Fin 32) (v : Word), MayWrite ch (chBase n) s ∧ (v ||| 2) &&& 0x1F = 2 ∧ s.dm.ch[n].state = .starved ∧ s.dm.ch[n].abortAt ≠ some s.now) ∧
    (∃ (s : State) (n : Fin 32), s.dm.ch[n].state = .holding ∧ s.dm.ch[n].beats = []) ∧
    (∃ (s : State) (n : Fin 32), s.dm.ch[n].beats ≠ []) ∧
    (∃ (s : State) (ch : Chan) (n : Fin 32) (v : Word), MayWrite ch (chBase n) s ∧ (v ||| 4) &&& 0x1F = 4 ∧ resumeOk s n = true ∧ s.dm.ch[n].abortAt ≠ some s.now) ∧
    (∃ (s : State) (ch : Chan) (n : Fin 32) (v : Word), MayWrite ch (chBase n) s ∧ (v ||| 4) &&& 0x1F = 4 ∧ resumeOk s n = true ∧ s.dm.ch[n].abortAt ≠ some s.now) ∧
    (∃ (s : State) (ch : Chan) (n : Fin 32) (v : Word), MayWrite ch (chBase n) s ∧ (v ||| 8) &&& 0x1F = 8 ∧ ((s.dm.ch[n].state = .fetch ∨ s.dm.ch[n].state = .starved ∨ s.dm.ch[n].state = .halted)) ∧ s.dm.ch[n].fermataAt ≠ some s.now ∧ reservedCh s n = false) ∧
    (∃ (s : State) (ch : Chan) (n : Fin 32) (v : Word) (d : Desc), MayWrite ch (chBase n) s ∧ (v ||| 8) &&& 0x1F = 8 ∧ s.dm.ch[n].state = .active ∧ s.dm.ch[n].desc = some d ∧ s.dm.ch[n].beats = []) ∧
    (∃ (s : State) (ch : Chan) (n : Fin 32) (v : Word), MayWrite ch (chBase n) s ∧ (v ||| 16) &&& 0x1F = 16 ∧ kickOk s n = true) ∧
    (∃ (s : State) (ch : Chan) (n : Fin 32), MayWrite ch (chBase n + 0x38) s ∧ s.dm.ch[n].paced = true ∧ s.dm.ch[n].reqSel = 0) ∧
    (∃ (s : State) (ch : Chan), MayWrite ch 0x1808 s) ∧
    (∃ (s : State), s.pw.state.clocked = true) :=
  ⟨⟨live, .bar0, 0, 1, by decide +kernel⟩,
    ⟨live, .g5, 15, 0, by decide +kernel⟩,
    ⟨inCh { state := .active } live, .bar0, 0, 1, by decide +kernel⟩,
    ⟨live, .bar0, 31, 1, by decide +kernel⟩,
    ⟨inCh (running0 descHM) one, .bar0, 0, 2, by decide +kernel⟩,
    ⟨inCh { running0 descHM with state := .coda } one, .bar0, 0, 2, by decide +kernel⟩,
    ⟨inCh { running0 descHM with abortAt := some 0 } one, .bar0, 0, 2, by decide +kernel⟩,
    ⟨inCh { running0 descHM with state := .starved } one, .bar0, 0, 2, by decide +kernel⟩,
    ⟨inCh { running0 descHM with state := .holding } one, 0, by decide +kernel⟩,
    ⟨inCh { running0 descHM with state := .holding, beats := [beat0] } one, 0, by decide +kernel⟩,
    ⟨inCh { running0 descHM with state := .paused } one, .bar0, 0, 4, by decide +kernel⟩,
    ⟨inCh { state := .paused } one, .bar0, 0, 4, by decide +kernel⟩,
    ⟨inCh { state := .halted } one, .bar0, 0, 8, by decide +kernel⟩,
    ⟨inCh (running0 descHM) one, .bar0, 0, 8, descHM, by decide +kernel⟩,
    ⟨inCh { state := .starved } one, .bar0, 0, 16, by decide +kernel⟩,
    ⟨inCh { running0 descHM with state := .paused, burstOpen := false, paced := true } one, .bar0, 0, by decide +kernel⟩,
    ⟨inCh { state := .starved, paced := true, pending := 65530 } one, .bar0, by decide +kernel⟩,
    ⟨inCh { paced := true, reqSel := 4 } live, by decide +kernel⟩⟩

/-- States and operands that meet the hypotheses of each clause. -/
theorem witness_DmaFetchesBurstsAndBeats :
    (∃ (s : State) (n : Fin 32) (host : Line) (d : Desc), s.dm.ch[n].state = .fetch ∧ s.pc.drain = none ∧ s.dm.ch[n].format = true ∧ bit s.dm.ch[n].cur 0 = false ∧ hasCredit s .nonPosted = true ∧ d = descG7 (lineBytes host) ∧ bit d.ctrl 31 = true ∧ nextOk d = true ∧ shapeOk s.dm.ch[n].copy (lineBytes host) d = true ∧ selfRange s d = none ∧ selfNext s d = false ∧ fetchCode s d = none) ∧
    (∃ (s : State) (n : Fin 32) (host : Line), s.dm.ch[n].state = .fetch ∧ s.pc.drain = none ∧ s.dm.ch[n].format = true ∧ bit s.dm.ch[n].cur 0 = false ∧ hasCredit s .nonPosted = true ∧ bit (descG7 (lineBytes host)).ctrl 31 = false) ∧
    (∃ (s : State) (n : Fin 32) (host : Line) (d : Desc), s.dm.ch[n].state = .fetch ∧ s.pc.drain = none ∧ s.dm.ch[n].format = true ∧ bit s.dm.ch[n].cur 0 = false ∧ hasCredit s .nonPosted = true ∧ d = descG7 (lineBytes host) ∧ bit d.ctrl 31 = true ∧ nextOk d = false ∧ s.dm.ch[n].group = 0) ∧
    (∃ (s : State) (n : Fin 32) (host : Line) (d : Desc), s.dm.ch[n].state = .fetch ∧ s.pc.drain = none ∧ s.dm.ch[n].format = true ∧ bit s.dm.ch[n].cur 0 = false ∧ hasCredit s .nonPosted = true ∧ d = descG7 (lineBytes host) ∧ bit d.ctrl 31 = true ∧ nextOk d = true ∧ shapeOk s.dm.ch[n].copy (lineBytes host) d = false ∧ s.dm.ch[n].group = 0 ∧ s.dm.ch[n].beats = []) ∧
    (∃ (s : State) (n : Fin 32), wantsBurst s.dm.ch[n] = true ∧ s.pc.drain = none ∧ s.dm.ch[n].copy = false ∧ isLevel s.dm.ch[n].reqSel.toNat = false ∧ 0 < s.dm.ch[n].pending ∧ unsealed s s.dm.ch[n] = false) ∧
    (∃ (s : State) (n : Fin 32), wantsBurst s.dm.ch[n] = true ∧ s.dm.ch[n].copy = false ∧ isLevel s.dm.ch[n].reqSel.toNat = false ∧ s.dm.ch[n].pending = 0) ∧
    (∃ (s : State) (n : Fin 32) (d : Desc), s.pc.drain = none ∧ Settled s ∧ granted s = some n ∧ s.dm.ch[n].desc = some d ∧ d.srcSpace = 0 ∧ d.dstSpace ≠ 5 ∧ beatCode s s.dm.ch[n] d (beatLen s s.dm.ch[n] d) = none) ∧
    (∃ (s : State) (n : Fin 32) (d : Desc) (code : BitVec 8), s.pc.drain = none ∧ Settled s ∧ granted s = some n ∧ s.dm.ch[n].desc = some d ∧ s.dm.ch[n].beats = [] ∧ beatCode s s.dm.ch[n] d (beatLen s s.dm.ch[n] d) = some code) ∧
    (∃ (s : State), Settled s ∧ granted s = none) ∧
    (∃ (s : State) (n : Fin 32) (b : Beat) (rest : List Beat) (d : Desc) (data : Line), s.pc.drain = none ∧ s.dm.ch[n].state = .active ∧ s.dm.ch[n].beats = b :: rest ∧ s.dm.ch[n].desc = some d ∧ d.dstSpace = 0 ∧ b.data = some data ∧ b.dropped = false ∧ s.dm.ch[n].endCode = none ∧ LinkOpen s) ∧
    (∃ (s : State) (n : Fin 32) (b : Beat) (rest : List Beat) (d : Desc), s.pc.drain = none ∧ s.dm.ch[n].state = .active ∧ s.dm.ch[n].beats = b :: rest ∧ s.dm.ch[n].desc = some d ∧ d.dstSpace = 5 ∧ b.data = none ∧ b.cell = none ∧ b.dropped = false ∧ b.len ≤ txRoom s.sp0 ∧ d.dst = 0) :=
  ⟨⟨inCh { state := .fetch, cur := 0x4000 } one, 0, lineHM, descHM, by decide +kernel⟩,
    ⟨inCh { state := .fetch, cur := 0x4000 } one, 0, descLine 0x10170000 64 0x1000000 0 0, by decide +kernel⟩,
    ⟨inCh { state := .fetch, cur := 0x4000 } one, 0, descLine 0x80170000 64 0x1000000 0 2, descG7 (lineBytes (descLine 0x80170000 64 0x1000000 0 2)), by decide +kernel⟩,
    ⟨inCh { state := .fetch, cur := 0x4000 } one, 0, descLine 0x90160000 64 0x1000000 0 0, descG7 (lineBytes (descLine 0x90160000 64 0x1000000 0 0)), by decide +kernel⟩,
    ⟨inCh { running0 descHM with state := .wait, paced := true, burstOpen := false, pending := 1 } one, 0, by decide +kernel⟩,
    ⟨inCh { running0 descHM with state := .wait, paced := true, burstOpen := false } one, 0, by decide +kernel⟩,
    ⟨at1s (inCh (running0 descHM) one), 0, descHM, by decide +kernel, settled (by decide +kernel), by decide +kernel, by decide +kernel, by decide +kernel, by decide +kernel, by decide +kernel⟩,
    ⟨at1s (inCh (running0 descHM) (withTenant { tenant0 with lock := .writeLock } one)), 0, descHM, cPERMISSION, by decide +kernel, settled (by decide +kernel), by decide +kernel, by decide +kernel, by decide +kernel, by decide +kernel⟩,
    ⟨at1s live, settled (by decide +kernel), by decide +kernel⟩,
    ⟨inCh { running0 descHH with beats := [beat0], issued := 64 } one, 0, beat0, [], descHH, 5, by decide +kernel, by decide +kernel, by decide +kernel, by decide +kernel, by decide +kernel, by decide +kernel, by decide +kernel, by decide +kernel, link_open (by decide +kernel)⟩,
    ⟨inCh { running0 { descHH with dstSpace := 5, dst := 0 } with beats := [{ beat0 with data := none, dst := 0 }], issued := 64 } one, 0, { beat0 with data := none, dst := 0 }, [], { descHH with dstSpace := 5, dst := 0 }, by decide +kernel⟩⟩

/-- States and operands that meet the hypotheses of each clause. -/
theorem witness_DmaBarriersCodasAndErrors :
    (∃ (s : State) (n : Fin 32) (d : Desc), s.dm.ch[n].desc = some d ∧ s.dm.ch[n].state = .barrier ∧ s.pc.drain = none ∧ barrierMet s n d = true) ∧
    (∃ (s : State) (n : Fin 32) (d : Desc), s.dm.ch[n].desc = some d ∧ s.dm.ch[n].state = .barrier ∧ s.pc.drain = none ∧ barrierMet s n d = true) ∧
    (∃ (s : State) (n : Fin 32) (d : Desc), s.dm.ch[n].desc = some d ∧ barrierMet s n d = false) ∧
    (∃ (s : State) (n : Fin 32) (d : Desc), s.dm.ch[n].desc = some d ∧ s.dm.ch[n].state = .coda ∧ s.pc.drain = none ∧ s.dm.ch[n].codaEn = true ∧ bit s.dm.ch[n].cur 0 = false ∧ s.dm.ch[n].copy = false ∧ d.g5 = false ∧ reservedCh s n = false ∧ s.dm.ch[n].haltNext = false ∧ s.dm.ch[n].pauseNext = false ∧ s.dm.ch[n].idleNext = false ∧ s.dm.ch[n].abortLate = false ∧ LinkOpen s) ∧
    (∃ (s : State) (n : Fin 32) (d : Desc), s.dm.ch[n].desc = some d ∧ s.dm.ch[n].state ≠ .coda) ∧
    (∃ (s : State) (n : Fin 32), s.dm.ch[n].state = .fetch ∧ bit s.dm.ch[n].cur 0 = false ∧ s.dm.ch[n].group = 0 ∧ s.pc.drain = none) ∧
    (∃ (s : State) (n : Fin 32), s.dm.ch[n].state = .fetch ∧ bit s.dm.ch[n].cur 0 = false ∧ 1 ≤ s.dm.ch[n].group.toNat ∧ s.dm.ch[n].group.toNat ≤ 4 ∧ s.pc.drain = none ∧ (∀ m : Fin 32, s.dm.ch[m].group = s.dm.ch[n].group → s.dm.ch[m].desc = none ∧ s.dm.ch[m].state ≠ .barrier ∧ s.dm.ch[m].state ≠ .coda)) ∧
    (∃ (s : State) (n : Fin 32), s.dm.ch[n].state = .fetch ∧ bit s.dm.ch[n].cur 0 = false ∧ s.dm.ch[n].group = 0 ∧ s.pc.drain = none) ∧
    (∃ (s : State) (n : Fin 32), hostReadOut s.dm.ch[n] = false) :=
  ⟨⟨inCh { running0 descHM with state := .barrier } one, 0, descHM, by decide +kernel⟩,
    ⟨inCh { running0 descHM with state := .barrier } { dirty1 with pc := { dirty1.pc with slots := [{ draining.slot0 with chans := [0] }] } }, 0, descHM, by decide +kernel⟩,
    ⟨inCh { running0 descHM with state := .barrier } { dirty1 with pc := { dirty1.pc with slots := [{ draining.slot0 with chans := [0], verified := true }] } }, 0, descHM, by decide +kernel⟩,
    ⟨inCh { running0 descHM with state := .coda } one, 0, descHM, by decide +kernel, by decide +kernel, by decide +kernel, by decide +kernel, by decide +kernel, by decide +kernel, by decide +kernel, by decide +kernel, by decide +kernel, by decide +kernel, by decide +kernel, by decide +kernel, link_open (by decide +kernel)⟩,
    ⟨inCh (running0 descHM) one, 0, descHM, by decide +kernel⟩,
    ⟨inCh { state := .fetch, cur := 0x4000 } one, 0, by decide +kernel⟩,
    ⟨inCh { state := .fetch, cur := 0x4000, group := 4 } one, 0, by decide +kernel⟩,
    ⟨inCh { state := .fetch, cur := 0x4000 } one, 0, by decide +kernel⟩,
    ⟨live, 3, by decide +kernel⟩⟩

/-- States and operands that meet the hypotheses of each clause. -/
theorem witness_KeepStoreFillsReadsAndWrites :
    (∃ (s : State) (ch : Chan), MayWrite ch 0x3810 s ∧ notTest s = true ∧ wdataCode s ch.mgmt = none ∧ (ksAddr s ch.mgmt) % 256 < 252 ∧ s.ks.owner = .free) ∧
    (∃ (s : State) (ch : Chan), MayWrite ch 0x3810 s ∧ notTest s = true ∧ userPage (ksAddr s ch.mgmt / 256) = false ∧ s.ev.logOpen = true) ∧
    (∃ (s : State) (ch : Chan), MayWrite ch 0x380C s ∧ userPage (ksAddr s ch.mgmt / 256) = true ∧ s.ks.busy = none ∧ s.ks.weak = [] ∧ s.ks.damaged = []) ∧
    (∃ (s : State) (ch : Chan) (v : Word), MayWrite ch 0x3804 s ∧ notTest s = true ∧ ownsFill s ch.mgmt = true ∧ v &&& 0x302 = 0) ∧
    (∃ (s : State) (ch : Chan) (v : Word), MayWrite ch 0x3804 s ∧ notTest s = true ∧ ownsFill s ch.mgmt = true ∧ v &&& 0x300 = 0) ∧
    (∃ (s : State), (s.ks.owner = .host ∨ s.ks.owner = .sp0) ∧ s.ks.formed = false ∧ s.ks.fillAt + 10000000 ≤ s.now ∧ s.ev.logOpen = true) ∧
    (∃ (s : State) (w : PageWrite), nextWrite s = some w ∧ (w.page < 0x40 ∨ 0xC0 < w.page) ∧ (∀ e ∈ w.bytes, e.1 < 256) ∧ rsvdNj s + eKs ≤ s.pc.availNj ∧ s.ks.damaged = [] ∧ s.ks.weak = [] ∧ (∀ n : Fin 32, s.dm.ch[n].endCode ≠ some cUNCORR_TARGET)) ∧
    (∃ (s : State) (w : PageWrite), nextWrite s = some w ∧ s.pc.availNj < rsvdNj s + eKs ∧ (∀ n : Fin 32, s.dm.ch[n].endCode ≠ some cUNCORR_TARGET)) ∧
    (∃ (s : State) (w : PageWrite), s.ks.busy = some w ∧ ((w.kind = .totals ∨ w.kind = .bootRing ∨ w.kind = .settings ∨ w.kind = .fill)) ∧ s.ks.applying = [] ∧ s.ks.restoreApply = none) ∧
    (∃ (s : State) (w : PageWrite), s.ks.busy = some w ∧ w.kind = .secretHost ∧ ofLe (((pageBytes s.ks.mem 0).drop 0x80).take 4) = 0xA5C30001) ∧
    (∃ (s : State) (w : PageWrite) (n : Word), s.ks.busy = some w ∧ w.kind = .acceptCommit ∧ s.cs.state = .committing ∧ s.cs.entries = [⟨0x4814, 0x1FF, n⟩] ∧ s.cs.newKeys = [] ∧ s.ks.queue = [] ∧ s.ev.logOpen = true) ∧
    (∃ (s : State), s.ks.busy = none) :=
  ⟨⟨{ live with ks := { live.ks with addrHost := 0xD000 } }, .bar0, by decide +kernel⟩,
    ⟨{ live with ks := { live.ks with addrHost := 0xC000 } }, .bar0, by decide +kernel⟩,
    ⟨live, .bar0, by decide +kernel⟩,
    ⟨{ live with ks := { live.ks with owner := .host, page := 0xD0 } }, .bar0, 1, by decide +kernel⟩,
    ⟨{ live with ks := { live.ks with owner := .sp0, page := 0xD0 } }, .sp0, 2, by decide +kernel⟩,
    ⟨{ live with now := 10000000, ks := { live.ks with owner := .host, page := 0xD0 } }, by decide +kernel⟩,
    ⟨{ one with ks := { one.ks with queue := [ksw .bootRing] } }, ksw .bootRing, by decide +kernel⟩,
    ⟨{ live with ks := { live.ks with queue := [ksw .bootRing] } }, ksw .bootRing, by decide +kernel⟩,
    ⟨ksBusy (ksw .totals) live, ksw .totals, by decide +kernel⟩,
    ⟨ksBusy { ksw .secretHost with page := 0 } { live with ks := { live.ks with mem := [(0x80, 1), (0x82, 0xC3), (0x83, 0xA5)] } }, { ksw .secretHost with page := 0 }, by decide +kernel⟩,
    ⟨ksBusy { ksw .acceptCommit with chg := 4096 } { opened0 live with cs := { (opened0 live).cs with state := .committing } }, { ksw .acceptCommit with chg := 4096 }, 60, by decide +kernel⟩,
    ⟨live, by decide +kernel⟩⟩

/-- States and operands that meet the hypotheses of each clause. -/
theorem witness_SlaveFramesPollReadWriteAndReject :
    (∃ (s : State) (p : Port) (sdi : List Bool), takesFrames s p = true ∧ sdi.length = 8 ∧ bitsNat sdi % 64 ≠ 63 ∧ (s.sp p).crcEn = false) ∧
    (∃ (s : State), takesFrames s .p0 = true ∧ Serves s ∧ s.sp0.crcEn = false ∧ s.sp0.bulk = false ∧ s.sp0.page = 0x44 ∧ s.sp0.copy = none) ∧
    (∃ (s : State) (data : List Bool), takesFrames s .p0 = true ∧ Serves s ∧ s.ev.logOpen = true ∧ s.sp0.crcEn = false ∧ s.sp0.bulk = false ∧ s.sp0.page = 0x44 ∧ s.sp0.copy = none ∧ data.length = 32) ∧
    (∃ (s : State) (p : Port) (sdi : List Bool) (tog : Bool) (sdo : List Bool) (i : Fin 63) (data : List Bool), takesFrames s p = true ∧ sdi = frameBits false tog i data ∧ data.length = 8 ∧ (s.sp p).crcEn = false ∧ (s.sp p).bulk = false ∧ (s.sp p).copy = some ⟨tog, sdi, sdo⟩) ∧
    (∃ (s : State) (p : Port), takesFrames s p = true) :=
  ⟨⟨live, .p0, List.replicate 8 false, by decide +kernel⟩,
    ⟨{ live with sp0 := { live.sp0 with page := 0x44 } }, by decide +kernel⟩,
    ⟨{ live with sp0 := { live.sp0 with page := 0x44 } }, List.replicate 32 false, by decide +kernel⟩,
    ⟨{ live with sp0 := { live.sp0 with copy := some ⟨true, frameBits false true 7 (List.replicate 8 true), []⟩ } }, .p0, frameBits false true 7 (List.replicate 8 true), true, [], 7, List.replicate 8 true, by decide +kernel⟩,
    ⟨live, .p0, by decide +kernel⟩⟩

/-- States and operands that meet the hypotheses of each clause. -/
theorem witness_SerialMastersAndFifos :
    (∃ (s : State) (p : Port) (m : Bool), (s.sp p).modeNext = some m ∧ (s.sp p).txn = none ∧ (s.sp p).inFrame = false ∧ (s.sp p).heldSel = none) ∧
    (∃ (s : State) (p : Port) (m : Bool), (s.sp p).modeNext = some m ∧ (s.sp p).txn.isSome = true) ∧
    (∃ (s : State) (ch : Chan) (p : Port) (v : BitVec 32), MayWrite ch (spBase p + 0x20) s ∧ notTest s = true ∧ (s.sp p).master = true ∧ (s.sp p).txn = none ∧ (s.sp p).heldSel = none ∧ 1 ≤ fld v 0 13 ∧ fld v 0 13 ≤ 4096 ∧ bit v 21 = false) ∧
    (∃ (s : State) (ch : Chan) (p : Port) (v : BitVec 32), MayWrite ch (spBase p + 0x20) s ∧ notTest s = true ∧ (s.sp p).master = true ∧ (s.sp p).txn = none ∧ (s.sp p).heldSel = none ∧ 1 ≤ fld v 0 13 ∧ fld v 0 13 ≤ 4096 ∧ bit v 21 = false) ∧
    (∃ (s : State) (p : Port) (x : SpTx) (b : Byte) (rest : List Byte) (sdo : List Bool), (s.sp p).txn = some x ∧ x.len = 8 ∧ x.autoSel = false ∧ x.noRx = false ∧ (s.sp p).tx = b :: rest ∧ (s.sp p).rx.length < 256 ∧ sdo.length = 8) ∧
    (∃ (s : State) (p : Port) (x : SpTx), (s.sp p).txn = some x ∧ x.autoSel = false ∧ 0 < x.len ∧ (s.sp p).tx = [] ∧ x.start + 10000000 ≤ s.now) ∧
    (∃ (s : State) (p : Port) (x : SpTx), (s.sp p).txn = some x ∧ s.now < x.start + 10000000) ∧
    (∃ (s : State) (ch : Chan) (p : Port) (v : BitVec 32), MayWrite ch (spBase p + 0x18) s ∧ notTest s = true ∧ (s.sp p).txn = none ∧ (s.sp p).inFrame = false ∧ bit v 24 = false ∧ 1 ≤ fld v 16 8 ∧ 1 ≤ fld v 0 8) ∧
    (∃ (s : State) (ch : Chan) (p : Port) (v : BitVec 32), MayWrite ch (spBase p + 0x18) s ∧ notTest s = true ∧ (s.sp p).txn = none ∧ (s.sp p).inFrame = false ∧ bit v 24 = false ∧ 1 ≤ fld v 16 8 ∧ 1 ≤ fld v 0 8) ∧
    (∃ (s : State) (ch : Chan) (p : Port) (v : BitVec 32), MayWrite ch (spBase p + 0x18) s ∧ notTest s = true ∧ (s.sp p).txn = none ∧ (s.sp p).inFrame = false ∧ bit v 25 = false ∧ 1 ≤ fld v 16 8 ∧ 1 ≤ fld v 0 8) ∧
    (∃ (s : State) (p : Port), MayWrite .bar0 (spBase p + 0x10) s ∧ (s.sp p).tx.length + 4 ≤ 256) ∧
    (∃ (s : State) (p : Port), MayWrite .bar0 (spBase p + 0x10) s ∧ 4 ≤ (s.sp p).rx.length) ∧
    (∃ (s : State), MayWrite .sp0 0x3410 s ∧ s.sp0.rx.length + 4 ≤ 256) :=
  ⟨⟨{ live with sp0 := { live.sp0 with modeNext := some true } }, .p0, true, by decide +kernel⟩,
    ⟨{ live with sp1 := { live.sp1 with modeNext := some false, txn := some ⟨1, false, 0, false, false, 0⟩ } }, .p1, false, by decide +kernel⟩,
    ⟨live, .bar0, .p1, 0x1000, by decide +kernel⟩,
    ⟨live, .bar0, .p1, 1, by decide +kernel⟩,
    ⟨{ live with sp1 := { live.sp1 with tx := [0x55], txn := some ⟨8, false, 0, false, false, 0⟩ } }, .p1, ⟨8, false, 0, false, false, 0⟩, 0x55, [], List.replicate 8 true, by decide +kernel⟩,
    ⟨{ live with sp1 := { live.sp1 with txn := some ⟨8, false, 0, false, false, 0⟩ }, now := 10000000 }, .p1, ⟨8, false, 0, false, false, 0⟩, by decide +kernel⟩,
    ⟨{ live with sp1 := { live.sp1 with txn := some ⟨8, false, 0, false, false, 0⟩ }, now := 9999999 }, .p1, ⟨8, false, 0, false, false, 0⟩, by decide +kernel⟩,
    ⟨live, .bar0, .p1, 0x00010001, by decide +kernel⟩,
    ⟨live, .bar0, .p0, 0x00400040, by decide +kernel⟩,
    ⟨live, .bar0, .p1, 0x00010001, by decide +kernel⟩,
    ⟨live, .p1, by decide +kernel⟩,
    ⟨{ live with sp0 := { live.sp0 with rx := [1, 2, 3, 4] } }, .p0, by decide +kernel⟩,
    ⟨live, by decide +kernel⟩⟩

/-- States and operands that meet the hypotheses of each clause. -/
theorem witness_EventViewsRoutesAndTraceReads :
    (∃ (s : State) (ch : Chan), MayWrite ch 0x440C s) ∧
    (∃ (s : State) (ch : Chan) (v : Word), MayWrite ch 0x4408 s ∧ (lo32 s.ev.wrSeq - v).toNat ≤ 1024 ∧ (lo32 s.ev.wrSeq - v).toNat ≤ s.ev.wrSeq) ∧
    (∃ (s : State) (ch : Chan) (v : Word), MayWrite ch 0x4408 s ∧ 1024 < (lo32 s.ev.wrSeq - v).toNat ∧ s.ev.logOpen = true) ∧
    (∃ (s : State) (ch : Chan) (e : EvEntry), MayWrite ch 0x4460 s ∧ s.ev.logOpen = true ∧ viewEntry s (evView s ch) = some e) ∧
    (∃ (s : State) (ch : Chan), MayWrite ch 0x4418 s) ∧
    (∃ (s : State) (ch : Chan), MayWrite ch 0x4424 s ∧ s.ev.logOpen = true ∧ bit s.ev.traceEn 6 = true) ∧
    (∃ (s : State) (v : BitVec 32), MayWrite .sp0 0x4430 s ∧ bit v 31 = false) ∧
    (∃ (s : State), Serves s ∧ s.sp1.master = false ∧ s.ev.logOpen = true) ∧
    (∃ (s : State), MayWrite .bar0 0x4438 s ∧ s.ev.logOpen = true ∧ s.ev.selCart = false) ∧
    (∃ (s : State), Serves s) ∧
    (∃ (s : State) (n : Fin 128) (e : EvEntry) (rest : List EvEntry), Serves s ∧ (s.tenant (ofTenant n)).queue = e :: rest) :=
  ⟨⟨{ live with ev := { live.ev with wrSeq := 5 } }, .bar0, by decide +kernel⟩,
    ⟨{ live with ev := { live.ev with wrSeq := 5 } }, .bar0, 2, by decide +kernel⟩,
    ⟨{ live with ev := { live.ev with wrSeq := 5 } }, .bar0, 6, by decide +kernel⟩,
    ⟨{ live with ev := { live.ev with wrSeq := 1, log := [ev0] } }, .bar0, ev0, by decide +kernel⟩,
    ⟨{ live with ev := { live.ev with wrSeq := 5 } }, .bar0, by decide +kernel⟩,
    ⟨{ live with ev := { live.ev with wrSeq := 5 } }, .bar0, by decide +kernel⟩,
    ⟨live, 3, by decide +kernel⟩,
    ⟨{ live with sp1 := { live.sp1 with master := false } }, by decide +kernel⟩,
    ⟨live, by decide +kernel⟩,
    ⟨live, by decide +kernel⟩,
    ⟨withTenant { tenant0 with queue := [ev0] } live, 0, ev0, [], by decide +kernel⟩⟩

/-- States and operands that meet the hypotheses of each clause. -/
theorem witness_EventsAreLoggedSignalledAndSpilled :
    (∃ (s : State) (e : EvEntry) (rest : List EvEntry), s.pw.state.clocked = true ∧ s.ev.logOpen = true ∧ s.ev.intake = e :: rest) ∧
    (∃ (s : State), s.ev.intake = []) ∧
    (∃ (s : State) (i : Fin 192), s.pw.state.clocked = true ∧ 128 ≤ i.val ∧ s.hl.pfVec[i].cause = true ∧ s.hl.pfVec[i].last = none ∧ msixOn s .pf = true ∧ s.hl.pfVec[i].masked = false ∧ fnMasked s .pf = false ∧ LinkOpen s) ∧
    (∃ (s : State) (i : Fin 192), s.pw.state.clocked = true ∧ 128 ≤ i.val ∧ s.hl.pfVec[i].cause = true ∧ s.hl.pfVec[i].last = none ∧ msixOn s .pf = true ∧ s.hl.pfVec[i].masked = true) ∧
    (∃ (s : State) (v : Fin 128), s.pw.state.clocked = true ∧ s.hl.vfVec[v].cause = true ∧ s.hl.vfVec[v].last = none ∧ msixOn s (.vf v) = true ∧ s.hl.vfVec[v].masked = false ∧ fnMasked s (.vf v) = false ∧ LinkOpen s) ∧
    (∃ (s : State) (c : Cart) (cl : Nat), booting s = false ∧ s.pw.state.clocked = true ∧ s.pc.drain = none ∧ s.ev.logOpen = true ∧ s.ev.traceScan = false ∧ spillWaits s = false ∧ tagFree s .int provider = true ∧ s.ev.spillLost = 0 ∧ 3 ≤ s.ev.unspilled.length ∧ (s.slot .a).cart = some c ∧ cl = traceBase c.big + s.ev.spillSeq % 65536 ∧ spillTo s = [(.a, cl)] ∧ ringReady s (.a, cl) = true ∧ Still s ∧ s.md.injArmed = false) ∧
    (∃ (s : State), s.ev.traceScan = false ∧ s.ev.spillLost = 0 ∧ s.ev.unspilled = []) :=
  ⟨⟨{ live with ev := { live.ev with intake := [{ ev0 with code := cPWF, ctx := 0 }] } }, { ev0 with code := cPWF, ctx := 0 }, [], by decide +kernel⟩,
    ⟨live, by decide +kernel⟩,
    ⟨{ pfEntry 128 { masked := false, cause := true } live with hl := { (pfEntry 128 { masked := false, cause := true } live).hl with msixPf := true } }, 128, by decide +kernel, by decide +kernel, by decide +kernel, by decide +kernel, by decide +kernel, by decide +kernel, by decide +kernel, link_open (by decide +kernel)⟩,
    ⟨{ pfEntry 191 { cause := true } live with hl := { (pfEntry 191 { cause := true } live).hl with msixPf := true } }, 191, by decide +kernel⟩,
    ⟨{ exposed live with hl := { (exposed live).hl with vfVec := live.hl.vfVec.set 0 { masked := false, cause := true }, msixVf := live.hl.msixVf.set 0 true } }, 0, by decide +kernel, by decide +kernel, by decide +kernel, by decide +kernel, by decide +kernel, by decide +kernel, link_open (by decide +kernel)⟩,
    ⟨at1s { one with ev := { one.ev with unspilled := [tr0, tr0, tr0] } }, cartA, traceBase false, by decide +kernel, by decide +kernel, by decide +kernel, by decide +kernel, by decide +kernel, by decide +kernel, by decide +kernel, by decide +kernel, by decide +kernel, by decide +kernel, by decide +kernel, by decide +kernel, by decide +kernel, still (by decide +kernel), by decide +kernel⟩,
    ⟨live, by decide +kernel⟩⟩

/-- States and operands that meet the hypotheses of each clause. -/
theorem witness_RegisterWritesAreStoredOrRefused :
    (∃ (s : State) (ch : Chan), MayWrite ch 0x3008 s ∧ notTest s = true) ∧
    (∃ (s : State) (ch : Chan), MayWrite ch 0x3008 s ∧ notTest s = true) ∧
    (∃ (s : State) (ch : Chan), MayWrite ch 0x3008 s ∧ notTest s = false ∧ s.ev.logOpen = true) ∧
    (∃ (s : State) (v : Word), MayWrite .bar0 0x1000 s ∧ v.toNat % 256 ≤ 0x80) ∧
    (∃ (s : State) (v : Word), MayWrite .bar0 0x1000 s ∧ v.toNat % 256 ≤ 0x80) ∧
    (∃ (s : State) (v : Word), MayWrite .sp0 0x1000 s ∧ v.toNat % 256 ≤ 0x80) ∧
    (∃ (s : State) (v : Word), MayWrite .bar0 0x1000 s ∧ 0x80 < v.toNat % 256 ∧ s.ev.logOpen = true) ∧
    (∃ (s : State), MayWrite .bar0 0x0054 s ∧ notTest s = true) ∧
    (∃ (s : State), MayWrite .bar0 0x0438 s) ∧
    (∃ (s : State), reaches s .sp0 = true ∧ (s.pw.state = .boot ∨ s.pw.state = .replay) ∧ s.ev.logOpen = true) ∧
    (∃ (s : State), reaches s .sp0 = true ∧ (s.pw.state = .boot ∨ s.pw.state = .replay) ∧ s.ev.logOpen = true) ∧
    (∃ (s : State) (off : BitVec 16) (b : Block), reaches s .sp1 = true ∧ off.toNat < 0x8000 ∧ blockOf off.toNat = some b ∧ s.ev.logOpen = true) ∧
    (∃ (s : State) (off : BitVec 16) (b : Block), reaches s .sp1 = true ∧ off.toNat < 0x8000 ∧ blockOf off.toNat = some b ∧ s.ev.logOpen = true) :=
  ⟨⟨live, .bar0, by decide +kernel⟩,
    ⟨inP .rest live, .sp0, by decide +kernel⟩,
    ⟨inP .test live, .bar0, by decide +kernel⟩,
    ⟨live, 0x80, by decide +kernel⟩,
    ⟨live, 0x0, by decide +kernel⟩,
    ⟨live, 0x17F80, by decide +kernel⟩,
    ⟨live, 0x81, by decide +kernel⟩,
    ⟨live, by decide +kernel⟩,
    ⟨live, by decide +kernel⟩,
    ⟨inP .boot live, by decide +kernel⟩,
    ⟨inP .replay live, by decide +kernel⟩,
    ⟨{ live with sp1 := { live.sp1 with master := false } }, 0x0054, .gl, by decide +kernel⟩,
    ⟨{ inP .boot live with sp1 := { live.sp1 with master := false } }, 0x3C04, .bt, by decide +kernel⟩⟩

/-- Three readings at the edge of their agreement. -/
theorem witness_HoldupSizesTheBuffer : ∃ (s : State) (c1 c2 c3 r1 r2 r3 : Nat), (2 : Fin 16) ∈ s.bt.running ∧ s.bt.run ≠ 2 ∧
    max (max c1 c2) c3 * 100 ≤ min (min c1 c2) c3 * 105 ∧ max (max r1 r2) r3 ≤ min (min r1 r2) r3 + 10 ∧ max (max r1 r2) r3 < 255 ∧
    (bit s.bt.bootDone 3 && bit s.bt.bootFail 3) = false :=
  ⟨testing 2 one, 470, 480, 475, 80, 82, 85, by decide +kernel⟩

/-- States and operands that meet the hypotheses of each clause. -/
theorem witness_ReservedOffsetsReadZeroAndReadsClear :
    (∃ (s : State) (ch : Chan) (off : BitVec 16), ((ch = .bar0 ∨ ch = .sp0 ∨ ch = .sp1)) ∧ reaches s ch = true ∧ off.toNat < 0x8000 ∧ off.toNat % 4 = 0 ∧ blockOf off.toNat = none) ∧
    (∃ (s : State) (ch : Chan) (off : BitVec 16), ((ch = .bar0 ∨ ch = .sp0 ∨ ch = .sp1)) ∧ reaches s ch = true ∧ off.toNat < 0x8000 ∧ off.toNat % 4 = 0 ∧ blockOf off.toNat = none) ∧
    (∃ (s : State) (ch : Chan) (off : BitVec 16), ((ch = .bar0 ∨ ch = .sp0 ∨ ch = .sp1)) ∧ reaches s ch = true ∧ off.toNat < 0x8000 ∧ off.toNat % 4 = 0 ∧ blockOf off.toNat = none) ∧
    (∃ (ch : Chan) (off : BitVec 16), ((ch = .bar0 ∨ ch = .sp0 ∨ ch = .sp1)) ∧ off.toNat < 0x8000 ∧ off.toNat % 4 = 0 ∧ blockOf off.toNat = none) ∧
    (∃ (ch : Chan) (off : BitVec 16), ((ch = .bar0 ∨ ch = .sp0 ∨ ch = .sp1)) ∧ off.toNat < 0x8000 ∧ off.toNat % 4 = 0 ∧ blockOf off.toNat = none) ∧
    (∃ off : Nat, off < 0x8000 ∧ off % 4 = 0 ∧ blockOf off = none) ∧
    (∃ off : Nat, off < 0x8000 ∧ off % 4 = 0 ∧ blockOf off ≠ none) ∧
    (∃ (s : State), Serves s) ∧
    (∃ (s : State), Serves s) ∧
    (∃ (s : State), Serves s) :=
  ⟨⟨live, .bar0, 0x0F00, by decide +kernel⟩,
    ⟨live, .sp0, 0x7FFC, by decide +kernel⟩,
    ⟨{ live with sp1 := { live.sp1 with master := false } }, .sp1, 0x000C, by decide +kernel⟩,
    ⟨.bar0, 0x0F14, by decide +kernel⟩,
    ⟨.sp1, 0x0F14, by decide +kernel⟩,
    ⟨0x2FCC, by decide, by decide, by decide⟩, ⟨0x2FC8, by decide, by decide, by decide⟩,
    ⟨{ live with md := { live.md with errCorr := 5000000000 } }, by decide +kernel⟩,
    ⟨{ live with hl := { live.hl with hotCount := 300 } }, by decide +kernel⟩,
    ⟨live, by decide +kernel⟩⟩


end
end

namespace Sys2Proof.Machine

/-! ### Every command answers a next state -/

/-- Every arm of the dispatch ends in `act`, which neither faults nor refuses, whatever the state. -/
theorem exec_answers (c : Instr) (s : State) : ∃ t, exec c s = .next t := by
  cases c <;> exact ⟨_, rfl⟩

/-- Settles O3: an empty queue lets a cycle pass, and a front command answers by `exec_answers`. -/
theorem everyStepAnswers : Obligations.EveryStepAnswers := by
  intro s
  unfold step
  cases s.pending with
  | nil => exact ⟨idle s, rfl⟩
  | cons c rest => exact exec_answers c { s with pending := rest }

/-! ### HL_APERTURE and the settings record it forms -/

/-- A record that replaces a queued one takes that one's kind, so the kinds that wait stay as they are (R270). -/
theorem replaceIn_kinds {w : PageWrite} (hw : w.kind.record ≠ none) :
    ∀ {l : List PageWrite}, (∃ x ∈ l, x.kind.record = w.kind.record) → (replaceIn w l).map (·.kind) = l.map (·.kind)
  | [], h => by simp at h
  | x :: rest, h => by
    by_cases hx : x.kind.record = w.kind.record
    · simp [replaceIn, hx, hw]
    · have hrest : ∃ y ∈ rest, y.kind.record = w.kind.record := by simpa [hx] using h
      simp [replaceIn, hx, replaceIn_kinds hw hrest]

/-- A new slot size changes no kind in the queue where a settings record, of an accepted change or not, waits already. -/
theorem storeAperture_kinds {n : Nat} {s : State} (h : ∃ x ∈ s.ks.queue, x.kind.record = KsKind.settings.record) :
    (storeAperture n s).ks.queue.map (·.kind) = s.ks.queue.map (·.kind) :=
  replaceIn_kinds (by simp [ringWrite, KsKind.record]) h

/-- An HL_APERTURE write in a state that takes it stores the slot size, clamped to 30 to 37 (R223, Table 8.13). -/
theorem exec_apertureWrite_taken {ch : Chan} {v : Word} {s : State} (h : MayWrite ch 0x3008 s) (hn : notTest s = true) :
    exec (.apertureWrite ch v) s = .next (storeAperture (clamp 30 37 (fld v 0 6)) { s with out := [] }) := by
  have hj : judgeWrite ch .hl 0x3008 (tnIndex s ch) allBytes v { s with out := [] } =
      .taken (storeAperture (clamp 30 37 (fld v 0 6)) { s with out := [] }) :=
    judge_taken (by simp [show notTest { s with out := [] } = true from hn]) _
  exact congrArg Host.Outcome.next
    (writeAt_taken (s := { s with out := [] }) h rfl (by decide) hj (stageOf_plain rfl))

/-- ACTIVE, with the settings record queued that the acceptance of change 1 forms where it names CS_WINDOW (R286). -/
def settingsApplyWaits : State :=
  formSettings .applySettings 1 { State.reset with pw := { State.reset.pw with state := .active } }

theorem settingsApplyWaits_kinds : settingsApplyWaits.ks.queue.map (·.kind) = [.applySettings] := rfl

/-- Refutes O59, by its first clause: while the settings record of an accepted change waits, the record of an HL_APERTURE write takes
its place and rank (R270) and the kind of an apply write with them, so no write of kind `settings` is queued. -/
theorem not_registerWritesAreStoredOrRefused : ¬ Obligations.RegisterWritesAreStoredOrRefused := by
  rintro ⟨haperture, -⟩
  have hw : MayWrite .bar0 0x3008 settingsApplyWaits := by decide
  have hn : notTest settingsApplyWaits = true := by decide
  obtain ⟨t, ht, -, -, ⟨w, hmem, hkind⟩, -⟩ := haperture settingsApplyWaits .bar0 30 hw hn
  rw [exec_apertureWrite_taken hw hn] at ht
  cases ht
  have hk : w.kind ∈ settingsApplyWaits.ks.queue.map (·.kind) := by
    rw [← storeAperture_kinds (s := { settingsApplyWaits with out := [] }) ⟨_, List.mem_cons_self, rfl⟩]
    exact List.mem_map_of_mem hmem
  rw [settingsApplyWaits_kinds, hkind] at hk
  exact absurd hk (by decide)

end Sys2Proof.Machine

namespace Sys2Proof.Machine

/-! ### The live energy and HOLDUP (R27, R30, R293) -/

/-- The steps an energy pays for, in the numbers of Table 1.2. -/
theorem stepsOf_eq (nj : Nat) : stepsOf nj = min 32 ((nj - 6350000) / 1048576) := by
  simp only [stepsOf, eFix, eKs, eStep, eLine, Nat.reduceAdd, Nat.reduceMul]

/-- The energy that a recomputation finds: by the last measurement, or by R316's values until HOLDUP has reported. -/
def liveNj (v10mv : BitVec 16) (s : State) : Nat :=
  if s.pc.measured then energyNj s.pc.capUf s.pc.esrMohm v10mv.toNat else energyNj 235 160 v10mv.toNat

/-- PC with an energy and the steps it pays for. -/
def withLive (v10mv : BitVec 16) (nj : Nat) (p : Pc) : Pc :=
  { p with availNj := nj, live10mv := v10mv, live := min (stepsOf nj) p.sized, degraded := decide (min (stepsOf nj) p.sized < p.sized) }

/-- HOLD_DEGRADED and the correctable error on the link, where DEGRADED begins. -/
def noteDegraded (live : Nat) (s : State) : State :=
  let s := raise uPC cHOLD_DEGRADED (ctxByte provider) (lo32 live) (lo32 s.pc.sized) 0 s
  { s with hl := { s.hl with pfAer := { s.hl.pfAer with corrInternal := true } } }

@[simp] theorem noteDegraded_pc (n : Nat) (s : State) : (noteDegraded n s).pc = s.pc := raise_pc _ _ _ _ _ _ _
@[simp] theorem noteDegraded_md (n : Nat) (s : State) : (noteDegraded n s).md = s.md := raise_md _ _ _ _ _ _ _
@[simp] theorem noteDegraded_gl (n : Nat) (s : State) : (noteDegraded n s).gl = s.gl := raise_gl _ _ _ _ _ _ _
@[simp] theorem noteDegraded_bt (n : Nat) (s : State) : (noteDegraded n s).bt = s.bt := raise_bt _ _ _ _ _ _ _

/-- A recomputation changes PC as `withLive` says, and does no more than `noteDegraded` beside it. -/
theorem recompute_eq (v : BitVec 16) (s : State) :
    recompute v s =
      if (withLive v (liveNj v s) s.pc).degraded && !s.pc.degraded then
        noteDegraded (withLive v (liveNj v s) s.pc).live { s with pc := withLive v (liveNj v s) s.pc }
      else { s with pc := withLive v (liveNj v s) s.pc } := rfl

@[simp] theorem recompute_pc (v : BitVec 16) (s : State) : (recompute v s).pc = withLive v (liveNj v s) s.pc := by
  rw [recompute_eq]; split <;> simp
@[simp] theorem recompute_md (v : BitVec 16) (s : State) : (recompute v s).md = s.md := by
  rw [recompute_eq]; split <;> simp
@[simp] theorem recompute_gl (v : BitVec 16) (s : State) : (recompute v s).gl = s.gl := by
  rw [recompute_eq]; split <;> simp
@[simp] theorem recompute_bt (v : BitVec 16) (s : State) : (recompute v s).bt = s.bt := by
  rw [recompute_eq]; split <;> simp

/-- A recomputation while DEGRADED stands changes PC only (R30). -/
theorem recompute_degraded {s : State} (v : BitVec 16) (h : s.pc.degraded = true) :
    recompute v s = { s with pc := withLive v (liveNj v s) s.pc } := by
  rw [recompute_eq]; simp [h]

/-- Settles O37: outside a HOLDUP step the command is a recomputation. -/
theorem liveEnergyFollowsVhold : Obligations.LiveEnergyFollowsVhold := by
  intro s v hclk hrun hm
  have hlive : recomputeLive v { s with out := [] } = recompute v { s with out := [] } := by
    simp [recomputeLive, hclk, hrun]
  have hnj : liveNj v { s with out := [] } = energyNj s.pc.capUf s.pc.esrMohm v.toNat := by simp [liveNj, hm]
  refine ⟨_, congrArg Host.Outcome.next hlive, ?_⟩
  simp only [recompute_pc, recompute_md, recompute_gl, hnj, withLive, stepsOf_eq, decide_eq_true_eq, true_and]
  refine ⟨rfl, fun hd => ?_⟩
  rw [recompute_degraded (s := { s with out := [] }) v hd]
  exact ⟨rfl, rfl⟩

@[simp] theorem recordTest_pc (i : Fin 16) (p : Bool) (s : State) : (recordTest i p s).pc = s.pc := by
  unfold recordTest; extract_lets; repeat' split
  all_goals rfl
@[simp] theorem recordTest_run (i : Fin 16) (p : Bool) (s : State) : (recordTest i p s).bt.run = s.bt.run := by
  unfold recordTest; extract_lets; repeat' split
  all_goals rfl

/-- The end of a test that is none of a run's ends no run. -/
theorem endRun_outside {s : State} (h : s.bt.run ≠ 2) : endRun s = s := if_pos (.inl h)

/-- An engine test that passes outside a run changes nothing of PC (R292). -/
theorem endTest_pass_pc {i : Fin 16} {code : BitVec 8} {d : Word × Word × Word × Word} {s : State} (hi : testSlot i = none)
    (hcoil : testOf i ≠ 9) (hrun : s.bt.run ≠ 2) : (endTest i true code d s).pc = s.pc := by
  unfold endTest
  split
  · rfl
  · extract_lets s₁ b s₂ s₃ s₄
    have h₄ : s₄ = s₂ := by simp only [s₄, s₃, hi, if_true]
    have hr : s₂.bt.run = s.bt.run := recordTest_run i true _
    rw [h₄, endRun_outside (by rwa [hr])]
    exact recordTest_pc i true _

/-- The state as a HOLDUP that passes leaves it before the recomputation, with the steps it sizes (R27). -/
def sizedBy (c esr steps : Nat) (v : BitVec 16) (p : Pc) : Pc :=
  { p with capUf := c, esrMohm := esr, charge10mv := v, measured := true, remeasure := false, stepNj := 0, sized := steps
           refused := p.refused || decide (steps = 0) }

/-- Three readings that agree: what HOLDUP takes of them is their least capacitance and their greatest resistance. -/
theorem holdup_passes {s : State} {cs rs : List Nat} (v : BitVec 16) (hrun : (2 : Fin 16) ∈ s.bt.running)
    (hc : greatest id cs * 100 ≤ least cs * 105) (hr : greatest id rs ≤ least rs + 10) (hr255 : greatest id rs < 255)
    (h3 : (bit s.bt.bootDone 3 && bit s.bt.bootFail 3) = false) :
    ∃ d u, holdup cs rs v s = endTest 2 true cOK d (recompute v u) ∧ u.bt = s.bt ∧
      u.pc = sizedBy (least cs) (greatest id rs)
        (min (stepsOf (energyNj (least cs) (greatest id rs) v.toNat)) (32 - s.bt.badSteps.length)) v s.pc := by
  have hany : s.bt.running.any (fun j => decide (j = 2)) = true := by simpa using hrun
  unfold holdup
  rw [if_neg (by simp [hany])]
  extract_lets c esr agree pass old was p s₁ d failed3 steps p₂ s₂ s₃
  have hpass : pass = true := by simp [pass, agree, c, esr, hc, hr, hr255]
  have h3' : failed3 = false := by simp only [failed3, s₁, h3, Bool.false_and]
  have hst : steps = min (stepsOf (energyNj (least cs) (greatest id rs) v.toNat)) (32 - s.bt.badSteps.length) := by
    simp only [steps, h3', Bool.false_eq_true, if_false, s₁, c, esr]
  have h₃ : s₃.bt = s₂.bt ∧ s₃.pc = s₂.pc := by
    simp only [s₃]; split <;> simp
  refine ⟨d, s₃, by simp [hpass], h₃.1, ?_⟩
  rw [h₃.2, ← hst]
  rfl

theorem greatest_three (a b c : Nat) : greatest id [a, b, c] = max (max a b) c := by simp [greatest, Nat.max_assoc]

/-- Settles O18: three readings that agree pass the test, and a passed HOLDUP changes PC by its sizing and the recomputation only. -/
theorem holdupSizesTheBuffer : Obligations.HoldupSizesTheBuffer := by
  intro s c1 c2 c3 r1 r2 r3 v hrun hnorun c r hc hr hr255 h3
  have hcap : least [c1, c2, c3] = c := by simp [least, c]
  have hesr : greatest id [r1, r2, r3] = r := greatest_three r1 r2 r3
  have hcm : greatest id [c1, c2, c3] = max (max c1 c2) c3 := greatest_three c1 c2 c3
  have hrl : least [r1, r2, r3] = min (min r1 r2) r3 := by simp [least]
  obtain ⟨d, u, hu, hbt, hpc⟩ := holdup_passes (s := { s with out := [] }) (cs := [c1, c2, c3]) (rs := [r1, r2, r3]) v hrun
    (by rwa [hcm, hcap]) (by rwa [hesr, hrl]) (by rwa [hesr]) h3
  rw [hcap, hesr] at hpc
  have hend : (endTest 2 true cOK d (recompute v u)).pc = withLive v (liveNj v u) u.pc := by
    rw [endTest_pass_pc (by decide) (by decide) (by rw [recompute_bt, hbt]; exact hnorun), recompute_pc]
  have hnj : liveNj v u = energyNj c r v.toNat := by rw [liveNj, hpc]; rfl
  refine ⟨_, congrArg Host.Outcome.next hu, ?_⟩
  simp only [hend, hnj, hpc, withLive, sizedBy, stepsOf_eq, true_and, and_true]
  exact Nat.min_le_right _ _

end Sys2Proof.Machine

namespace Sys2Proof.Machine

/-! ### The commands of PC_CTRL, MD_CTRL and MD_INJECT -/

/-- A command whose write its unit takes, where the write stages nothing. -/
theorem command_taken {ch : Chan} {off : Nat} {v : Word} {s t : State} {b : Block} (h : MayWrite ch off s)
    (hb : blockOf off = some b) (hm : off ≠ 0x1014)
    (hs : stageOf (windowLapse { s with out := [] }) ch.mgmt off (tnIndex s ch) v allBytes = .nothing)
    (hj : judgeWrite ch b off (tnIndex s ch) allBytes v { s with out := [] } = .taken t) :
    act (command ch off v) s = .next t :=
  congrArg Host.Outcome.next (writeAt_taken (s := { s with out := [] }) h hb hm hj hs)

/-- A bit of a word with another bit set. -/
theorem bit_or (v w : Word) (i : Nat) : bit (v ||| w) i = (bit v i || bit w i) := BitVec.getLsbD_or

/-- Setting a bit above a field leaves the field. -/
theorem fld_or_arm (v : Word) : fld (v ||| 0x100) 0 4 = fld v 0 4 := by
  simp [fld, Nat.or_mod_two_pow (n := 4)]

/-- A write of PC_CTRL that gives no DISCARD_HOLD stages nothing (Table 1.17). -/
theorem stageOf_pcCtrl {s : State} {mgmt : Bool} {c : Ctx} {v : Word} (h : bit v 2 = false) :
    stageOf s mgmt 0x043C c v allBytes = .nothing := by
  have hand : v &&& 4#32 = 0 := by
    have := BitVec.and_twoPow v 2
    rwa [show v.getLsbD 2 = false from h] at this
  simp [stageOf, stages, csTriggers, csWritten, csMask, hand]

/-- The engine's state judges a register write alike before and after the ports are emptied. -/
@[simp] theorem usual_noOut (s : State) : usual { s with out := [] } = usual s := rfl
@[simp] theorem usualField_noOut (s : State) : usualField { s with out := [] } = usualField s := rfl
@[simp] theorem notTest_noOut (s : State) : notTest { s with out := [] } = notTest s := rfl
@[simp] theorem afterReplay_noOut (s : State) : afterReplay { s with out := [] } = afterReplay s := rfl

theorem MayWrite.afterReplay {ch : Chan} {off : Nat} {s : State} (h : MayWrite ch off s) : Machine.afterReplay s = true := h.1.2.1

/-- WRITEBACK_ALL and REMEASURE, given where their states take them (Tables 1.6 and 1.17). -/
theorem judge_pcCtrl {ch : Chan} {c : Ctx} {v : Word} {s : State} (h0 : bit v 0 = false ∨ usualField s = true)
    (h1 : bit v 1 = false ∨ usual s = true) :
    judgeWrite ch .pc 0x043C c allBytes v { s with out := [] } = .taken { s with
      out := []
      pc := { s.pc with writebackAll := s.pc.writebackAll || bit v 0, remeasure := s.pc.remeasure || bit v 1 } } := by
  have hb : inState (!bit v 0 || writebackOk { s with out := [] }) = none := by rcases h0 with h | h <;> simp [writebackOk, h]
  have hr : inState (!bit v 1 || usual s) = none := by rcases h1 with h | h <;> simp [h]
  simp [judgeWrite, writePc, judge, hb, hr]

/-- A write of MD_CTRL is taken where its states take SCRUB_NOW, or the write does not give it (Table 4.11). -/
theorem judge_mdCtrl {ch : Chan} {c : Ctx} {v : Word} {s : State} (ha : afterReplay s = true)
    (h : bit v 0 = false ∨ usual s = true) :
    judgeWrite ch .md 0x0804 c allBytes v { s with out := [] } = .taken
      (if bit v 0 then scrubNow { s with out := [], md := { s.md with scrubPause := bit v 1 } }
       else { s with out := [], md := { s.md with scrubPause := bit v 1 } }) := by
  have hs : inState (!bit v 0 || scrubNowOk { s with out := [] }) = none := by
    rcases h with h | h <;> simp [scrubNowOk, h]
  simp [judgeWrite, writeMd, judge, ha, hs]

/-- MD_INJECT.ARM of at most 12 bits is taken in ACTIVE and QUIET (R133). -/
theorem judge_mdInject {ch : Chan} {c : Ctx} {v : Word} {s : State} (ha : afterReplay s = true) (hu : usual s = true)
    (hf : fld v 0 4 ≤ 12) :
    judgeWrite ch .md 0x0840 c allBytes v { s with out := [] } = .taken { s with
      out := []
      md := { s.md with
        injCount := BitVec.ofNat 4 (fld v 0 4), injStored := bit v 7, injArmed := s.md.injArmed || bit v 8 } } := by
  have hi : inState (!bit v 8 || injectOk { s with out := [] }) = none := by simp [injectOk, hu]
  simp [judgeWrite, writeMd, judge, ha, hf, hi]

/-- SCRUB_NOW with one cartridge in service starts that cartridge's pass. -/
theorem scrubNow_alone {s : State} {x : Slot} (h : serving s = [x]) : scrubNow s = scrubSlot x s := by
  simp [scrubNow, h]

theorem scrubSlot_shape (x : Slot) (s : State) : scrubSlot x s = { s with md := (scrubSlot x s).md } := by cases x <;> rfl
theorem scrubSlot_pos (x : Slot) (s : State) : scrubPos (scrubSlot x s) x = 0 := by cases x <;> rfl
theorem scrubSlot_active (x : Slot) (s : State) : (scrubSlot x s).md.scrubActive = true := by cases x <;> rfl
theorem scrubSlot_pause (x : Slot) (s : State) : (scrubSlot x s).md.scrubPause = s.md.scrubPause := by cases x <;> rfl

/-- Settles O38: each command is a register write that its unit takes. -/
theorem holdAndMediaCommands : Obligations.HoldAndMediaCommands := by
  refine ⟨fun ch s v h hu h1 h2 => ?_, fun ch s v h hu h0 h2 => ?_, fun ch s v h h0 => ?_, fun ch s v x h hu hx => ?_,
    fun ch s v h hu hf => ?_⟩
  · have hb1 : bit (v ||| 1) 1 = false := by rw [bit_or, h1]; rfl
    have hb0 : bit (v ||| 1) 0 = true := by rw [bit_or]; exact Bool.or_true _
    refine command_taken h rfl (by decide) (stageOf_pcCtrl (by rw [bit_or, h2]; rfl)) ?_
    rw [judge_pcCtrl (.inr hu) (.inl hb1), hb0, hb1, Bool.or_true, Bool.or_false]
  · have hb0 : bit (v ||| 2) 0 = false := by rw [bit_or, h0]; rfl
    have hb1 : bit (v ||| 2) 1 = true := by rw [bit_or]; exact Bool.or_true _
    refine command_taken h rfl (by decide) (stageOf_pcCtrl (by rw [bit_or, h2]; rfl)) ?_
    rw [judge_pcCtrl (.inl hb0) (.inr hu), hb0, hb1, Bool.or_true, Bool.or_false]
  · refine command_taken h rfl (by decide) (stageOf_plain rfl) ?_
    rw [judge_mdCtrl h.afterReplay (.inl h0), h0]
    rfl
  · have hb0 : bit (v ||| 1) 0 = true := by rw [bit_or]; exact Bool.or_true _
    have hb1 : bit (v ||| 1) 1 = bit v 1 := by rw [bit_or]; exact Bool.or_false _
    have hj := judge_mdCtrl (ch := ch) (c := tnIndex s ch) (v := v ||| 1) h.afterReplay (.inr hu)
    rw [hb0, if_pos rfl, hb1] at hj
    have hone := scrubNow_alone (s := { s with out := [], md := { s.md with scrubPause := bit v 1 } }) hx
    refine ⟨_, command_taken h rfl (by decide) (stageOf_plain rfl) (hj.trans (congrArg Judged.taken hone)), scrubSlot_pos _ _, scrubSlot_active _ _,
      scrubSlot_pause _ _, scrubSlot_shape _ _⟩
  · have hb7 : bit (v ||| 0x100) 7 = bit v 7 := by rw [bit_or]; exact Bool.or_false _
    have hb8 : bit (v ||| 0x100) 8 = true := by rw [bit_or]; exact Bool.or_true _
    refine command_taken h rfl (by decide) (stageOf_plain rfl) ?_
    rw [judge_mdInject h.afterReplay hu (by rwa [fld_or_arm]), fld_or_arm, hb7, hb8, Bool.or_true]

end Sys2Proof.Machine

namespace Sys2Proof.Machine

/-! ### TN_MODE, its persistent copy, and the refill of the buckets -/

/-- A write of TN_MODE that its unit takes: the register has no CS field (Table 5.3). -/
theorem writeReg_tnMode_taken {ch : Chan} {op : RegOp} {v : Word} {s t : State} (ho : op.off = 0x1014)
    (hg : gateCode ch 0x1014 s = none)
    (hj : writeTn ch 0x1014 (op.tenant s ch) allBytes (op.carried ch v s) s = .taken t) :
    (writeReg ch op allBytes v s).1 = t := by
  have hb : blockOf 0x1014 = some .tn := rfl
  simp [writeReg, ho, hb, hg, judgeWrite, hj, stageOf_plain (show csMask 0x1014 = 0 from rfl)]

/-- A write of TN_MODE that its unit refuses. -/
theorem writeReg_tnMode_refused {ch : Chan} {op : RegOp} {v : Word} {s : State} {code : BitVec 8} (ho : op.off = 0x1014)
    (hg : gateCode ch 0x1014 s = none)
    (hj : writeTn ch 0x1014 (op.tenant s ch) allBytes (op.carried ch v s) s = .refused code) :
    (writeReg ch op allBytes v s).1 = refuse ch .tn (op.tenant s ch) 0x1014 code (op.carried ch v s) s := by
  have hb : blockOf 0x1014 = some .tn := rfl
  simp [writeReg, ho, hb, hg, judgeWrite, hj, refuseOwn]

/-- Over BAR0 and SP0 the write carries the whole word, for the context of the channel's TN_INDEX. -/
theorem tnMode_carried (ch : Chan) (v : Word) (s : State) : RegOp.carried { off := 0x1014 } ch v s = v := by
  simp [RegOp.carried]

/-- TN_MODE of a tenant is taken where the value is legal and the engine's state permits it (Tables 1.6, 5.8). -/
theorem writeTn_mode_taken {ch : Chan} {c : Ctx} {w : Word} {s : State} (hc : c ≠ provider) (hn : notTest s = true)
    (hw : fld w 4 2 ≠ 0) (hp : bit w 0 = true ∨ (s.tenant c).persist = false ∨ toPostedOk s = true) :
    writeTn ch 0x1014 c allBytes w s = .taken (storeMode c w s) := by
  have hi : inState (!((s.tenant c).persist && !bit w 0) || toPostedOk s) = none := by
    rcases hp with h | h | h <;> simp [h]
  have hcodes : ∀ k ∈ [inBound (decide (fld w 4 2 ≠ 0)), inState (notTest s),
      inState (!((s.tenant c).persist && !bit w 0) || toPostedOk s)], k = none := by
    simp only [List.forall_mem_cons, hi, hn, decide_eq_true hw]
    simp
  have hblend : blend (tnMode (s.tenant c)) w allBytes = w := blend_all _ _
  simp only [writeTn, hc, if_false, hblend]
  exact judge_taken hcodes _

/-- A change to posted is refused while nothing backs it (R28). -/
theorem writeTn_mode_refused {ch : Chan} {c : Ctx} {w : Word} {s : State} (hc : c ≠ provider) (hn : notTest s = true)
    (hw : fld w 4 2 ≠ 0) (hb : bit w 0 = false) (hp : (s.tenant c).persist = true) (ho : postedOk s = false) :
    writeTn ch 0x1014 c allBytes w s = .refused cWRONG_STATE := by
  simp [writeTn, hc, judge, hn, hw, hb, hp, toPostedOk, ho]

/-- What a stored TN_MODE leaves of its context, and of everything else. -/
theorem storeMode_effect (c : Ctx) (w : Word) (s : State) :
    ((storeMode c w s).tenant c).persist = bit w 0 ∧
    ((storeMode c w s).tenant c).tempo = tempoOf (BitVec.ofNat 2 (fld w 4 2)) ∧
    ((storeMode c w s).tenant c).modeAt = some ((s.tenant c).modeAt.getD s.now) ∧
    storeMode c w s = modTenant c (fun _ => (storeMode c w s).tenant c) s := by
  refine ⟨by simp [storeMode], by simp [storeMode], ?_, ?_⟩
  · cases h : (s.tenant c).modeAt <;> simp [storeMode, h]
  · simp only [storeMode, modTenant_tenant]
    rfl

/-- Every position of the G5 window below 32 names a tenant's TN_MODE, of which it shows PERSIST (Table 15.10). -/
theorem regOp_g5Mode (pos : Fin 33) (h : pos ≠ 32) :
    regOp .g5 (g5ModeOff pos) = some { off := 0x1014, ctx := some (toCtx pos.val), shown := 3 } ∧ toCtx pos.val ≠ provider := by
  revert pos; decide +kernel

/-- A field of a union is the union of the fields. -/
theorem fld_or (a b : Word) (lo w : Nat) : fld (a ||| b) lo w = fld a lo w ||| fld b lo w := by
  simp [fld, Nat.shiftRight_or_distrib, Nat.or_mod_two_pow]

/-- The bits that the window shows lie below TEMPO. -/
theorem fld_shown (v : Word) : fld (v &&& 3) 4 2 = 0 := by
  have h : v.toNat &&& 3 ≤ 3 := Nat.and_le_right
  have hs : (v.toNat &&& 3) >>> 4 = 0 := by rw [Nat.shiftRight_eq_div_pow]; omega
  simp [fld, hs]

/-- Over the G5 window a write carries PERSIST, and the other fields as they stand (R231). -/
theorem g5Mode_carried (c : Ctx) (v : Word) (s : State) :
    bit (RegOp.carried { off := 0x1014, ctx := some c, shown := 3 } .g5 v s) 0 = bit v 0 ∧
    fld (RegOp.carried { off := 0x1014, ctx := some c, shown := 3 } .g5 v s) 4 2 = (s.tenant c).tempo.bits.toNat := by
  simp only [RegOp.carried, RegOp.tenant, tnModeWord, tnMode, if_true, Option.getD, fld_or, fld_shown]
  cases (s.tenant c).tempo <;> cases (s.tenant c).persist <;> cases effVerified s c
  all_goals exact ⟨by simp [bit, Tempo.bits, put, putB], by decide⟩

theorem tempoOf_bits (t : Tempo) : tempoOf t.bits = t := by cases t <;> rfl

/-- An event registered while the log is open stands in the intake. -/
theorem mem_intoIntake (e : EvEntry) : ∀ l, e ∈ intoIntake e l
  | [] => by simp [intoIntake]
  | x :: rest => by
    unfold intoIntake
    split
    · simp
    · exact List.mem_cons_of_mem _ (mem_intoIntake e rest)

theorem raise_mem_intake {u : BitVec 5} {k c : BitVec 8} {d0 d1 d2 : Word} {s : State} (h : s.ev.logOpen = true) :
    ∃ e ∈ (raise u k c d0 d1 d2 s).ev.intake, e.code = k ∧ e.unit = u ∧ e.ctx = c := by
  unfold raise raiseF
  extract_lets e
  have hopen : ¬((!s.ev.logOpen) = true ∧ 32 ≤ s.ev.intake.length) := by simp [h]
  rw [if_neg hopen]
  exact ⟨e, mem_intoIntake e _, rfl, rfl, rfl⟩

/-- A record that is formed waits in the queue, under its own number or in the place of the one it replaces (R270). -/
theorem exists_mem_replaceIn (w : PageWrite) : ∀ l, ∃ x ∈ replaceIn w l, x.kind.record = w.kind.record
  | [] => ⟨w, by simp [replaceIn]⟩
  | x :: rest => by
    unfold replaceIn
    split
    · rename_i h
      exact ⟨_, List.mem_cons_self, h.1⟩
    · obtain ⟨y, hy, hk⟩ := exists_mem_replaceIn w rest
      exact ⟨y, List.mem_cons_of_mem _ hy, hk⟩

/-- TN_MODE's copy is formed once its second has passed, and only then (R283). -/
theorem modePersist_due {c : Ctx} {s : State} {n : Nat} (h : (s.tenant c).modeAt = some n) (hn : n + sec ≤ s.now) :
    modePersist c s = formContext (.tnMode c.val) c (imageNow (modTenant c (fun x => { x with modeAt := none }) s) c) 0 false
      (modTenant c (fun x => { x with modeAt := none }) s) := by
  simp only [modePersist, h, if_neg (Nat.not_lt.mpr hn)]

theorem modePersist_early {c : Ctx} {s : State} {n : Nat} (h : (s.tenant c).modeAt = some n) (hn : s.now < n + sec) :
    modePersist c s = s := by
  simp only [modePersist, h, if_pos hn]

/-- A refill of a bucket that no change of this cycle brought (R140, R142). -/
theorem refill_settled {now : Nat} {t : Tenant} (hw : ∀ n w, t.was = some (n, w) → n ≠ now) (hu : t.unlimited = false) :
    refill now t = { t with
      tokens := min (t.tokens + t.rate.toNat) (16 * t.cap.toNat), refilled := t.refilled + t.rate.toNat
      discarded := t.discarded + (t.tokens + t.rate.toNat - 16 * t.cap.toNat)
      fresh := t.fresh.add now t.rate.toNat, cut := t.cut.add now (t.tokens + t.rate.toNat - 16 * t.cap.toNat) } := by
  unfold refill
  cases h : t.was with
  | none => simp [hu]
  | some p =>
    obtain ⟨n, w⟩ := p
    simp [hu, hw n w h]

theorem refill_unlimited {now : Nat} {t : Tenant} (hu : t.unlimited = true) : refill now t = t := by
  unfold refill
  cases t.was <;> simp [hu]

theorem mapTenants_tenant (f : Tenant → Tenant) (c : Ctx) (s : State) : (mapTenants f s).tenant c = f (s.tenant c) := by
  simp [mapTenants, State.tenant, mapV]

/-- A refill cycle refills every bucket and changes nothing else. -/
theorem tokenRefill_due {s : State} (h : refillDue s = true) :
    tokenRefill s = { s with tn := { (mapTenants (refill s.now) s).tn with refillAt := some s.now } } := by
  simp [tokenRefill, h]

theorem tokenRefill_due_tenant {s : State} (h : refillDue s = true) (c : Ctx) :
    (tokenRefill s).tenant c = refill s.now (s.tenant c) := by
  rw [tokenRefill_due h, ← mapTenants_tenant (refill s.now) c s]
  simp only [State.tenant]

theorem tokenRefill_early {s : State} (h : refillDue s = false) : tokenRefill s = s := by
  rw [tokenRefill, h, if_neg Bool.false_ne_true]

/-- A TN_MODE command over BAR0 or SP0 is a write of the register of the channel's context. -/
theorem exec_tnModeWrite {ch : Chan} {v : Word} {pos : Fin 33} {s : State} (h : MayWrite ch 0x1014 s) (hg : ch ≠ .g5) :
    exec (.tnModeWrite ch v pos) s = .next (writeReg ch { off := 0x1014 } allBytes v { s with out := [] }).1 := by
  have hm : MayWrite ch 0x1014 { s with out := [] } := h
  show execTnModeWrite ch v s pos = _
  simp [execTnModeWrite, act, hg, command, writeAt, hm.cmdOp, hm.reaches]

theorem gateCode_noOut {ch : Chan} {off : Nat} {s : State} (h : MayWrite ch off s) : gateCode ch off { s with out := [] } = none :=
  MayWrite.gate (s := { s with out := [] }) h

/-- Where the engine serves register writes, the G5 window's are served. -/
theorem Serves.g5 {s : State} (h : Serves s) : reaches s .g5 = true ∧ gateCode .g5 0x1014 s = none := by
  obtain ⟨⟨hc, hd, hs⟩, ha, he⟩ := h
  have hr := MayWrite.reaches (ch := .bar0) (off := 0x1014) (s := s) ⟨⟨⟨hc, hd, hs⟩, ha, he⟩, .inl rfl⟩
  refine ⟨?_, by simp [gateCode, not_booting ha, hs, he]⟩
  revert hr; unfold reaches; cases s.pw.state <;> simp

/-- A TN_MODE command over the G5 window is a write of the register at its position. -/
theorem exec_tnModeWrite_g5 {v : Word} {pos : Fin 33} {op : RegOp} {s : State} (h : Serves s)
    (ho : regOp .g5 (g5ModeOff pos) = some op) :
    exec (.tnModeWrite .g5 v pos) s = .next (writeReg .g5 op allBytes v { s with out := [] }).1 := by
  have hr : reaches { s with out := [] } .g5 = true := h.g5.1
  show execTnModeWrite .g5 v s pos = _
  simp [execTnModeWrite, act, writeHere, hr, writeBus, ho]

/-- What TN_MODE's refusal leaves: the context's sticky bit and the event (R9, R340). -/
theorem refuse_tnMode {ch : Chan} {c : Ctx} {v : Word} {s : State} :
    (refuse ch .tn c 0x1014 cWRONG_STATE v s).tenant c = { s.tenant c with wrongState := true } ∧
    (s.ev.logOpen = true → ∃ e ∈ (refuse ch .tn c 0x1014 cWRONG_STATE v s).ev.intake,
      e.code = cWRONG_STATE ∧ e.unit = uTN ∧ e.ctx = ctxByte c) := by
  have hr : refuse ch .tn c 0x1014 cWRONG_STATE v s = modTenant c (fun t => { t with wrongState := true })
      (raise uTN cWRONG_STATE (ctxByte c) (regD0 s ch 0x1014) v (put (tnIndex s ch).val 0) s) := by
    simp [refuse, setResult, setSticky, logRefusal, regCtx, Block.unit]
  rw [hr]
  refine ⟨?_, fun h => ?_⟩
  · rw [modTenant_tenant]
    simp [State.tenant]
  · exact raise_mem_intake h

/-- Settles O46: TN_MODE's write through its unit's judgement, by the channel's index or the window's position; the copy by its
second; the refill bucket by bucket. -/
theorem tenantModeAndTokens : Obligations.TenantModeAndTokens := by
  refine ⟨?_, ?_, ?_, ?_, ?_, ?_, ?_, ?_, ?_⟩
  · rintro s ch pos v c h hg rfl hc hn hv hp
    obtain ⟨h₁, h₂, h₃, h₄⟩ := storeMode_effect (tnIndex s ch) v { s with out := [] }
    have hj := writeTn_mode_taken (ch := ch) (w := v) (s := { s with out := [] }) hc hn hv hp
    rw [← tnMode_carried ch v { s with out := [] }] at hj
    refine ⟨_, (exec_tnModeWrite h hg).trans (congrArg _ (writeReg_tnMode_taken rfl (gateCode_noOut h) hj)), ?_⟩
    rw [tnMode_carried]
    exact ⟨h₁, h₂, h₃, h₄⟩
  · rintro s pos v c h hpos rfl hn hp
    obtain ⟨ho, hc⟩ := regOp_g5Mode pos hpos
    obtain ⟨hb, hf⟩ := g5Mode_carried (toCtx pos.val) v { s with out := [] }
    have hv : (s.tenant (toCtx pos.val)).tempo.bits.toNat ≠ 0 := by cases (s.tenant (toCtx pos.val)).tempo <;> decide
    have hj := writeTn_mode_taken (ch := .g5) (s := { s with out := [] }) hc hn (by rw [hf]; exact hv) (by rw [hb]; exact hp)
    have hw := writeReg_tnMode_taken (s := { s with out := [] }) (op := { off := 0x1014, ctx := some (toCtx pos.val), shown := 3 }) rfl h.g5.2 hj
    obtain ⟨h₁, h₂, h₃, h₄⟩ := storeMode_effect (toCtx pos.val) _ { s with out := [] }
    refine ⟨_, (exec_tnModeWrite_g5 h ho).trans (congrArg _ hw), h₁.trans hb, ?_, h₃, h₄⟩
    rw [h₂, hf, BitVec.ofNat_toNat, BitVec.setWidth_eq]
    exact tempoOf_bits _
  · rintro s ch pos v c h hg rfl hc hn hv hb hp ho hl
    have hj := writeTn_mode_refused (ch := ch) (w := v) (s := { s with out := [] }) hc hn hv hb hp ho
    rw [← tnMode_carried ch v { s with out := [] }] at hj
    have hw := writeReg_tnMode_refused (op := { off := 0x1014 }) rfl (gateCode_noOut h) hj
    obtain ⟨ht, he⟩ := refuse_tnMode (ch := ch) (c := tnIndex s ch) (v := v) (s := { s with out := [] })
    rw [tnMode_carried] at hw
    refine ⟨_, (exec_tnModeWrite h hg).trans (congrArg _ hw), ?_⟩
    exact ⟨((congrArg Tenant.persist ht :).trans hp :), (congrArg Tenant.tempo ht :), (congrArg Tenant.wrongState ht :), he hl⟩
  · intro s ch pos v h hg hc
    have hj : writeTn ch 0x1014 (tnIndex s ch) allBytes v { s with out := [] } = .taken { s with out := [] } := by
      simp [writeTn, hc]
    rw [← tnMode_carried ch v { s with out := [] }] at hj
    exact (exec_tnModeWrite h hg).trans (congrArg _ (writeReg_tnMode_taken rfl (gateCode_noOut h) hj))
  · intro s v h
    have ho : regOp .g5 (g5ModeOff 32) = some { off := 0x1014, ctx := some provider, shown := 3 } := by decide +kernel
    exact (exec_tnModeWrite_g5 h ho).trans (congrArg _ (writeReg_tnMode_taken rfl h.g5.2 rfl))
  · intro s c n h hn
    refine ⟨_, congrArg Host.Outcome.next (modePersist_due (s := { s with out := [] }) h hn), ?_⟩
    have ht : (modTenant c (fun x => { x with modeAt := none }) { s with out := [] }).tenant c =
        { s.tenant c with modeAt := none } := modTenant_tenant _ _ _
    obtain ⟨w, hw, hk⟩ := exists_mem_replaceIn { kind := .tnMode c.val, page := 0x40 + c.val, bytes := _, chg := 0, wipe := false }
      s.ks.queue
    exact ⟨(congrArg Tenant.modeAt ht :), (congrArg Tenant.persist ht :), ⟨w, hw, hk⟩, rfl, rfl⟩
  · intro s c n h hn
    exact congrArg Host.Outcome.next (modePersist_early (s := { s with out := [] }) h hn)
  · intro s hd hw
    refine ⟨_, rfl, fun c hu => ?_, fun c hu => ?_, ?_, ?_⟩
    · have hr := (tokenRefill_due_tenant (s := { s with out := [] }) hd c).trans
        (refill_settled (now := s.now) (t := s.tenant c) (hw c) hu)
      rw [hr]
      exact ⟨rfl, by dsimp only; omega, rfl⟩
    · rw [tokenRefill_due_tenant (s := { s with out := [] }) hd]
      exact refill_unlimited hu
    · rw [tokenRefill_due (s := { s with out := [] }) hd]
    · rw [tokenRefill_due (s := { s with out := [] }) hd]
  · intro s hd
    exact congrArg Host.Outcome.next (tokenRefill_early (s := { s with out := [] }) hd)
end Sys2Proof.Machine

namespace Sys2Proof.Machine

/-! ### Host writes: registration, refusal, and the move into the share -/

/-- What a noted staging area leaves: all but its own record (R62). -/
theorem noteHol_shape (s : State) :
    noteHol s = { s with gl := { s.gl with holPosted := (noteHol s).gl.holPosted, holNonPosted := (noteHol s).gl.holNonPosted } } := rfl

/-- Counting an operation is no matter of a request's judgement. -/
theorem refusalOf_count (c d : Ctx) (f : Counters → Counters) (w : Bool) (off len : Nat) (s : State) :
    refusalOf (count d f s) c w off len = refusalOf s c w off len := rfl

theorem newReq_count (t : Tlp) (k : ReqKind) (c d : Ctx) (f : Counters → Counters) (off : Nat) (p : List LinePart) (e : List Sense)
    (s : State) : newReq t k c off p e (count d f s) = newReq t k c off p e s := rfl

theorem count_live (c : Ctx) (f : Counters → Counters) (s : State) : (count c f s).lg.live[c] = f s.lg.live[c] := by
  simp [count, modLive, modAt]

/-- A host write of media, within its 4 KiB and with a staging entry free, comes to the registration (PCIe). -/
theorem hostWrite_media {s : State} {fn : Fn} {bar : Bar} {c : Ctx} {o off : Nat} {data : List Byte} {ro : Bool}
    (hr : reaches s .bar0 = true) (hx : s.hl.effCxl = false) (ht : targetOf s fn bar off = .media c o) (hd : data ≠ [])
    (hl : o % 4096 + data.length ≤ 4096) (hs : stagingFree s true = true) :
    hostWrite fn bar off data false ro s = mediaWrite ⟨fn, bar, off, data.length, true, false, ro⟩ c o (dpaOf s off) data s := by
  simp [hostWrite, hr, hd, hs, ht, shapeFits, hl, hx]

theorem mediaWrite_taken {t : Tlp} {c : Ctx} {off dpa : Nat} {data : List Byte} {s : State}
    (h : refusalOf s c true off t.len = none) :
    mediaWrite t c off dpa data s = register (newReq t .media c off (lineParts 65 off data) [] s) (count c addOp s) := by
  simp [mediaWrite, refusalOf_count, h, newReq_count]

theorem mediaWrite_refused {t : Tlp} {c : Ctx} {off dpa : Nat} {data : List Byte} {s : State} {code : BitVec 8}
    (h : refusalOf s c true off t.len = some code) :
    mediaWrite t c off dpa data s = noteRefusal t (some c) code off dpa (count c addOp s) := by
  simp [mediaWrite, refusalOf_count, h]

/-- An AER error of a function is HL's own matter, and none of the refusals' record. -/
theorem modAer_shape (fn : Fn) (f : Aer → Aer) (s : State) :
    ∃ a v, modAer fn f s = { s with hl := { s.hl with pfAer := a, vfAer := v } } := by
  cases fn <;> exact ⟨_, _, rfl⟩

/-- A refused PCIe request changes the link's record and the counters only (R234). -/
theorem noteRefusal_pcie {t : Tlp} {c : Ctx} {code : BitVec 8} {off dpa : Nat} {s : State} (hx : s.hl.effCxl = false) :
    ∃ h, noteRefusal t (some c) code off dpa s = { count c addRefused s with hl := h } ∧ h.refCode = code ∧ h.refWrite = t.write ∧
      h.refCount = s.hl.refCount + 1 := by
  have hn : noteRefusal t (some c) code off dpa s = signalUr t (count c addRefused
      { recordRefusal t.fn (some c) t.write code off s with
        hl := { (recordRefusal t.fn (some c) t.write code off s).hl with refCount := s.hl.refCount + 1 } }) := by
    simp [noteRefusal, hx, recordRefusal, count, modLive]
  obtain ⟨a, v, hs⟩ := modAer_shape t.fn (fun a => logHeader t { a with unsupported := true }) (count c addRefused
      { recordRefusal t.fn (some c) t.write code off s with
        hl := { (recordRefusal t.fn (some c) t.write code off s).hl with refCount := s.hl.refCount + 1 } })
  exact ⟨_, hn.trans hs, rfl, rfl, rfl⟩

/-- No write is served as a read. -/
theorem canServe_write {s : State} {r : Req} (h : r.write = true) : canServe s r = false := by
  simp [canServe, readDue, h]

/-- Where every request is a write, no read is served. -/
theorem serveReads_writes {s : State} (h : ∀ q ∈ s.gl.ingress, q.write = true) : serveReads s = s := by
  unfold serveReads
  generalize s.gl.ingress = l at h
  induction l with
  | nil => rfl
  | cons q rest ih =>
    rw [List.foldl_cons, canServe_write (h q List.mem_cons_self), if_neg Bool.false_ne_true]
    exact ih fun p hp => h p (List.mem_cons_of_mem _ hp)

/-- A staged request that moves into its share changes nothing but the pipeline. -/
theorem toShare_staged {r : Req} {s : State} (h : r.stage = .staging) :
    (toShare r s).gl.ingress = update (fun q => q.id = r.id) (fun q => { q with stage := .share }) s.gl.ingress ∧
    (toShare r s).pc = s.pc ∧ (toShare r s).tn = s.tn ∧ (toShare r s).out = s.out := by
  have hi : (freeStaging r.write s).gl.ingress = s.gl.ingress := by unfold freeStaging; split <;> rfl
  simp [toShare, h, modReq, hi]

theorem mem_update {α : Type} {p : α → Bool} {f : α → α} {a : α} : ∀ {l : List α}, a ∈ update p f l → ∃ b ∈ l, a = b ∨ a = f b
  | [], h => by simp [update] at h
  | b :: rest, h => by
    rcases List.mem_cons.mp h with h | h
    · refine ⟨b, List.mem_cons_self, ?_⟩
      split at h
      · exact .inr h
      · exact .inl h
    · obtain ⟨c, hc, he⟩ := mem_update h
      exact ⟨c, List.mem_cons_of_mem _ hc, he⟩

theorem stage_of_find {s : State} {r : Req}
    (h : s.gl.ingress.find? (fun r => decide (r.stage = .staging) && shareFree s r.ctx) = some r) : r.stage = .staging := by
  have := List.find?_some h
  simp only [Bool.and_eq_true, decide_eq_true_eq] at this
  exact this.1

/-- The oldest staged write whose share has room moves, ahead of the staged flush reads that are younger (R61). -/
theorem ingressMove_write {s : State} {r : Req} (hw : ∀ q ∈ s.gl.ingress, q.write = true)
    (hf : ∀ f ∈ s.pc.flushes, f.stage = .staging → r.id < f.before)
    (hr : s.gl.ingress.find? (fun r => decide (r.stage = .staging) && shareFree s r.ctx) = some r) :
    ingressMove s = toShare r s := by
  have hstage := stage_of_find hr
  have hserve : serveReads (toShare r s) = toShare r s := by
    refine serveReads_writes fun q hq => ?_
    rw [(toShare_staged hstage).1] at hq
    obtain ⟨p, hp, rfl | rfl⟩ := mem_update hq
    · exact hw q hp
    · exact hw p hp
  unfold ingressMove
  rw [hr]
  cases h : s.pc.flushes.find? (fun f => decide (f.stage = .staging) && shareFree s f.ctx) with
  | none => exact hserve
  | some f =>
    have hs := List.find?_some h
    simp only [Bool.and_eq_true, decide_eq_true_eq] at hs
    simp only [if_pos (hf f (List.mem_of_find?_eq_some h) hs.1), hserve]

/-- Settles O23: a write's registration, its refusal, and the move of the oldest staged request. -/
theorem hostWritesAreRegistered : Obligations.HostWritesAreRegistered := by
  refine ⟨?_, ?_, ?_⟩
  · intro s fn bar c o off data ro hr hx ht hd hl hs href
    have h := (hostWrite_media (s := { s with out := [] }) (ro := ro) hr hx ht hd hl hs).trans
      (mediaWrite_taken (s := { s with out := [] }) href)
    refine ⟨_, congrArg (fun t => Host.Outcome.next (noteHol t)) h, ⟨_, rfl, rfl, rfl, rfl, rfl, rfl, rfl, rfl, rfl, rfl, rfl, rfl,
      rfl, rfl, rfl⟩, rfl, ?_, rfl, rfl, rfl, rfl⟩
    exact congrArg Counters.ops (count_live c addOp { s with out := [] })
  · intro s fn bar c o off data ro code hr hx ht hd hl hs href
    have h := (hostWrite_media (s := { s with out := [] }) (ro := ro) hr hx ht hd hl hs).trans
      (mediaWrite_refused (s := { s with out := [] }) href)
    obtain ⟨l, hn, hcode, hwr, hcnt⟩ := noteRefusal_pcie (t := ⟨fn, bar, off, data.length, true, false, ro⟩) (c := c) (code := code)
      (off := o) (dpa := dpaOf { s with out := [] } off) (s := count c addOp { s with out := [] }) hx
    refine ⟨_, congrArg (fun t => Host.Outcome.next (noteHol t)) (h.trans hn), rfl, hcode, hwr, hcnt, rfl, rfl⟩
  · intro s r hr hw hf hfind
    have hstage := stage_of_find hfind
    have h := ingressMove_write (s := { s with out := [] }) hw hf hfind
    have hg : (if reaches { s with out := [] } .bar0 then ingressMove { s with out := [] } else { s with out := [] }) =
        toShare r { s with out := [] } := by rw [if_pos (show reaches { s with out := [] } .bar0 = true from hr), h]
    obtain ⟨hi, hpc, htn, ho⟩ := toShare_staged (s := { s with out := [] }) hstage
    exact ⟨_, congrArg (fun t => Host.Outcome.next (noteHol t)) hg, hi, hpc, htn, ho⟩

end Sys2Proof.Machine

namespace Sys2Proof.Machine

/-! ### What the arbiters change while the minute stays open -/

theorem Arbitrated.refl (s : State) : Arbitrated s s := rfl

theorem Arbitrated.trans {s t u : State} (h : Arbitrated s t) (k : Arbitrated t u) : Arbitrated s u := by
  unfold Arbitrated at *
  rw [k, h]

theorem setArb_arbitrated (i : ArbId) (a : Arb) (s : State) : Arbitrated s (setArb i a s) := by cases i <;> rfl

theorem noteWait_arbitrated (c : BitVec 8) (n : Nat) (s : State) : Arbitrated s (noteWait c n s) := by
  unfold noteWait; split <;> rfl

theorem grantTo_arbitrated (i : ArbId) (who : Nat) (l : List Nat) (s : State) : Arbitrated s (grantTo i who l s) :=
  (setArb_arbitrated i _ s).trans (noteWait_arbitrated _ _ _)

theorem nextGrant_arbitrated {s : State} (i : ArbId) (h : MinuteOpen s) : Arbitrated s (nextGrant i s) := by
  unfold nextGrant; split
  · rw [passCycle_open s h]
  · rfl

theorem Arbitrated.minuteOpen {s t : State} (h : Arbitrated s t) (k : MinuteOpen s) : MinuteOpen t := by
  unfold Arbitrated at h
  unfold MinuteOpen at *
  rw [h]
  exact k

theorem grantUntil_arbitrated (i : ArbId) (who n : Nat) :
    ∀ (l : List Nat) (s : State), MinuteOpen s → Arbitrated s (grantUntil i who n l s) := by
  induction n with
  | zero => intro l s _; rfl
  | succ n ih =>
    intro l s ho
    simp only [grantUntil]
    have h := nextGrant_arbitrated i ho
    split
    · exact h
    · rename_i k _
      have g := h.trans (grantTo_arbitrated i k l (nextGrant i s))
      split
      · exact g
      · refine (g.trans (setArb_arbitrated i _ _)).trans (ih _ _ ?_)
        exact (g.trans (setArb_arbitrated i _ _)).minuteOpen ho

/-- An arbiter's grants change its own record, GL_ARB_MAXWAIT and the time, and nothing else, while no minute closes. -/
theorem arbitrate_arbitrated {s : State} (i : ArbId) (who : Nat) (l : List Nat) (h : MinuteOpen s) :
    Arbitrated s (arbitrate i who l s) := by
  unfold arbitrate
  simp only
  split
  · exact setArb_arbitrated i _ s
  · exact (setArb_arbitrated i _ s).trans (grantUntil_arbitrated i who _ _ _ ((setArb_arbitrated i _ s).minuteOpen h))

/-! ### A line at the admission point -/

theorem dirtyOf_congr {s t : State} (h : t.pc.slots = s.pc.slots) (line : Nat) : dirtyOf t line = dirtyOf s line := by
  simp [dirtyOf, h]

theorem mergeSlot_none {s : State} {line : Nat} (h : dirtyOf s line = none) : mergeSlot s line = none := by
  simp [mergeSlot, h]

/-- The slot that a line with no dirty slot takes. -/
def freshSlot (w : Writer) (off line : Nat) (data : Line) (mask : Mask) (poison : Bool) (homes : List (Slot × Nat)) (first : Slot)
    (s : State) : HoldSlot :=
  { id := s.pc.nextSlot, ctx := w.ctx, off := off, media := line, data := mergeLine 0 data mask, mask := mask
    tempo := writeTempo s w.ctx, verified := w.verified || forcedVerified s, poison := poison, asn := s.pc.asn + 1
    verAsn := s.pc.asn + 1, stampAt := w.cycle, stampRank := w.rank, stampMask := mask, issued := false, left := homes, first := first
    reqs := w.req.toList, chans := w.chan.toList, direct := goesDirect s }

/-- The ASN taken, and the price charged to the context, the cartridge and the ledger (R23, R106, R144). -/
def charged (c : Ctx) (x : Slot) (t : Tempo) (s : State) : State :=
  count c (addWear t 1) (chargeSlot x t.price (modTenant c (fun u => { u with lastAsn := s.pc.asn + 1, used := u.used + t.price })
    { s with pc := { s.pc with asn := s.pc.asn + 1 } }))

@[simp] theorem charged_pc (c : Ctx) (x : Slot) (t : Tempo) (s : State) :
    (charged c x t s).pc = { s.pc with asn := s.pc.asn + 1 } := by simp [charged]
@[simp] theorem charged_gl (c : Ctx) (x : Slot) (t : Tempo) (s : State) : (charged c x t s).gl = s.gl := by simp [charged]
@[simp] theorem charged_md (c : Ctx) (x : Slot) (t : Tempo) (s : State) : (charged c x t s).md = s.md := by simp [charged]
@[simp] theorem charged_hl (c : Ctx) (x : Slot) (t : Tempo) (s : State) : (charged c x t s).hl = s.hl := by simp [charged]

/-- The state in which a line has taken its slot, behind the others, and is charged. -/
def slotTaken (w : Writer) (off line cl : Nat) (data : Line) (mask : Mask) (poison : Bool) (x : Slot) (s : State) : State :=
  { charged w.ctx x (writeTempo s w.ctx) s with
    pc := { s.pc with
      asn := s.pc.asn + 1, slots := s.pc.slots ++ [freshSlot w off line data mask poison [(x, cl)] x s]
      nextSlot := s.pc.nextSlot + 1 } }

/-- A line without a dirty slot, of one home that serves, takes a slot behind the others and is charged. -/
theorem admitNow_fresh {w : Writer} {off line cl : Nat} {data : Line} {mask : Mask} {poison : Bool} {x : Slot} {s : State}
    (hd : dirtyOf s line = none) (hx : (s.slot x).serves = true) :
    admitNow w off line data mask poison [(x, cl)] s = slotTaken w off line cl data mask poison x s := by
  have hu : bytesUnder s w line = 0 := by simp [bytesUnder, hd]
  unfold admitNow slotTaken
  extract_lets tempo asn ver fresh stamp p s₁ s₂ first s₃ s₄ q u
  have hslot : (s₂.slot x).serves = true := by cases x <;> exact hx
  have h₄ : s₄ = charged w.ctx x tempo s := by
    simp only [s₄, s₃, first, List.find?_cons, hslot, Option.map_some, charged, s₂, s₁, asn, p]
  have hpc : s₄.pc = { s.pc with asn := s.pc.asn + 1 } := by rw [h₄, charged_pc]
  have hd₄ : dirtyOf s₄ line = none := (dirtyOf_congr (by rw [hpc]) line).trans hd
  have hdir : goesDirect s₄ = goesDirect s := by simp only [goesDirect, hpc]
  have hfresh : fresh = mask := by
    rw [show fresh = mask &&& ~~~bytesUnder s w line from rfl, hu]
    exact (congrArg (mask &&& ·) BitVec.not_zero).trans BitVec.and_allOnes
  have hfirst : first = some x := by simp [first, hslot]
  have hq : q = { s.pc with asn := s.pc.asn + 1 } := hpc
  clear_value q
  clear_value s₄
  simp only [mergeSlot_none hd₄, hd₄, hpc, hq, hdir, hfresh, hfirst, Option.getD_some, Bool.or_false]
  rw [show (0 : Mask) ||| mask = mask from BitVec.zero_or, h₄]
  rfl

/-- A fresh unverified line in SOLO_A that every check passes is admitted to slot A's cartridge (R24, R29, R85, R94, R144). -/
theorem admitWrite_soloA {w : Writer} {off line : Nat} {data : Line} {mask : Mask} {poison : Bool} {s : State}
    (hduet : s.duet.state = .soloA) (ha : (s.slot .a).serves = true)
    (hcap : dirty s + s.pc.relSlots.at s.now < capLines s) (hnj : rsvdNj s + 256 ≤ s.pc.availNj)
    (hwear : spentOf (s.slot .a) + (writeTempo s w.ctx).price ≤ (s.slot .a).budget) (hq : w.quota = 0xFFFFFFFF) :
    ∃ n, admitWrite w off line data mask poison s = (admitNow w off line data mask poison [(.a, line)] s, .done n) := by
  have hhomes : writeHomes s line = [(.a, line)] := by simp [writeHomes, hduet]
  have hadmit : admitHomes s line (writeTempo s w.ctx).price = [(.a, line)] := by simp [admitHomes, hduet, hhomes]
  have hroom : noRoom s line = false := by
    have h1 : ¬capLines s ≤ dirty s + s.pc.relSlots.at s.now := by omega
    have h2 : ¬s.pc.availNj < rsvdNj s + eLine := by simp only [eLine]; omega
    simp [noRoom, h1, h2]
  have hout : wearOutAt s [(.a, line)] (writeTempo s w.ctx).price = none := by
    have h : ¬(s.slot .a).budget < spentOf (s.slot .a) + (writeTempo s w.ctx).price := by omega
    simp [wearOutAt, h]
  refine ⟨admittedIn (admitNow w off line data mask poison [(.a, line)] s) line, ?_⟩
  · simp only [admitWrite, hadmit, hhomes, hroom, hout, hq, List.filter_cons, ha]
    rfl

@[simp] theorem spendTokens_pc (c : Ctx) (k : Nat) (s : State) : (spendTokens c k s).pc = s.pc := modTenant_pc _ _ _
@[simp] theorem spendTokens_gl (c : Ctx) (k : Nat) (s : State) : (spendTokens c k s).gl = s.gl := modTenant_gl _ _ _
@[simp] theorem spendTokens_ct (c : Ctx) (k : Nat) (s : State) : (spendTokens c k s).ct = s.ct := modTenant_ct _ _ _
@[simp] theorem spendTokens_md (c : Ctx) (k : Nat) (s : State) : (spendTokens c k s).md = s.md := modTenant_md _ _ _
@[simp] theorem spendTokens_hl (c : Ctx) (k : Nat) (s : State) : (spendTokens c k s).hl = s.hl := modTenant_hl _ _ _

@[simp] theorem askTag_pc (k : TagClass) (s : State) : (askTag k s).pc = s.pc := arbitrate_pc _ _ _ _
@[simp] theorem askTag_ct (k : TagClass) (s : State) : (askTag k s).ct = s.ct := arbitrate_ct _ _ _ _
@[simp] theorem askTag_md (k : TagClass) (s : State) : (askTag k s).md = s.md := arbitrate_md _ _ _ _
@[simp] theorem askTag_hl (k : TagClass) (s : State) : (askTag k s).hl = s.hl := arbitrate_hl _ _ _ _
@[simp] theorem askTag_ingress (k : TagClass) (s : State) : (askTag k s).gl.ingress = s.gl.ingress := arbitrate_gl_ingress _ _ _ _

theorem askTag_tn {s : State} (k : TagClass) (h : MinuteOpen s) : (askTag k s).tn = s.tn := by
  unfold askTag
  rw [show arbitrate .tag k.num (tagWaiting s) s = _ from arbitrate_arbitrated .tag k.num (tagWaiting s) h]

@[simp] theorem takeTag_ingress (k : TagClass) (c : Ctx) (s : State) : (takeTag k c s).gl.ingress = s.gl.ingress := rfl

@[simp] theorem modReq_pc (id : Nat) (f : Req → Req) (s : State) : (modReq id f s).pc = s.pc := rfl
@[simp] theorem modReq_ct (id : Nat) (f : Req → Req) (s : State) : (modReq id f s).ct = s.ct := rfl
@[simp] theorem modReq_md (id : Nat) (f : Req → Req) (s : State) : (modReq id f s).md = s.md := rfl
@[simp] theorem modReq_hl (id : Nat) (f : Req → Req) (s : State) : (modReq id f s).hl = s.hl := rfl
@[simp] theorem modReq_tn (id : Nat) (f : Req → Req) (s : State) : (modReq id f s).tn = s.tn := rfl

/-- The ASN and the price of a context's writes are no matter of its tokens and shares. -/
theorem spendTokens_charge (c : Ctx) (k : Nat) (s : State) :
    ((spendTokens c k s).tenant c).lastAsn = (s.tenant c).lastAsn ∧ ((spendTokens c k s).tenant c).used = (s.tenant c).used := by
  unfold spendTokens
  rw [modTenant_tenant]
  split <;> exact ⟨rfl, rfl⟩

theorem freeShare_charge (c : Ctx) (s : State) :
    ((freeShare c s).tenant c).lastAsn = (s.tenant c).lastAsn ∧ ((freeShare c s).tenant c).used = (s.tenant c).used := by
  unfold freeShare
  rw [modTenant_tenant]
  exact ⟨rfl, rfl⟩

/-- What taking the tag and the tokens leaves as it was. -/
theorem accept_untagged {r : Req} {s : State} (ht : r.tag = none) (ho : MinuteOpen s) :
    (accept r s).pc = s.pc ∧ (accept r s).ct = s.ct ∧ (accept r s).md = s.md ∧ (accept r s).hl = s.hl ∧
    (∃ id, (accept r s).gl.ingress =
      update (fun q => q.id = r.id) (fun q => { q with stage := .tagged, tag := some id }) s.gl.ingress) ∧
    ((accept r s).tenant r.ctx).lastAsn = (s.tenant r.ctx).lastAsn ∧ ((accept r s).tenant r.ctx).used = (s.tenant r.ctx).used := by
  have he : ∃ id, accept r s = modReq r.id (fun q => { q with stage := .tagged, tag := some id })
      (if r.unlimited then freeShare r.ctx (takeTag .hwr r.ctx (askTag .hwr s))
       else spendTokens r.ctx r.lines (freeShare r.ctx (takeTag .hwr r.ctx (askTag .hwr s)))) := by
    refine ⟨(newTag (askTag .hwr s) .hwr r.ctx).id, ?_⟩
    unfold accept
    rw [if_neg (by simp [ht])]
  obtain ⟨id, he⟩ := he
  have htn : (takeTag .hwr r.ctx (askTag .hwr s)).tn = s.tn := by rw [takeTag_tn, askTag_tn _ ho]
  obtain ⟨ha, hu⟩ := freeShare_charge r.ctx (takeTag .hwr r.ctx (askTag .hwr s))
  simp only [State.tenant, htn] at ha hu
  rw [he]
  split
  · exact ⟨by simp, by simp, by simp, by simp, ⟨id, by simp [modReq]⟩, ha, hu⟩
  · obtain ⟨ha', hu'⟩ := spendTokens_charge r.ctx r.lines (freeShare r.ctx (takeTag .hwr r.ctx (askTag .hwr s)))
    exact ⟨by simp, by simp, by simp, by simp, ⟨id, by simp [modReq]⟩, ha'.trans ha, hu'.trans hu⟩

/-- The only request retires: it leaves the pipeline, with its tag, and nothing else changes (R53). -/
theorem retire_only {q : Req} {s : State} (hi : s.gl.ingress = [q]) (hx : s.hl.effCxl = false) :
    (retire q.id s).gl.ingress = [] ∧ (retire q.id s).pc = s.pc ∧ (retire q.id s).ct = s.ct ∧ (retire q.id s).md = s.md ∧
    (retire q.id s).tn = s.tn := by
  have hg : (dropTag? q.tag s).gl.ingress = [q] := by cases q.tag <;> exact hi
  simp [retire, hi, hx, hg]

/-- The last line of an unverified write lets the request retire. -/
theorem lineAdmitted_only {r q : Req} {s : State} (hi : s.gl.ingress = [q]) (hid : q.id = r.id) (hu : q.unverified = 0)
    (hx : s.hl.effCxl = false) :
    (lineAdmitted r false [] s).gl.ingress = [] ∧ (lineAdmitted r false [] s).pc = s.pc ∧ (lineAdmitted r false [] s).ct = s.ct ∧
    (lineAdmitted r false [] s).md = s.md ∧ (lineAdmitted r false [] s).tn = s.tn := by
  have hone : (modReq r.id (fun q => { q with parts := [], unverified := if false = true then q.unverified + 1 else q.unverified })
      s).gl.ingress = [{ q with parts := [] }] := by simp [modReq, hi, update, hid]
  have he : lineAdmitted r false [] s = retire q.id (modReq r.id (fun q => { q with
      parts := [], unverified := if false = true then q.unverified + 1 else q.unverified }) s) := by
    unfold lineAdmitted
    simp only [hone]
    simp [hid, hu]
  rw [he]
  exact retire_only (q := { q with parts := [] }) hone hx

/-- Nothing holds back a write that stands alone, its share entry taken (Table 2.4). -/
theorem writeDue_alone {s : State} {r : Req} {p : LinePart} {rest : List LinePart} (hi : s.gl.ingress = [r]) (hw : r.write = true)
    (hp : r.parts = p :: rest) (hs : r.stage = .share) (hb : mediaBeats s = []) (hd : s.pc.drain = none)
    (he : s.pw.entering = false) (ha : afterReplay s = true) (hsc : s.bt.scan = false)
    (ht : r.unlimited = true ∨ hasTokens s r.ctx r.lines = true) : writeDue s r = true := by
  have htok : reqTokens s r r.lines = true := by rcases ht with h | h <;> simp [reqTokens, h]
  simp [writeDue, hp, hw, hs, heldBack, hostAhead, beatAhead, hi, hb, hd, he, ha, hsc, htok]

/-- The writer of a host request's line. -/
def hostWriter (r : Req) (req : Option Nat) : Writer :=
  { ctx := r.ctx, verified := r.verified, cycle := r.cycle, rank := hostRank, quota := r.quota, req := req, chan := none }

/-- The one line of a posted write that is due and admitted: the request takes its tag and tokens, and retires if it may. -/
theorem admitLine_posted {s t : State} {r : Req} {p : LinePart} {n : Nat} (hi : s.gl.ingress = [r]) (hp : r.parts = [p])
    (hdue : writeDue s r = true) (htag : tagFree s .hwr r.ctx = true) (hrest : s.pw.state ≠ .rest)
    (hv : r.verified = false) (hf : forcedVerified s = false)
    (ha : admitWrite (hostWriter r none) p.off (r.base + p.off) p.data p.mask r.poison s = (t, .done n)) :
    admitLine r.id s = lineAdmitted r false [] (accept r t) := by
  have hfind : s.gl.ingress.find? (fun q => decide (q.id = r.id)) = some r := by simp [hi]
  have hgate : ¬((!writeDue s r || r.tag.isNone && !tagFree s .hwr r.ctx) = true) := by simp [hdue, htag]
  simp only [admitLine, hfind, hp, if_neg hgate, if_neg hrest, hv, hf, Bool.or_self, Bool.false_eq_true, if_false]
  simp only [hostWriter, hv] at ha
  rw [ha]

/-- A charge is added to the slot's uncharged wear, and leaves the other slot alone (R83). -/
theorem chargeSlot_slots (x : Slot) (n : Nat) (s : State) :
    ((chargeSlot x n s).slot x).uncharged = (s.slot x).uncharged + n ∧ (chargeSlot x n s).slot x.other = s.slot x.other := by
  unfold chargeSlot
  extract_lets u t
  have hu : (u.slot x).uncharged = (s.slot x).uncharged + n ∧ u.slot x.other = s.slot x.other := by simp [u]
  split
  · have hr := slot_congr _ (raiseSer_ct (modSlot x (fun t => { t with eolWarn := true }) u) x cCART_EOL_WARN t.serial)
    rw [hr, hr, modSlot_slot, modSlot_slot_other]
    exact hu
  · exact hu

/-- What a line's charge leaves of the context, the slots, and the minute. -/
theorem charged_effect (c : Ctx) (t : Tempo) (s : State) :
    ((charged c .a t s).tenant c).lastAsn = s.pc.asn + 1 ∧ ((charged c .a t s).tenant c).used = (s.tenant c).used + t.price ∧
    ((charged c .a t s).slot .a).uncharged = (s.slot .a).uncharged + t.price ∧ (charged c .a t s).slot .b = s.slot .b ∧
    (charged c .a t s).lg.closing = s.lg.closing := by
  have htn : (charged c .a t s).tn = (modTenant c (fun u => { u with lastAsn := s.pc.asn + 1, used := u.used + t.price })
      { s with pc := { s.pc with asn := s.pc.asn + 1 } }).tn := by simp [charged]
  obtain ⟨ha, hb⟩ := chargeSlot_slots .a t.price (modTenant c (fun u => { u with lastAsn := s.pc.asn + 1, used := u.used + t.price })
      { s with pc := { s.pc with asn := s.pc.asn + 1 } })
  have hlg : (charged c .a t s).lg.closing = s.lg.closing := by
    simp only [charged, count, modLive, chargeSlot_lg, modTenant_lg]
  simp only [State.tenant, htn]
  refine ⟨?_, ?_, ha, hb, hlg⟩ <;> simp [modTenant, modAt]

/-- Settles O24: the checks pass, the line takes its slot and its charge, and the request, which waits for nothing, retires. -/
theorem lineAdmissionTakesASlot : Obligations.LineAdmissionTakesASlot := by
  intro s r p hi hw hk hp hst htag hv hu hx hf hb ho hus hd hsc he htf htok hduet ha hdirty hcap hnj hwear hq
  have hafter : afterReplay s = true := by simp [afterReplay, notTest, usualField, hus]
  have hrest : s.pw.state ≠ .rest := by intro h; simp [usual, h] at hus
  have hdue := writeDue_alone hi hw hp hst hb hd he hafter hsc htok
  obtain ⟨n, hadm⟩ := admitWrite_soloA (w := hostWriter r none) (off := p.off) (line := r.base + p.off) (data := p.data)
    (mask := p.mask) (poison := r.poison) (s := { s with out := [] }) hduet ha hcap hnj hwear hq
  rw [admitNow_fresh (s := { s with out := [] }) (x := .a) hdirty ha] at hadm
  have hline := admitLine_posted (s := { s with out := [] }) hi hp hdue htf hrest hv hf hadm
  obtain ⟨hasn, hused, hsa, hsb, hclose⟩ := charged_effect r.ctx (writeTempo s r.ctx) { s with out := [] }
  have hmi : (slotTaken (hostWriter r none) p.off (r.base + p.off) (r.base + p.off) p.data p.mask r.poison .a
      { s with out := [] }).gl.ingress = [r] := (congrArg Gl.ingress (charged_gl _ _ _ _)).trans hi
  obtain ⟨hpc, hct, hmd, hhl, ⟨id, hing⟩, hasn', hused'⟩ := accept_untagged (r := r) (s := slotTaken (hostWriter r none) p.off
    (r.base + p.off) (r.base + p.off) p.data p.mask r.poison .a { s with out := [] }) htag (hclose.trans ho)
  rw [hmi] at hing
  simp only [update, decide_true, if_true] at hing
  obtain ⟨hri, hrpc, hrct, hrmd, hrtn⟩ := lineAdmitted_only (r := r) hing rfl hu
    (by rw [hhl]; exact (congrArg Hl.effCxl (charged_hl _ _ _ _)).trans hx)
  have hserve := serveReads_writes (s := _) (by rw [hri]; simp)
  refine ⟨_, congrArg (fun t => Host.Outcome.next (noteHol t)) ((congrArg serveReads hline).trans hserve),
    ⟨_, (congrArg Pc.slots (hrpc.trans hpc) :), rfl, rfl, rfl, rfl, rfl, rfl, rfl, ?_, rfl, rfl, rfl⟩,
    (congrArg Pc.asn (hrpc.trans hpc) :), hri, ?_, ?_, ?_, ?_, ?_⟩
  · exact (congrArg₂ or hv hf :)
  · exact (congrArg (fun u : Tn => u.ctx[r.ctx].lastAsn) hrtn :).trans (hasn'.trans hasn)
  · exact (congrArg (fun u : Tn => u.ctx[r.ctx].used) hrtn :).trans (hused'.trans hused)
  · exact (congrArg (fun u : Ct => u.a.uncharged) (hrct.trans hct) :).trans hsa
  · exact (congrArg Ct.b (hrct.trans hct) :).trans hsb
  · exact hrmd.trans (hmd.trans (charged_md _ _ _ _))

end Sys2Proof.Machine

namespace Sys2Proof.Machine

/-! ### Time passes at an arbiter, and what was judged stays so -/

/-- Some cycles later, with nothing changed but the arbiters' records. -/
def Later (s t : State) : Prop := Arbitrated s t ∧ s.now ≤ t.now

theorem Later.refl (s : State) : Later s s := ⟨rfl, Nat.le_refl _⟩

theorem Later.trans {s t u : State} (h : Later s t) (k : Later t u) : Later s u := ⟨h.1.trans k.1, h.2.trans k.2⟩

@[simp] theorem setArb_now (i : ArbId) (a : Arb) (s : State) : (setArb i a s).now = s.now := by cases i <;> rfl

@[simp] theorem grantTo_now (i : ArbId) (who : Nat) (l : List Nat) (s : State) : (grantTo i who l s).now = s.now := by
  unfold grantTo noteWait
  extract_lets a others waits b
  split <;> exact setArb_now i b s

theorem nextGrant_now_le (i : ArbId) (s : State) : s.now ≤ (nextGrant i s).now := by
  unfold nextGrant; split
  · rw [passCycle_now]; exact Nat.le_succ _
  · exact Nat.le_refl _

theorem grantUntil_now_le (i : ArbId) (who n : Nat) : ∀ (l : List Nat) (s : State), s.now ≤ (grantUntil i who n l s).now := by
  induction n with
  | zero => intro l s; exact Nat.le_refl _
  | succ n ih =>
    intro l s
    simp only [grantUntil]
    have h := nextGrant_now_le i s
    split
    · exact h
    · split
      · rw [grantTo_now]; exact h
      · refine Nat.le_trans ?_ (ih _ _)
        rw [setArb_now, grantTo_now]; exact h

theorem arbitrate_now_le (i : ArbId) (who : Nat) (l : List Nat) (s : State) : s.now ≤ (arbitrate i who l s).now := by
  unfold arbitrate
  simp only
  split
  · rw [setArb_now]
  · exact Nat.le_trans (Nat.le_of_eq (setArb_now _ _ _).symm) (grantUntil_now_le i who _ _ _)

theorem arbitrate_later {s : State} (i : ArbId) (who : Nat) (l : List Nat) (h : MinuteOpen s) : Later s (arbitrate i who l s) :=
  ⟨arbitrate_arbitrated i who l h, arbitrate_now_le i who l s⟩

theorem askTag_later {s : State} (k : TagClass) (h : MinuteOpen s) : Later s (askTag k s) := arbitrate_later _ _ _ h

theorem askBanks_later {k : Nat} {l : List (Slot × Nat)} : ∀ {s : State}, MinuteOpen s → Later s (askBanks k l s) := by
  induction l with
  | nil => intro s _; exact Later.refl s
  | cons x l ih =>
    intro s h
    have hx : Later s (askBank k s x) := arbitrate_later _ _ _ h
    exact hx.trans (ih (hx.1.minuteOpen h))

/-- What the passing of cycles at an arbiter leaves, unit by unit. -/
theorem Arbitrated.same {s t : State} (h : Arbitrated s t) :
    t.pc = s.pc ∧ t.ct = s.ct ∧ t.md = s.md ∧ t.dm = s.dm ∧ t.tn = s.tn ∧ t.lg = s.lg ∧ t.pw = s.pw ∧ t.bt = s.bt ∧
    t.gl.tags = s.gl.tags ∧ t.gl.relTags = s.gl.relTags := by
  unfold Arbitrated at h
  rw [h]
  exact ⟨rfl, rfl, rfl, rfl, rfl, rfl, rfl, rfl, rfl, rfl⟩

/-- Where no tag was returned in this cycle, those in use are the ones that cannot be taken. -/
theorem takenTags_still {s : State} (h : ∀ r ∈ s.gl.relTags, r.1 < s.now) : takenTags s = s.gl.tags := by
  have hf : s.gl.relTags.filter (fun r => decide (r.1 = s.now)) = [] := by
    rw [List.filter_eq_nil_iff]
    intro r hr
    have := h r hr
    simp only [decide_eq_true_eq]
    omega
  simp [takenTags, hf]

/-- A later state is still where the earlier one was. -/
theorem Still.later {s t : State} (h : Still s) (k : Later s t) : Still t := by
  obtain ⟨ho, hr, hi⟩ := h
  obtain ⟨hpc, hct, hmd, hdm, htn, hlg, hpw, hbt, htags, hrel⟩ := k.1.same
  refine ⟨k.1.minuteOpen ho, fun r hr' => ?_, fun x n hx => ?_⟩
  · exact Nat.lt_of_lt_of_le (hr r (by rwa [hrel] at hr')) k.2
  · have hx' : inhibitedAt s x = some n := by cases x <;> simpa only [inhibitedAt, hmd] using hx
    exact (hi x n hx').trans k.2

theorem inhibitedAt_congr {s t : State} (h : t.md = s.md) (x : Slot) : inhibitedAt t x = inhibitedAt s x := by
  cases x <;> simp [inhibitedAt, h]

/-- Every inhibit registered is in force, then as now (R127). -/
theorem inhibited_later {s t : State} (h : Still s) (k : Later s t) (x : Slot) : inhibited t x = inhibited s x := by
  have hmd := k.1.same.2.2.1
  unfold inhibited
  rw [inhibitedAt_congr hmd]
  cases hx : inhibitedAt s x with
  | none => rfl
  | some n =>
    have hn := h.2.2 x n hx
    simp [hn, hn.trans k.2]

theorem tagFree_later {s t : State} (h : Still s) (k : Later s t) (cls : TagClass) (c : Ctx) : tagFree t cls c = tagFree s cls c := by
  obtain ⟨hpc, hct, hmd, hdm, htn, hlg, hpw, hbt, htags, hrel⟩ := k.1.same
  simp only [tagFree, takenTags_still h.2.1, takenTags_still (h.later k).2.1, htags]

/-- A slot's homes and its issue are judged alike after the grants (log 121). -/
theorem issuable_later {s t : State} (h : Still s) (k : Later s t) (g : HoldSlot) : issuable t g = issuable s g := by
  obtain ⟨hpc, hct, hmd, hdm, htn, hlg, hpw, hbt, htags, hrel⟩ := k.1.same
  simp only [issuable, inhibited_later h k, slot_congr s hct, reverifying, bankFree, linkReady, copyAhead, hmd, hdm]

theorem canIssue_later {s t : State} (h : Still s) (k : Later s t) (g : HoldSlot) : canIssue t g = canIssue s g := by
  obtain ⟨hpc, hct, hmd, hdm, htn, hlg, hpw, hbt, htags, hrel⟩ := k.1.same
  simp only [canIssue, issuable_later h k, tagFree_later h k, olderDirty, hpc]

theorem writesRun_congr {s t : State} (hpw : t.pw = s.pw) (hpc : t.pc = s.pc) (hbt : t.bt = s.bt) : writesRun t = writesRun s := by
  simp only [writesRun, restHeld, hpw, hpc, hbt]

/-! ### A write-back -/

/-- The oldest slot that can be written back is issued to its homes after its grants. -/
theorem backOldest_issues {s : State} {h : HoldSlot} (e : Sense) (hw : writesRun s = true) (hs : Still s)
    (hf : s.pc.slots.find? (fun h => canIssue s h) = some h) :
    ∃ t, Later s t ∧ backOldest e s = (issuable s h).foldl (issueHome h e) t := by
  have hl : Later s (askBanks bkBack (issuable s h) (if ownTag h then askTag .wbk s else s)) := by
    split
    · have ht := askTag_later .wbk hs.1
      exact ht.trans (askBanks_later (ht.1.minuteOpen hs.1))
    · exact askBanks_later hs.1
  refine ⟨_, hl, ?_⟩
  generalize ht : askBanks bkBack (issuable s h) (if ownTag h then askTag .wbk s else s) = t at hl
  obtain ⟨hpc, hct, hmd, hdm, htn, hlg, hpw, hbt, htags, hrel⟩ := hl.1.same
  have hwt : writesRun t = true := (writesRun_congr hpw hpc hbt).trans hw
  have hft : t.pc.slots.find? (fun h => canIssue t h) = some h := by simpa only [canIssue_later hs hl, hpc] using hf
  simp only [backOldest, hw, Bool.not_true, Bool.false_eq_true, if_false, hf, ht, issueOldest, hwt, hft, issuable_later hs hl]

/-- A request on a bank changes the bank's record and the link's (R48, R69). -/
theorem touchBank_shape (x : Slot) (cl : Nat) (s : State) :
    ∃ g c, touchBank x cl s = { s with gl := g, ct := c } := by
  unfold touchBank useLink
  cases x <;> exact ⟨_, _, rfl⟩

/-- A whole line is issued to its first home: the line-write stands behind the others, and the slot stays dirty (R25). -/
theorem issueHome_first {h : HoldSlot} {e : Sense} {x : Slot} {cl : Nat} {s : State} (hm : h.mask = fullMask) (hx : h.first = x)
    (hc : ownTag h = false ∨ tagFree s .wbk h.ctx = true) :
    ∃ g c tag, issueHome h e s (x, cl) = { s with
      gl := g, ct := c, md := { s.md with writes := s.md.writes ++ [homeWrite s h x cl h.data false tag] }
      pc := { s.pc with slots := update (fun g => g.id = h.id) (fun g => { g with issued := true }) s.pc.slots } } := by
  have hgate : ¬((ownTag h && !tagFree s .wbk h.ctx) = true) := by rcases hc with hc | hc <;> simp [hc]
  have hsec : decide (x ≠ h.first) = false := by simp [hx]
  simp only [issueHome, if_neg hgate, if_pos hm, homeWrite, hsec, Bool.false_eq_true, if_false]
  obtain ⟨g, c, ht⟩ := touchBank_shape x cl _
  refine ⟨g, c, ?_, ht.trans ?_⟩
  · exact if ownTag h then some (newTag s .wbk h.ctx).id else none
  · split <;> rfl

/-- Settles O31: the grants let cycles pass and change nothing that the issue reads. -/
theorem writeBackIssuesALineWrite : Obligations.WriteBackIssuesALineWrite := by
  refine ⟨?_, ?_⟩
  · intro s h x cl e hw hs hf hi hm hx
    obtain ⟨t, hl, hb⟩ := backOldest_issues (s := { s with out := [] }) e hw hs hf
    obtain ⟨hpc, hct, hmd, hdm, htn, hlg, hpw, hbt, htags, hrel⟩ := hl.1.same
    have hc : ownTag h = false ∨ tagFree t .wbk h.ctx = true := by
      have := List.find?_some hf
      simp only [canIssue, Bool.and_eq_true, Bool.or_eq_true, Bool.not_eq_true'] at this
      exact this.2.imp_right (tagFree_later (s := { s with out := [] }) hs hl _ _).trans
    have hb' : backOldest e { s with out := [] } = issueHome h e t (x, cl) :=
      hb.trans (congrArg (List.foldl (issueHome h e) t) (show issuable { s with out := [] } h = [(x, cl)] from hi))
    obtain ⟨g, c, tag, hi⟩ := issueHome_first (e := e) (cl := cl) (s := t) hm hx hc
    refine ⟨_, congrArg Host.Outcome.next (hb'.trans hi), ⟨_, congrArg (fun m : Md => m.writes ++ _) hmd, rfl, rfl, rfl, rfl, rfl, rfl,
      rfl, rfl, ?_, rfl, ?_⟩, ?_, ?_, htn, hlg⟩
    · exact (congrArg (fun u : Tn => u.ctx[h.ctx].keyNo) htn :)
    · exact (Bool.or_false _ :)
    · exact (congrArg (fun p : Pc => update (fun g => g.id = h.id) (fun g => { g with issued := true }) p.slots) hpc :)
    · exact (congrArg Pc.asn hpc :)
  · intro s e hw hs
    have hn : backOldest e { s with out := [] } = { s with out := [] } := by
      simp only [backOldest, hs, List.find?_nil, ite_self]
    exact congrArg Host.Outcome.next hn

end Sys2Proof.Machine

namespace Sys2Proof.Machine

/-! ### Flushes -/

theorem Arbitrated.eq {s t : State} (h : Arbitrated s t) : t = { s with now := t.now, gl := t.gl } :=
  Eq.trans h (congrArg (fun g => { s with now := t.now, gl := g }) (congrArg State.gl h).symm)

theorem dropTag?_gl (tag : Option Nat) (s : State) : dropTag? tag s = { s with gl := (dropTag? tag s).gl } := by
  cases tag <;> rfl

/-- With the link open an output goes out in its command, by the egress arbiter's grant (Table 2.9, row 1). -/
theorem send_open {o : Out} {k : Credit} (tag : Option Nat) {s : State} (h : LinkOpen s) (hk : o.credit = some k) :
    ∃ n g, send o tag s = { s with now := n, gl := g, out := s.out ++ [o] } := by
  obtain ⟨hc, he, hm⟩ := h
  obtain ⟨n, g, ha⟩ : ∃ n g, arbitrate .egress o.egress [] s = { s with now := n, gl := g } :=
    ⟨_, _, (arbitrate_arbitrated .egress o.egress [] hm).eq⟩
  refine ⟨n, _, Eq.trans ?_ (dropTag?_gl tag (emit o { s with now := n, gl := g }))⟩
  simp [send, hk, hc k, he, ha]

/-- A staged flush read, alone, takes its share entry and its tag (R53, R54, R61). -/
theorem advanceFlush_staged {f : Flush} {s : State} (hf : s.pc.flushes = [f]) (hst : f.stage = .staging)
    (hsh : shareFree s f.ctx = true) (ht : tagFree s .hrd f.ctx = true) (ho : MinuteOpen s) :
    ∃ id n g tn, advanceFlush f s =
        { s with now := n, gl := g, tn := tn, pc := { s.pc with flushes := [{ f with stage := .tagged, tag := some id }] } } ∧
      g.ingress = s.gl.ingress := by
  unfold advanceFlush
  extract_lets set s₁ s₂
  have h₁ : s₁ = { s with
      gl := { s.gl with relNonPosted := s.gl.relNonPosted.add s.now 1 }
      pc := { s.pc with flushes := [{ f with stage := .share }] } } := by
    simp [s₁, set, hst, hsh, freeStaging, hf, update]
  have hfind : s₁.pc.flushes.find? (fun g => decide (g.id = f.id)) = some { f with stage := .share } := by
    rw [h₁]; simp
  have htf : tagFree s₁ .hrd f.ctx = true := by rw [h₁]; exact ht
  have hm : MinuteOpen s₁ := by rw [h₁]; exact ho
  have hl : Later s₁ s₂ := askTag_later .hrd hm
  rw [hfind]
  simp only [htf, and_self, if_true]
  have hi : s₂.gl.ingress = s.gl.ingress := by
    show (askTag .hrd s₁).gl.ingress = _
    rw [askTag_ingress, h₁]
  clear_value s₂
  have he := hl.1.eq
  rw [h₁] at he
  refine ⟨(newTag s₂ .hrd f.ctx).id, s₂.now, (takeTag .hrd f.ctx s₂).gl, (freeShare f.ctx (takeTag .hrd f.ctx s₂)).tn, ?_, hi⟩
  simp only [set]
  generalize (newTag s₂ .hrd f.ctx).id = id
  rw [he]
  simp +zetaDelta [update, freeShare, modTenant, takeTag]

/-- A flush ends: it is gone from the pipeline and `o` goes out. -/
def Ended (f : Flush) (o : List Out) (s t : State) : Prop :=
  ∃ n g tn, t = { s with
      now := n, gl := g, tn := tn, out := s.out ++ o
      pc := { s.pc with flushes := s.pc.flushes.filter fun g => decide (g.id ≠ f.id) } } ∧
    (f.stage = .tagged → tn = s.tn)

theorem removeFlush_ended (f : Flush) (s : State) : Ended f [] s (removeFlush f s) := by
  refine ⟨s.now, (removeFlush f s).gl, (removeFlush f s).tn, ?_, ?_⟩
  · cases h : f.stage <;>
      simp [removeFlush, freeEntry, h, noteHol, freeStaging, freeShare, modTenant]
  · intro h
    simp [removeFlush, freeEntry, h, noteHol]

/-- An output follows the flush's end. -/
theorem Ended.send {f : Flush} {l : List Out} {o : Out} {k : Credit} {s t : State} (tag : Option Nat) (h : Ended f l s t) (hl : LinkOpen s)
    (hk : o.credit = some k) : Ended f (l ++ [o]) s (send o tag t) := by
  obtain ⟨n, g, tn, rfl, ht⟩ := h
  obtain ⟨n', g', he⟩ := send_open tag (s := { s with
      now := n, gl := g, tn := tn, out := s.out ++ l
      pc := { s.pc with flushes := s.pc.flushes.filter fun g => decide (g.id ≠ f.id) } }) hl hk
  exact ⟨n', g', tn, by rw [he, List.append_assoc], ht⟩

theorem Ended.emit {f : Flush} {l : List Out} {s t : State} (h : Ended f l s t) (o : Out) : Ended f (l ++ [o]) s (emit o t) := by
  obtain ⟨n, g, tn, rfl, ht⟩ := h
  exact ⟨n, g, tn, by rw [Machine.emit, List.append_assoc], ht⟩

theorem Ended.dropTag {f : Flush} {l : List Out} {s t : State} (h : Ended f l s t) (tag : Option Nat) : Ended f l s (dropTag? tag t) := by
  obtain ⟨n, g, tn, rfl, ht⟩ := h
  exact ⟨n, _, tn, dropTag?_gl _ _, ht⟩

/-- A zero-length read completes with no data (R232). -/
theorem endFlush_zero {f : Flush} {fn : Fn} {s : State} (done : Bool) (hz : f.zero = some fn) (hl : LinkOpen s) :
    Ended f [.completion fn .sc false []] s (endFlush f done s) := by
  simp only [endFlush, hz]
  exact (removeFlush_ended f s).send f.tag hl rfl

/-- A flush that no read waits for shows its end alone (SP0, Table 1.14). -/
theorem endFlush_bare {f : Flush} {s : State} (done : Bool) (hz : f.zero = none) (hr : f.read = none) :
    Ended f [.flushDone f.id done (BitVec.ofNat 31 (durableAsn s f))] s (endFlush f done s) := by
  simp only [endFlush, hz, hr]
  exact ((removeFlush_ended f s).emit _).dropTag f.tag

/-- A word access that names PC_FLUSH returns the flush's value (Table 1.14). -/
theorem flushBytes_word {fn : Fn} {bar : Bar} {off : Nat} {scope : FlushScope} {s : State} (w : Word) (hp : parts off 4 = some [⟨off, 15, 0, 4⟩])
    (h : flushScope s fn bar off = some scope) :
    flushBytes fn bar w ((parts off 4).getD []) s = (s, leBytes 4 w.toNat) := by
  simp [hp, flushBytes, h, Part.bytes, wordBytes, leBytes, lowByte, bit]

/-- A flush read of PC_FLUSH's word completes with DONE and the ASN reached (Table 1.14). -/
theorem endFlush_read {f : Flush} {fn : Fn} {bar : Bar} {off : Nat} {scope : FlushScope} {s : State} {n : Nat} (done : Bool) (ha : durableAsn s f = n) (hz : f.zero = none)
    (hr : f.read = some (fn, bar, off, 4)) (hp : parts off 4 = some [⟨off, 15, 0, 4⟩])
    (hs : ∀ n g tn l q, flushScope { s with now := n, gl := g, tn := tn, out := l, pc := q } fn bar off = some scope) (hl : LinkOpen s) :
    Ended f [.flushDone f.id done (BitVec.ofNat 31 (n)),
      .completion fn .sc false (leBytes 4 (put (BitVec.ofNat 31 (n)).toNat 1 ||| putB done 0).toNat)] s
      (endFlush f done s) := by
  have h := (removeFlush_ended f s).emit (.flushDone f.id done (BitVec.ofNat 31 (n)))
  have hw : flushScope (emit (.flushDone f.id done (BitVec.ofNat 31 (n))) (removeFlush f s)) fn bar off = some scope := by
    obtain ⟨_, _, _, he, -⟩ := h
    rw [he]
    exact hs _ _ _ _ _
  simp only [endFlush, hz, hr, ha, flushBytes_word _ hp hw]
  exact h.send f.tag hl rfl

/-! ### A flush that nothing holds back -/

/-- A tagged flush is ready where no write and no failure message of its own is left (R22, R349). -/
theorem flushReady_empty {f : Flush} {s : State} (ht : f.tag.isSome = true) (hw : f.waits = []) (hi : s.gl.ingress = [])
    (hd : flushDurable s f = true) : flushReady s f = true := by
  have hwait : ∀ fn, waitsForWrites s fn f.before = false := fun fn => by simp [waitsForWrites, hi]
  unfold flushReady
  cases h : f.zero <|> f.read.map fun r => r.1 <;> simp [ht, hw, hd, hwait]

theorem flushDurable_empty {f : Flush} {s : State} (hl : f.lost = none) (hi : s.gl.ingress = []) (hs : s.pc.slots = []) :
    flushDurable s f = true := by
  simp [flushDurable, notDurable, hl, hi, hs]

theorem durableAsn_empty {f : Flush} {s : State} (hl : f.lost = none) (hs : s.pc.slots = []) : durableAsn s f = s.pc.asn := by
  simp [durableAsn, flushPending, hl, hs]

/-- A flush with its tag goes no further before it ends. -/
theorem advanceFlush_tagged {f : Flush} {s : State} (hf : s.pc.flushes = [f]) (ht : f.stage = .tagged) : advanceFlush f s = s := by
  simp [advanceFlush, hf, ht]

/-- What a tagged flush alone does that is ready (R22). -/
theorem tryFlush_tagged {f : Flush} {s : State} (hf : s.pc.flushes = [f]) (ht : f.stage = .tagged) (hr : flushReady s f = true)
    (hd : flushDurable s f = true) : tryFlush f.id s = endFlush f true s := by
  simp [tryFlush, hf, advanceFlush_tagged hf ht, hr, hd]

/-- A share is free by what holds it and by what left it in this cycle (R51, R62). -/
theorem shareFree_congr {s t : State} {c : Ctx} (hh : heldBy t c = heldBy s c) (htn : t.tenant c = s.tenant c) (hn : t.now = s.now) :
    shareFree t c = shareFree s c := by
  rw [shareFree, shareFree, hh, htn, hn]

/-- A staged flush that nothing holds back takes its tag and ends (R22). -/
theorem tryFlush_staged {f : Flush} {s : State} (hf : s.pc.flushes = [f]) (hst : f.stage = .staging) (hl : f.lost = none)
    (hw : f.waits = []) (hi : s.gl.ingress = []) (hs : s.pc.slots = []) (hsh : shareFree s f.ctx = true)
    (ht : tagFree s .hrd f.ctx = true) (ho : MinuteOpen s) :
    ∃ id n g tn, tryFlush f.id s = endFlush { f with stage := .tagged, tag := some id } true
      { s with now := n, gl := g, tn := tn, pc := { s.pc with flushes := [{ f with stage := .tagged, tag := some id }] } } := by
  obtain ⟨id, n, g, tn, he, hg⟩ := advanceFlush_staged hf hst hsh ht ho
  refine ⟨id, n, g, tn, ?_⟩
  have hd := flushDurable_empty (f := { f with stage := .tagged, tag := some id })
    (s := { s with now := n, gl := g, tn := tn, pc := { s.pc with flushes := [{ f with stage := .tagged, tag := some id }] } })
    hl (hg.trans hi) hs
  have hr := flushReady_empty (f := { f with stage := .tagged, tag := some id }) rfl hw (hg.trans hi) hd
  simp [tryFlush, hf, he, hr, hd]

/-- A flush registered where nothing waits takes its tag and ends with every write durable and the present ASN (R22, R23). -/
theorem startFlush_durable {scope : FlushScope} {zero : Option Fn} {read : Option (Fn × Bar × Nat × Nat)} {s : State}
    (hn : NothingWaits s) (hsh : shareFree s (flushCtx scope) = true) (ht : tagFree s .hrd (flushCtx scope) = true) (ho : MinuteOpen s) :
    ∃ (f : Flush) (n : Nat) (g : Gl) (tn : Tn), f.id = s.pc.nextFlush ∧ f.zero = zero ∧ f.read = read ∧ f.lost = none ∧
      startFlush scope zero read s = endFlush f true { count (flushCtx scope) addOp s with
        now := n, gl := g, tn := tn, pc := { s.pc with flushes := [f], nextFlush := s.pc.nextFlush + 1 } } := by
  obtain ⟨hi, hf, hs, hm⟩ := hn
  have hw : (newFlush scope zero read s).waits = [] := by simp [newFlush, hm]
  have hstart : startFlush scope zero read s = tryFlush (newFlush scope zero read s).id { count (flushCtx scope) addOp s with
      pc := { s.pc with flushes := s.pc.flushes ++ [newFlush scope zero read s], nextFlush := s.pc.nextFlush + 1 } } := rfl
  rw [hf, List.nil_append] at hstart
  have hshare : shareFree { count (flushCtx scope) addOp s with
      pc := { s.pc with flushes := [newFlush scope zero read s], nextFlush := s.pc.nextFlush + 1 } } (flushCtx scope) = true :=
    Eq.trans (b := shareFree s (flushCtx scope)) (shareFree_congr (by simp [heldBy, hf, newFlush]) rfl rfl) hsh
  obtain ⟨id, n, g, tn, he⟩ := tryFlush_staged (f := newFlush scope zero read s) (s := { count (flushCtx scope) addOp s with
      pc := { s.pc with flushes := [newFlush scope zero read s], nextFlush := s.pc.nextFlush + 1 } })
    rfl rfl rfl hw hi hs hshare ht ho
  exact ⟨_, n, g, tn, rfl, rfl, rfl, rfl, hstart.trans he⟩

/-! ### The reads that are flushes -/

/-- A flush that ends where it stood alone leaves none, and shows what went out. -/
theorem Ended.alone {f : Flush} {l : List Out} {s t : State} (h : Ended f l s t) (hf : s.pc.flushes = [f]) :
    t.pc = { s.pc with flushes := [] } ∧ t.out = s.out ++ l ∧ t.md = s.md ∧ t.lg = s.lg ∧ t.ev = s.ev := by
  obtain ⟨n, g, tn, rfl, -⟩ := h
  simp [hf]

/-- R22: the PC_FLUSH value of a flush that is done. -/
theorem doneWord (n : Nat) : (put (BitVec.ofNat 31 n).toNat 1 ||| putB true 0 : Word).toNat = 1 + 2 * (n % 2 ^ 31) := by
  have hor : (n % 2 ^ 31) <<< 1 ||| 1 = (n % 2 ^ 31) <<< 1 + 1 := (Nat.shiftLeft_add_eq_or_of_lt (by decide) _).symm
  have hlt : (n % 2 ^ 31) <<< 1 < 2 ^ 32 := by rw [Nat.shiftLeft_eq]; omega
  have hput : (put (n % 2 ^ 31) 1).toNat = (n % 2 ^ 31) <<< 1 := Nat.mod_eq_of_lt hlt
  rw [BitVec.toNat_or, BitVec.toNat_ofNat, hput]
  exact hor.trans (by rw [Nat.shiftLeft_eq]; omega)

/-- A host read that names PC_FLUSH with nothing waiting ends with DONE = 1 (R22, R23). -/
theorem hostRead_flush {fn : Fn} {bar : Bar} {off : Nat} {scope : FlushScope} {s : State} (hr : reaches s .bar0 = true)
    (hsf : stagingFree s false = true) (hn : NothingWaits s) (hsh : shareFree s (flushCtx scope) = true)
    (ht : tagFree s .hrd (flushCtx scope) = true) (hl : LinkOpen s) (hp : parts off 4 = some [⟨off, 15, 0, 4⟩])
    (htg : (∃ o, targetOf s fn bar off = .regs o) ∨ ∃ w o, targetOf s fn bar off = .window w o)
    (hs : ∀ n g tn l q k, flushScope { s with now := n, gl := g, tn := tn, out := l, pc := q, lg := k } fn bar off = some scope) :
    ∃ t, hostRead fn bar off 4 [] s = t ∧ t.pc.flushes = [] ∧
      t.out = s.out ++ [.flushDone s.pc.nextFlush true (BitVec.ofNat 31 s.pc.asn),
        .completion fn .sc false (leBytes 4 (1 + 2 * (s.pc.asn % 2 ^ 31)))] := by
  have hstart : hostRead fn bar off 4 [] s = startFlush scope none (some (fn, bar, off, 4)) s := by
    have hscope : flushScope s fn bar off = some scope := hs s.now s.gl s.tn s.out s.pc s.lg
    obtain ⟨o, htg⟩ | ⟨w, o, htg⟩ := htg <;>
      simp [hostRead, hr, hsf, htg, registerRead, widthOk, hp, hscope]
  obtain ⟨f, n, g, tn, hid, hz, hread, hlost, he⟩ := startFlush_durable (scope := scope) (zero := none) (read := some (fn, bar, off, 4))
    hn hsh ht hl.2.2
  have hend := endFlush_read (f := f) (s := { count (flushCtx scope) addOp s with
        now := n, gl := g, tn := tn, pc := { s.pc with flushes := [f], nextFlush := s.pc.nextFlush + 1 } }) true (durableAsn_empty hlost hn.2.2.1) hz hread hp
    (fun n g tn l q => hs n g tn l q _) hl
  obtain ⟨hpc, hout, -⟩ := hend.alone rfl
  rw [doneWord, hid] at hout
  exact ⟨_, hstart.trans he, congrArg Pc.flushes hpc, hout⟩

/-- A zero-length read of a function with nothing waiting completes (R232). -/
theorem zeroRead_durable {fn : Fn} {s : State} (hm : memOn s fn = true) (hsf : stagingFree s false = true) (hn : NothingWaits s)
    (hsh : shareFree s fn.ctx = true) (ht : tagFree s .hrd fn.ctx = true) (hl : LinkOpen s) :
    ∃ t, zeroRead fn s = t ∧ t.pc.flushes = [] ∧ t.pc.asn = s.pc.asn ∧ t.out = s.out ++ [.completion fn .sc false []] ∧
      t.lg = (count fn.ctx addOp s).lg := by
  obtain ⟨scope, hc, hz⟩ : ∃ scope, flushCtx scope = fn.ctx ∧ zeroRead fn s = startFlush scope (some fn) none s := by
    cases fn with
    | pf => exact ⟨.all, rfl, by simp [zeroRead, hsf, hm]⟩
    | vf v => exact ⟨.tenant v, rfl, by simp [zeroRead, hsf, hm]⟩
  rw [← hc] at hsh ht ⊢
  obtain ⟨f, n, g, tn, -, hzero, -, -, he⟩ := startFlush_durable (scope := scope) (zero := some fn) (read := none) hn hsh ht hl.2.2
  obtain ⟨hpc, hout, -, hlg, -⟩ := (endFlush_zero (f := f) (s := { count (flushCtx scope) addOp s with
        now := n, gl := g, tn := tn, pc := { s.pc with flushes := [f], nextFlush := s.pc.nextFlush + 1 } }) true hzero hl).alone rfl
  exact ⟨_, hz.trans he, congrArg Pc.flushes hpc, (congrArg Pc.asn hpc :), hout, hlg⟩

theorem target_flush {s : State} (hm : memOn s .pf = true) : targetOf s .pf .bar0 0x428 = .regs 0x428 := by
  simp [targetOf, hm]

theorem flushScope_flush {s : State} (hm : memOn s .pf = true) : flushScope s .pf .bar0 0x428 = some .all := by
  simp [flushScope, target_flush hm]

/-- PC_FLUSH of a tenant's window in BAR4 (R139, Table 8.2). -/
theorem target_window {s : State} {v : Fin 128} (hm : memOn s .pf = true) (hv : vfOn s v = false) :
    targetOf s .pf .bar4 (v.val * 4096 + 0x14) = .window v 0x14 := by
  have hlt : v.val * 4096 + 0x14 < 0x80000 := by omega
  have hpage : (v.val * 4096 + 0x14) / 4096 % 128 = v.val := by omega
  have hoff : (v.val * 4096 + 0x14) % 4096 = 0x14 := by omega
  simp only [targetOf, hm, bar4Target, hlt, if_true, hpage, hoff, Fin.eta, hv, Bool.not_true, if_neg Bool.false_ne_true]

theorem flushScope_window {s : State} {v : Fin 128} (hm : memOn s .pf = true) (hv : vfOn s v = false) :
    flushScope s .pf .bar4 (v.val * 4096 + 0x14) = some (.tenant v) := by
  simp [flushScope, target_window hm hv]

theorem parts_window (v : Fin 128) : parts (v.val * 4096 + 0x14) 4 = some [⟨v.val * 4096 + 0x14, 15, 0, 4⟩] := by
  have hword : (v.val * 4096 + 20) / 8 = (v.val * 4096 + 23) / 8 := by omega
  have halign : (v.val * 4096 + 0x14) % 4 = 0 := by omega
  simp [parts, hword, halign, enables]

/-- A flush's 40 ms are over (R22). -/
theorem lateFlush_due {f : Flush} {s : State} (hf : s.pc.flushes = [f]) (hn : f.cycle + 40000000 ≤ s.now) :
    lateFlush f.id s = endFlush f (flushDurable s f) (match f.zero, flushDurable s f with
      | some fn, false => raise uPC cFLUSH_LATE (ctxByte fn.ctx) (lo32 fn.num) (lo32 (durableAsn s f)) 0 s
      | _, _ => s) := by
  unfold lateFlush
  simp only [hf, List.find?_cons_of_pos, decide_true, Nat.not_lt.mpr hn, if_false] <;> rfl

/-- A zero-length read that has waited 40 ms completes; FLUSH_LATE tells that a covered write is not durable (R22). -/
theorem lateFlush_zero {f : Flush} {fn : Fn} {s : State} (hf : s.pc.flushes = [f]) (hz : f.zero = some fn)
    (hn : f.cycle + 40000000 ≤ s.now) (hl : LinkOpen s) :
    (lateFlush f.id s).pc = { s.pc with flushes := [] } ∧ (lateFlush f.id s).out = s.out ++ [.completion fn .sc false []] ∧
      (flushDurable s f = true → (lateFlush f.id s).ev = s.ev) ∧
      (flushDurable s f = false → s.ev.logOpen = true → ∃ e ∈ (lateFlush f.id s).ev.intake, e.code = cFLUSH_LATE ∧ e.unit = uPC) := by
  rw [lateFlush_due hf hn, hz]
  cases hd : flushDurable s f with
  | true =>
    obtain ⟨hpc, hout, -, -, hev⟩ := (endFlush_zero true hz hl).alone hf
    exact ⟨hpc, hout, fun _ => hev, fun h => absurd h (by decide)⟩
  | false =>
    obtain ⟨hpc, hout, -, -, hev⟩ := (endFlush_zero (f := f)
      (s := raise uPC cFLUSH_LATE (ctxByte fn.ctx) (lo32 fn.num) (lo32 (durableAsn s f)) 0 s) false hz
      ⟨fun k => by simpa [hasCredit] using hl.1 k, by simpa using hl.2.1, by simpa [MinuteOpen] using hl.2.2⟩).alone
      (by rw [raise_pc, hf])
    rw [raise_pc] at hpc
    rw [raise_out] at hout
    refine ⟨hpc, hout, fun h => absurd h (by decide), fun _ ho => ?_⟩
    obtain ⟨e, he, hc, hu, -⟩ := raise_mem_intake (u := uPC) (k := cFLUSH_LATE) (c := ctxByte fn.ctx) (d0 := lo32 fn.num)
      (d1 := lo32 (durableAsn s f)) (d2 := 0) ho
    exact ⟨e, (congrArg (fun v => e ∈ v.intake) hev).mpr he, hc, hu⟩

/-- Settles O25: with nothing waiting a flush takes its tag in its command and ends with the present ASN; a tagged one ends when it is
ready, and `lateFlush` ends one at its 40 ms. -/
theorem flushesComplete : Obligations.FlushesComplete := by
  unfold Obligations.FlushesComplete
  refine ⟨?_, ?_, ?_, ?_, ?_, ?_, ?_⟩
  · intro s fn hr hm hn hsf hsh ht hl
    obtain ⟨t, he, hf, ha, ho, hlg⟩ := zeroRead_durable (s := { s with out := [] }) hm hsf hn hsh ht hl
    have hex : noteHol (if reaches s .bar0 = true then zeroRead fn { s with out := [] } else { s with out := [] }) = noteHol t := by
      rw [if_pos hr, he]
    exact ⟨_, congrArg Host.Outcome.next hex, ho, hf, ha,
      (congrArg (fun l : Lg => l.live[fn.ctx].ops) hlg).trans (congrArg Counters.ops (count_live fn.ctx addOp { s with out := [] }))⟩
  · intro s hr hm hn hsf hsh ht hl
    obtain ⟨t, he, hf, ho⟩ := hostRead_flush (s := { s with out := [] }) (fn := .pf) (bar := .bar0) (scope := .all) (off := 0x428)
      hr hsf hn hsh ht hl rfl (.inl ⟨_, target_flush hm⟩) fun _ _ _ _ _ _ => flushScope_flush hm
    refine ⟨noteHol t, congrArg (fun u => Host.Outcome.next (noteHol u)) he, ?_, hf, ?_⟩
    · exact (congrArg (fun l => Out.flushDone s.pc.nextFlush true (BitVec.ofNat 31 s.pc.asn) ∈ l) ho).mpr (by simp)
    · exact (congrArg (fun l => Out.completion .pf .sc false (leBytes 4 (1 + 2 * (s.pc.asn % 2 ^ 31))) ∈ l) ho).mpr (by simp)
  · intro s v hr hm hn hv hsf hsh ht hl
    obtain ⟨t, he, hf, ho⟩ := hostRead_flush (s := { s with out := [] }) (fn := .pf) (bar := .bar4) (scope := .tenant v)
      (off := v.val * 4096 + 0x14) hr hsf hn hsh ht hl (parts_window v) (.inr ⟨_, _, target_window hm hv⟩)
      fun _ _ _ _ _ _ => flushScope_window hm hv
    have hex : (if vfOn s v = true then hostRead (.vf v) .bar0 0x014 4 [] { s with out := [] }
        else hostRead .pf .bar4 (v.val * 4096 + 0x014) 4 [] { s with out := [] }) = t := by
      rw [hv, if_neg (by decide), he]
    refine ⟨noteHol t, congrArg (fun u => Host.Outcome.next (noteHol u)) hex, ?_, hf⟩
    exact (congrArg (fun l => Out.flushDone s.pc.nextFlush true (BitVec.ofNat 31 s.pc.asn) ∈ l) ho).mpr (by simp)
  · intro s f fn hf hz hw hst htag hlost hi hs hl
    have hd := flushDurable_empty (s := { s with out := [] }) hlost hi hs
    have he := tryFlush_tagged (s := { s with out := [] }) hf hst (flushReady_empty htag hw hi hd) hd
    obtain ⟨n, g, tn, hend, htn⟩ := endFlush_zero (s := { s with out := [] }) true hz hl
    refine ⟨_, congrArg Host.Outcome.next (he.trans hend), ?_, rfl, rfl, htn hst⟩
    simp [hf]
  · intro s f fn hf hz hn hl
    obtain ⟨hpc, hout, hon, hoff⟩ := lateFlush_zero (s := { s with out := [] }) hf hz hn hl
    exact ⟨_, rfl, congrArg Pc.flushes hpc, hout, (congrArg Pc.slots hpc :), hon, hoff⟩
  · intro s f hf hz hr hn
    have he := lateFlush_due (s := { s with out := [] }) hf hn
    simp only [hz] at he
    obtain ⟨hpc, hout, -⟩ := (endFlush_bare (s := { s with out := [] }) (flushDurable { s with out := [] } f) hz hr).alone hf
    exact ⟨_, congrArg Host.Outcome.next he, congrArg Pc.flushes hpc, hout⟩
  · intro s f hf hn
    refine congrArg Host.Outcome.next ?_
    simp [lateFlush, hf, hn]

end Sys2Proof.Machine

namespace Sys2Proof.Machine

/-! ### What D0 and D1 leave (Table 1.3) -/

theorem modSlot_shape (x : Slot) (f : CtSlot → CtSlot) (s : State) : modSlot x f s = { s with ct := (modSlot x f s).ct } := by
  cases x <;> rfl

theorem raiseF_shape (u : BitVec 5) (k c : BitVec 8) (f : BitVec 4) (d0 d1 d2 : Word) (s : State) :
    raiseF u k c f d0 d1 d2 s = { s with ev := (raiseF u k c f d0 d1 d2 s).ev } := by
  unfold raiseF
  extract_lets e
  split <;> rfl

theorem trace_shape (t a : BitVec 8) (d0 d1 : Word) (s : State) : trace t a d0 d1 s = { s with ev := (trace t a d0 d1 s).ev } := by
  unfold trace traceAt
  extract_lets e on
  split
  · rfl
  · split
    · rfl
    · split <;> rfl

/-- A lapse changes the unit and the log alone, and no change is OPEN after it (R154). -/
theorem lapse_shape (why : Nat) (s : State) :
    ∃ cs ev, lapse why s = { s with cs := cs, ev := ev } ∧ cs.state ≠ .opened := by
  unfold lapse
  split
  next h => exact ⟨s.cs, s.ev, rfl, h⟩
  next h => exact ⟨_, (traceChg 5 (raiseChg cCS_LAPSED 0 why s)).ev,
      by rw [csIdle, traceChg, trace_shape, raiseChg, raiseF_shape], by simp⟩

theorem dropFill_shape (s : State) : ∃ ks, dropFill s = { s with ks := ks } ∧ ks.mem = s.ks.mem := by
  unfold dropFill
  split
  · exact ⟨_, rfl, rfl⟩
  · exact ⟨s.ks, rfl, rfl⟩

theorem powerOffOthers_shape (target : Option Slot) (l : List Slot) : ∀ s : State,
    ∃ ct, l.foldl (fun s x => if target = some x then s else powerOff x s) s = { s with ct := ct } := by
  induction l with
  | nil => exact fun s => ⟨s.ct, rfl⟩
  | cons x l ih =>
    intro s
    obtain ⟨ct, h⟩ := ih (if target = some x then s else powerOff x s)
    refine ⟨ct, h.trans ?_⟩
    split
    · rfl
    · rw [powerOff, modSlot_shape]

/-- Tags that return touch their pools alone (R53). -/
theorem foldl_dropTag_shape {α : Type} (id : α → Option Nat) (l : List α) : ∀ s : State,
    ∃ tags rel, l.foldl (fun s a => dropTag? (id a) s) s = { s with gl := { s.gl with tags := tags, relTags := rel } } := by
  induction l with
  | nil => exact fun s => ⟨s.gl.tags, s.gl.relTags, rfl⟩
  | cons a l ih =>
    intro s
    obtain ⟨tags, rel, h⟩ := ih (dropTag? (id a) s)
    refine ⟨tags, rel, h.trans ?_⟩
    cases id a <;> rfl

/-- Every channel is idle with an empty buffer, and its tags are back (R214). -/
theorem stopDma_shape (s : State) :
    ∃ tags rel dm, stopDma s = { s with gl := { s.gl with tags := tags, relTags := rel }, dm := dm } ∧
      ∀ n : Fin 32, dm.ch[n].state = .idle ∧ dm.ch[n].beats = [] := by
  obtain ⟨tags, rel, h⟩ := foldl_dropTag_shape some (s.dm.ch.toList.flatMap fun c => c.beats.filterMap fun b => b.tag) s
  refine ⟨tags, rel, (stopDma s).dm, ?_, fun n => ?_⟩
  · unfold stopDma
    extract_lets tags' s₁ ch
    have h₁ : s₁ = _ := h
    rw [h₁]
  · simp [stopDma, mapV]

/-- No request and no flush is left (Table 1.3, D1). -/
theorem discardRequests_shape (s : State) :
    ∃ tags rel, discardRequests s = { s with
      gl := { s.gl with tags := tags, relTags := rel, ingress := [] }, pc := { s.pc with flushes := [] }, egress := [] } := by
  obtain ⟨t₁, r₁, h₁⟩ := foldl_dropTag_shape (fun r : Req => r.tag) s.gl.ingress s
  obtain ⟨t₂, r₂, h₂⟩ := foldl_dropTag_shape (fun f : Flush => f.tag) s.pc.flushes { s with gl := { s.gl with tags := t₁, relTags := r₁ } }
  obtain ⟨t₃, r₃, h₃⟩ := foldl_dropTag_shape (fun e : Out × Option Nat => e.2) s.egress { s with gl := { s.gl with tags := t₂, relTags := r₂ } }
  refine ⟨t₃, r₃, ?_⟩
  unfold discardRequests
  simp only [h₁, h₂, h₃]

theorem markSaved_shape (x : Slot) (i : Fin 16) (bank : Nat) (s : State) : ∃ ct, markSaved x i bank s = { s with ct := ct } := by
  unfold markSaved
  split
  · exact ⟨_, modSlot_shape _ _ _⟩
  · exact ⟨s.ct, rfl⟩

theorem markTwice_shape (m n : Nat) (s : State) : ∃ ct, markSaved .b 15 n (markSaved .a 10 m s) = { s with ct := ct } := by
  obtain ⟨ct, h⟩ := markSaved_shape .a 10 m s
  obtain ⟨ct', h'⟩ := markSaved_shape .b 15 n { s with ct := ct }
  exact ⟨ct', by rw [h, h']⟩

/-- The copy of D1 changes the ledger, and the contexts only where a minute closes (R177). -/
theorem retainD1_shape (s : State) : ∃ lg tn, retainD1 s = { s with lg := lg, tn := tn } ∧ (MinuteOpen s → tn = s.tn) := by
  unfold retainD1
  refine ⟨_, (swapMinute s).tn, by rw [swapMinute_shape], fun h => ?_⟩
  simp [swapMinute, h]

/-- What D0 and D1 leave of a running engine, field by field (Table 1.3). -/
theorem startDrain_shape (cause : Nat) {s : State} (h : Running s) :
    ∃ tags rel ct cs lg tn dm ks ev, startDrain cause s = { s with
        gl := { s.gl with tags := tags, relTags := rel, ingress := [] }
        pc := { s.pc with drain := some (drainOf cause s), flushes := [] }
        pw := { s.pw with armed := none, chgEn := false }
        ct := ct, cs := cs, lg := lg, tn := tn, dm := dm, ks := ks, ev := ev, egress := [] } ∧
      (∀ n : Fin 32, dm.ch[n].state = .idle ∧ dm.ch[n].beats = []) ∧ cs.state ≠ .opened ∧ ks.mem = s.ks.mem ∧
      (MinuteOpen s → tn = s.tn) := by
  obtain ⟨hc, hd, hs⟩ := h
  have hgo : ¬(s.pc.drain.isSome || !s.pw.state.clocked || s.bt.scan) = true := by simp [hc, hd, hs]
  unfold startDrain
  rw [if_neg hgo]
  extract_lets pc s₁ s₂ target s₃ s₄ s₅ pw s₆
  obtain ⟨cs, ev, h, hcs⟩ := lapse_shape 4 s₁
  obtain ⟨ks, h₂, hks⟩ : ∃ ks, s₂ = { s₁ with cs := cs, ev := ev, ks := ks } ∧ ks.mem = s.ks.mem := by
    show ∃ ks, dropFill (lapse 4 s₁) = _ ∧ _
    rw [h]
    exact dropFill_shape { s₁ with cs := cs, ev := ev }
  clear_value s₂
  subst h₂
  obtain ⟨ct, h₃⟩ : ∃ ct, s₃ = _ := powerOffOthers_shape target bothSlots { s₁ with cs := cs, ev := ev, ks := ks }
  clear_value s₃
  subst h₃
  obtain ⟨t₄, r₄, dm, h₄, hdm⟩ := stopDma_shape { s₁ with cs := cs, ev := ev, ks := ks, ct := ct }
  obtain ⟨tags, rel, h₅⟩ : ∃ tags rel, s₄ = { s₁ with
      cs := cs, ev := ev, ks := ks, ct := ct, dm := dm, egress := []
      gl := { s.gl with tags := tags, relTags := rel, ingress := [] }, pc := { s₁.pc with flushes := [] } } := by
    simp only [s₄, h₄]
    exact discardRequests_shape { s₁ with
      cs := cs, ev := ev, ks := ks, ct := ct, dm := dm, gl := { s.gl with tags := t₄, relTags := r₄ } }
  clear_value s₄
  obtain ⟨ct', h₆⟩ : ∃ ct', s₅ = { s₄ with ct := ct' } := markTwice_shape s₄.bt.arrayA s₄.bt.arrayB s₄
  clear_value s₅
  obtain ⟨lg, tn, h₇, htn⟩ : ∃ lg tn, (if s₆.pc.reconciled then retainD1 s₆ else s₆) = { s₆ with lg := lg, tn := tn } ∧
      (MinuteOpen s₆ → tn = s₆.tn) := by
    split
    · exact retainD1_shape s₆
    · exact ⟨s₆.lg, s₆.tn, rfl, fun _ => rfl⟩
  subst h₆ h₅
  exact ⟨tags, rel, ct', cs, lg, tn, dm, ks, ev, h₇, hdm, hcs, hks, htn⟩

/-- The events of Table 12.7 that end service register what they are; the drain starts from a state that differs there alone. -/
theorem startDrain_begins {cause : Nat} {s u : State} {pw : Pw} {gl : Gl} {ev : Ev} (h : Running s)
    (hu : u = { s with out := [], ev := ev, pw := pw, gl := gl }) (hst : pw.state = s.pw.state) :
    DrainBegun cause s (startDrain cause u) ∧ (startDrain cause u).pw = { pw with armed := none, chgEn := false } ∧
      (startDrain cause u).gl.lock = gl.lock ∧ (startDrain cause u).gl.holdover = gl.holdover := by
  subst hu
  have hr : Running { s with out := [], ev := ev, pw := pw, gl := gl } := ⟨(congrArg Power.clocked hst).trans h.1, h.2⟩
  obtain ⟨tags, rel, ct, cs, lg, tn, dm, ks, ev', he, hdm, hcs, hks, htn⟩ := startDrain_shape cause hr
  rw [he]
  have hde : (drainOf cause { s with out := [], ev := ev, pw := pw, gl := gl }).early = true ↔
      s.pw.state = .boot ∨ s.pw.state = .replay ∨ s.pc.replayPending = true := by
    rw [← hst]
    simp [drainOf, or_assoc]
  exact ⟨⟨⟨_, rfl, rfl, rfl, rfl, hde⟩, rfl, rfl, hdm, rfl, rfl, hst, hcs, rfl, rfl, hks, htn, rfl, rfl, rfl⟩, rfl, rfl, rfl⟩

/-- A running engine's state is none of OFF, HIBERNATE and STANDBY (Table 12.1). -/
theorem perstAssert_running {s : State} (h : Running s) : perstAssert s = startDrain 1 (logReset 1 0 s) := by
  obtain ⟨hc, hd, hs⟩ := h
  unfold perstAssert
  cases hp : s.pw.state <;> simp [hp, Power.clocked] at hc ⊢ <;> simp [hd, hs]

theorem pfail_running {s : State} (h : Running s) : pfail s = startDrain 0 { s with pw := { s.pw with mainPower := false } } := by
  obtain ⟨hc, hd, hs⟩ := h
  unfold pfail
  cases hp : s.pw.state <;> simp [hp, Power.clocked] at hc ⊢ <;> simp [hs]

theorem logReset_shape (type fn : Nat) (s : State) : logReset type fn s = { s with ev := (logReset type fn s).ev } := by
  rw [logReset, raise, raiseF_shape, trace_shape]

theorem lockLost_running {s : State} (h : Running s) : lockLost s =
    startDrain 2 (raise uGL cCLK_LOST noCtx 0 0 0 { s with gl := { s.gl with refOk := false, lock := false, holdover := true } }) := by
  obtain ⟨hc, hd, hs⟩ := h
  simp [lockLost, hc, hd, hs]

/-- The measured junction of a trip, and the trip (R374). -/
def hotter (tj : BitVec 8) (s : State) : State :=
  { s with pw := { s.pw with
      tj := tj, tjPeak := if s.pw.tjPeak.toNat < tj.toNat then tj else s.pw.tjPeak, thermTrip := true, tripWake := true } }

theorem tripped_running {tj : BitVec 8} {s : State} (h : Running s) (hlo : 125 ≤ tj.toNat) (hhi : tj.toNat < 128) :
    tripped tj s = startDrain 3 (hotter tj s) := by
  obtain ⟨hc, hd, hs⟩ := h
  have htrip : ¬(tj.toNat < 125 ∨ 128 ≤ tj.toNat ∨ (!s.pw.state.clocked) = true) := by
    simp only [hc, Bool.not_true, Bool.false_eq_true, or_false]
    omega
  unfold tripped
  extract_lets s₁ s₂
  rw [if_neg htrip, if_neg (by rw [hs]; decide)]
  exact rfl

/-- End: HIBERNATE while a supply feeds the island, else OFF (R326). -/
theorem powerDown_state (s : State) : (powerDown s).pw.state = if s.pw.mainPower || s.pw.vbat then .hibernate else .off := rfl

/-- Settles O9: each event of Table 12.7 reaches `startDrain`, whose D0 and D1 are `startDrain_shape`. -/
theorem drainsBegin : Obligations.DrainsBegin := by
  unfold Obligations.DrainsBegin
  refine ⟨?_, ?_, ?_, ?_, ?_, ?_, ?_, ?_, ?_⟩
  · intro s h
    obtain ⟨hb, hpw, -⟩ := startDrain_begins (cause := 0) (pw := { s.pw with mainPower := false }) h rfl rfl
    exact ⟨_, congrArg Host.Outcome.next (pfail_running (s := { s with out := [] }) h), hb, congrArg Pw.mainPower hpw⟩
  · intro s h
    obtain ⟨hb, hpw, -⟩ := startDrain_begins (cause := 1) h
      (logReset_shape 1 0 { s with out := [], pw := { s.pw with perstLow := true } }) rfl
    exact ⟨_, congrArg Host.Outcome.next (perstAssert_running (s := { s with out := [], pw := { s.pw with perstLow := true } }) h), hb,
      congrArg Pw.perstLow hpw⟩
  · intro s r h
    obtain ⟨hb, hpw, -⟩ := startDrain_begins (cause := 1) h
      (logReset_shape 1 0 { s with out := [], pw := { s.pw with rails := s.pw.rails.set r false } }) rfl
    exact ⟨_, congrArg Host.Outcome.next (perstAssert_running
      (s := { s with out := [], pw := { s.pw with rails := s.pw.rails.set r false } }) h), hb, congrArg Pw.rails hpw⟩
  · intro s h
    obtain ⟨hb, -, hl, ho⟩ := startDrain_begins (cause := 2) h (raiseF_shape uGL cCLK_LOST noCtx 0 0 0 0
      { s with out := [], gl := { s.gl with refOk := false, lock := false, holdover := true } }) rfl
    exact ⟨_, congrArg Host.Outcome.next (lockLost_running (s := { s with out := [] }) h), hb, hl, ho⟩
  · intro s tj h hlo hhi
    obtain ⟨hb, hpw, -⟩ := startDrain_begins (cause := 3) h (u := hotter tj { s with out := [] }) rfl rfl
    exact ⟨_, congrArg Host.Outcome.next (tripped_running (s := { s with out := [] }) h hlo hhi), hb, congrArg Pw.thermTrip hpw⟩
  · intro s hp hv
    refine congrArg Host.Outcome.next ?_
    simp [pfail, hp, hv]
  · intro s hp
    refine congrArg Host.Outcome.next ?_
    simp [lockLost, hp, Power.clocked]
  · intro s hp
    refine congrArg Host.Outcome.next ?_
    simp [perstAssert, hp]
  · intro s hp hs hm hr
    have he : lockLost { s with out := [] } = leaveScan { s with out := [], gl := { s.gl with refOk := false, lock := false, holdover := true } } := by
      simp [lockLost, hp, Power.clocked, hs]
    refine ⟨_, congrArg Host.Outcome.next he, ?_, rfl, rfl, rfl⟩
    exact (powerDown_state _).trans (if_pos (by rw [hm, Bool.true_or]))

end Sys2Proof.Machine

namespace Sys2Proof.Machine

/-! ### What a line-write of the engine's own leaves alone -/

/-- The hold area of the seated cartridge (Table 4.3). -/
def held (s : State) (x : Slot) : Option HoldArea := (s.slot x).cart.map fun c => c.hold

/-- Work on the lines of a cartridge: the cells, the counts and the log change; no hold area does, nor any other unit. -/
def LineKept (s t : State) : Prop :=
  t = { s with gl := t.gl, ct := t.ct, md := t.md, lg := t.lg, ev := t.ev, freeCtr := t.freeCtr } ∧ ∀ x, held t x = held s x

theorem LineKept.refl (s : State) : LineKept s s := ⟨rfl, fun _ => rfl⟩

theorem LineKept.trans {s t u : State} (h : LineKept s t) (k : LineKept t u) : LineKept s u := by
  refine ⟨?_, fun x => (k.2 x).trans (h.2 x)⟩
  have hk := k.1
  rw [h.1] at hk
  exact hk

theorem LineKept.pc {s t : State} (h : LineKept s t) : t.pc = s.pc := (congrArg State.pc h.1 :)

theorem LineKept.pw {s t : State} (h : LineKept s t) : t.pw = s.pw := (congrArg State.pw h.1 :)

theorem LineKept.pending {s t : State} (h : LineKept s t) : t.pending = s.pending := (congrArg State.pending h.1 :)

theorem lineKept_modSlot (x : Slot) {f : CtSlot → CtSlot} (s : State)
    (h : ∀ t, (f t).cart.map (fun c => c.hold) = t.cart.map fun c => c.hold) : LineKept s (modSlot x f s) := by
  refine ⟨by cases x <;> rfl, fun y => ?_⟩
  by_cases hy : y = x
  · subst hy
    simp [held, h]
  · rw [held, held, modSlot_slot_ne s x y f hy]

theorem lineKept_modCart (x : Slot) {f : Cart → Cart} (s : State) (h : ∀ c, (f c).hold = c.hold) : LineKept s (modCart x f s) :=
  lineKept_modSlot x s fun t => by simp [Function.comp_def, h]

theorem lineKept_raiseF (u : BitVec 5) (k c : BitVec 8) (f : BitVec 4) (d0 d1 d2 : Word) (s : State) :
    LineKept s (raiseF u k c f d0 d1 d2 s) := by
  rw [raiseF_shape]
  exact ⟨rfl, fun x => by cases x <;> rfl⟩

theorem lineKept_count (c : Ctx) (f : Counters → Counters) (s : State) : LineKept s (count c f s) :=
  ⟨rfl, fun x => by cases x <;> rfl⟩

theorem lineKept_md (m : Md) (s : State) : LineKept s { s with md := m } := ⟨rfl, fun x => by cases x <;> rfl⟩

theorem lineKept_chargeSlot (x : Slot) (n : Nat) (s : State) : LineKept s (chargeSlot x n s) := by
  unfold chargeSlot
  extract_lets u t
  have hu : LineKept s u := lineKept_modSlot x s fun _ => rfl
  split
  · exact (hu.trans (lineKept_modSlot (f := fun t => { t with eolWarn := true }) x u fun _ => rfl)).trans
      (lineKept_raiseF _ _ _ _ _ _ _ _)
  · exact hu

theorem lineKept_engineWrites (x : Slot) (t : Tempo) (n : Nat) (s : State) : LineKept s (engineWrites x t n s) :=
  (lineKept_chargeSlot x _ s).trans (lineKept_count _ _ _)

theorem lineKept_noteTries (n : Nat) (s : State) : LineKept s (noteTries n s) := by
  unfold noteTries
  split
  · exact lineKept_md _ s
  · split
    · exact lineKept_md _ s
    · split
      · exact lineKept_md _ s
      · exact .refl s

theorem lineKept_tryLine (x : Slot) (cline : Nat) (w : Tries) (s : State) : LineKept s (tryLine x cline w s).1 := by
  unfold tryLine
  split
  · exact (lineKept_md _ s).trans (lineKept_noteTries _ _)
  · exact lineKept_md _ s

theorem lineKept_nextFree (s : State) : LineKept s (nextFree s) := ⟨rfl, fun x => by cases x <;> rfl⟩

theorem lineKept_injectStored (x : Slot) (cline : Nat) (l : StoredLine) (s : State) : LineKept s (injectStored x cline l s).1 := by
  unfold injectStored
  split
  · exact (lineKept_md _ s).trans (lineKept_nextFree _)
  · exact .refl s

theorem lineKept_storeLine (x : Slot) (cline : Nat) (l : StoredLine) (s : State) : LineKept s (storeLine x cline l s) :=
  lineKept_modCart x s fun _ => rfl

theorem lineKept_writeLine (x : Slot) (cline : Nat) (l : StoredLine) (s : State) : LineKept s (writeLine x cline l s) :=
  (lineKept_injectStored x cline l s).trans (lineKept_storeLine x cline _ _)

theorem lineKept_poisonLine (x : Slot) (cline : Nat) (l : StoredLine) (w : Tries) (s : State) :
    LineKept s (poisonLine x cline l w s) := by
  have ht := (lineKept_engineWrites x .lento 1 s).trans (lineKept_tryLine x cline w _)
  unfold poisonLine
  split
  next u ok hu =>
    rw [hu] at ht
    split
    · exact ht.trans (lineKept_writeLine x cline l u)
    · exact (ht.trans (lineKept_storeLine x cline _ u)).trans (lineKept_nextFree _)

theorem lineKept_noteSpare (x : Slot) (bank : Nat) (s : State) : LineKept s (noteSpare x bank s) := by
  unfold noteSpare
  split
  · split
    · exact lineKept_raiseF _ _ _ _ _ _ _ _
    · exact .refl s
  · exact .refl s

theorem lineKept_noteRelocFail (x : Slot) (s : State) : LineKept s (noteRelocFail x s) := by
  cases x <;> exact lineKept_md _ s

theorem lineKept_useSpare (x : Slot) (bank spare pline : Nat) (failed : Bool) (s : State) :
    LineKept s (useSpare x bank spare pline failed s) := lineKept_modCart x s fun _ => rfl

theorem lineKept_relocate (x : Slot) (cline pline : Nat) (w : Tries) (s : State) : LineKept s (relocate x cline pline w s).1 := by
  unfold relocate
  split
  · exact .refl s
  next c _ =>
    extract_lets bank
    split
    · exact lineKept_noteRelocFail x s
    next sp _ =>
      split
      next u spare hu =>
        have h₁ : LineKept s u := by
          rw [show u = (tryLine x cline w (engineWrites x .lento 1 s)).1 by rw [hu]]
          exact (lineKept_engineWrites x .lento 1 s).trans (lineKept_tryLine x cline w _)
        split
        next v ok hv =>
          have h₂ : LineKept u v := by
            split at hv
            · rw [show v = (tryLine x (relocLine c.big bank sp) w.tail (engineWrites x .lento 1 u)).1 by rw [hv]]
              exact (lineKept_engineWrites x .lento 1 u).trans (lineKept_tryLine x _ _ _)
            · rw [← (Prod.mk.inj hv).1]
              exact .refl u
          have h₃ := ((h₁.trans h₂).trans (lineKept_useSpare x bank sp pline (!ok) v)).trans (lineKept_noteSpare x bank _)
          cases ok
          · exact h₃.trans (lineKept_noteRelocFail x _)
          · exact h₃

theorem lineKept_wholeWrite (x : Slot) (cline pline : Nat) (w : Tries) (s : State) :
    LineKept s (wholeWrite x cline pline w s).1 := by
  have ht := lineKept_tryLine x cline w s
  unfold wholeWrite
  split
  next u ok hu =>
    rw [hu] at ht
    split
    · exact ht
    · exact ht.trans (lineKept_relocate x cline pline _ u)

theorem lineKept_noteError (x : Slot) (cline : Nat) (code ctx : BitVec 8) (weight : BitVec 4) (s : State) :
    LineKept s (noteError x cline code ctx weight s) := by
  unfold noteError
  split
  · exact .refl s
  · exact lineKept_md _ s

theorem lineKept_enginePwf (unit : BitVec 5) (x : Slot) (cline : Nat) (tempo : Tempo) (tried : Bool) (s : State) :
    LineKept s (enginePwf unit x cline tempo tried s) :=
  (lineKept_raiseF unit cPWF noCtx 0 (addrD0 x cline) (lo32 0) (put 8 0 ||| put tempo.bits.toNat 8 ||| putB tried 16) s).trans
    (lineKept_noteError x cline cPWF noCtx 0xF _)

theorem lineKept_engineLine (unit : BitVec 5) (x : Slot) (cline : Nat) (tempo : Tempo) (w : Tries) (s : State) :
    LineKept s (engineLine unit x cline tempo w s).1 := by
  have hw := (lineKept_engineWrites x tempo 1 s).trans (lineKept_wholeWrite x cline (physOf s x cline) w _)
  unfold engineLine
  split
  next u r hu =>
    rw [hu] at hw
    split
    · exact hw
    · exact (hw.trans (lineKept_poisonLine x cline _ _ u)).trans (lineKept_enginePwf unit x cline tempo _ _)

theorem lineKept_touchBank (x : Slot) (cline : Nat) (s : State) : LineKept s (touchBank x cline s) :=
  LineKept.trans (t := { s with gl := { s.gl with bankLast := s.gl.bankLast.set (bankNo x (bankOf cline)) s.now } })
    ⟨rfl, fun x => by cases x <;> rfl⟩ (lineKept_modSlot (f := fun t => { t with
      linkUse := s.now, flitFails := 0, link := if t.link = .idle then .active else t.link }) x _ fun _ => rfl)

theorem lineKept_reservedPassed (x : Slot) (cline : Nat) (data : Line) (s : State) : LineKept s (reservedPassed x cline data s) :=
  (lineKept_injectStored x cline _ s).trans (lineKept_modCart x _ fun _ => rfl)

theorem lineKept_putRing (h : Slot × Nat) (seq : Nat) (l : Line) (w : Tries) (s : State) : LineKept s (putRing h seq l w s).1 := by
  obtain ⟨x, cl⟩ := h
  have he := (lineKept_touchBank x cl s).trans (lineKept_engineLine uLG x cl .lento w _)
  unfold putRing
  dsimp only
  split
  · refine LineKept.trans ?_ (lineKept_reservedPassed x cl l _)
    exact he.trans (lineKept_modCart x _ fun _ => rfl)
  · exact he.trans (lineKept_modCart x _ fun _ => rfl)

/-! ### D2 to D6 with no media write in progress -/

theorem held_modCart (x : Slot) (f : Cart → Cart) (s : State) :
    held (modCart x f s) x = (s.slot x).cart.map fun c => (f c).hold := by
  simp [held, modCart, Function.comp_def]

/-- A change of the hold area itself. -/
theorem held_modHold (x : Slot) (f : HoldArea → HoldArea) (s : State) :
    held (modCart x (fun c => { c with hold := f c.hold }) s) x = (held s x).map f := by
  rw [held_modCart, held, Option.map_map]
  rfl

/-- D2 with no write in progress ends no try; no line is issued any more (Table 1.3). -/
theorem endTries_still {target : Option Slot} {fails : List (Slot × Fin 128)} {s : State} (h : s.md.writes = []) :
    endTries target fails s = { s with pc := { s.pc with slots := s.pc.slots.map fun g => { g with issued := false } } } := by
  simp [endTries, h]

/-- D3 changes the hold area's headers and no dirty line. -/
theorem writeHeader_kept (x : Slot) (s : State) :
    held (writeHeader x false s) x = (held s x).map (fun a => { a with
      header0 := some { boot := s.ks.bootCount.toNat, total := s.pc.slots.length, counts := dirtyCounts s, commit := false }
      header1 := none, ledger := none }) ∧
    (writeHeader x false s).pc = s.pc ∧ (writeHeader x false s).pw = s.pw ∧ (writeHeader x false s).ks = s.ks := by
  have hk := lineKept_engineWrites x .lento 1 s
  refine ⟨?_, by simp [writeHeader], by simp [writeHeader], by simp [writeHeader]⟩
  rw [← hk.2 x]
  unfold writeHeader
  extract_lets slots hdr put
  exact held_modHold x put _

/-- D4 puts the entries in front (Table 4.3). -/
theorem writeEntries_kept (x : Slot) (l : List HoldEntry) (s : State) :
    held (writeEntries x l s) x = (held s x).map (fun a => { a with entries := l ++ a.entries.drop l.length }) ∧
    (writeEntries x l s).pc = s.pc ∧ (writeEntries x l s).pw = s.pw ∧ (writeEntries x l s).ks = s.ks := by
  have hk := lineKept_engineWrites x .presto (2 * l.length) s
  refine ⟨?_, by simp [writeEntries], by simp [writeEntries], by simp [writeEntries]⟩
  rw [← hk.2 x]
  unfold writeEntries
  extract_lets put
  exact held_modHold x put _

theorem lineKept_finishSeal (s : State) : LineKept s (finishSeal s) := by
  unfold finishSeal
  split
  · exact .refl s
  · exact ⟨rfl, fun x => by cases x <;> rfl⟩

/-- The late ring records that the drain writes before D5 (R131). -/
theorem lineKept_lateRing (target : Option Slot) (l : List LateRing) : ∀ s : State,
    LineKept s (l.foldl (fun s e => if target = some e.slot then (putRing (lateLine s e) e.seq e.line [] s).1 else s) s) := by
  induction l with
  | nil => exact LineKept.refl
  | cons e l ih =>
    intro s
    refine LineKept.trans ?_ (ih _)
    dsimp only
    split
    · exact lineKept_putRing _ _ _ _ s
    · exact .refl s

/-- D5 changes the ledger section of the hold target's area alone (R177). -/
theorem retainD5_kept (x : Slot) (s : State) :
    (∃ l, held (retainD5 (some x) s) x = (held s x).map fun a => { a with ledger := some l }) ∧
    (retainD5 (some x) s).pc = s.pc ∧ (retainD5 (some x) s).pw = s.pw := by
  have hk := (lineKept_finishSeal s).trans (lineKept_lateRing (some x) (finishSeal s).lg.late (finishSeal s))
  unfold retainD5
  extract_lets s₁ lgt put s₂ lg s₃
  have hk₂ : LineKept s s₂ := hk
  have hk₃ : LineKept s s₃ := hk₂.trans ⟨rfl, fun x => by cases x <;> rfl⟩
  refine ⟨⟨heldNow 2 lgt s₃, ?_⟩, ?_, ?_⟩
  · rw [← hk₃.2 x]
    exact held_modHold x (fun a => { a with ledger := some (heldNow 2 lgt s₃) }) s₃
  · exact (modCart_pc _ _ _).trans hk₃.pc
  · exact (modCart_pw _ _ _).trans hk₃.pw

theorem sealArea_kept {x : Slot} {a : HoldArea} {s : State} (h : held s x = some a) :
    (∃ l, held (sealArea (some x) s) x = some { a with ledger := l }) ∧
    (sealArea (some x) s).pc = s.pc ∧ (sealArea (some x) s).pw = s.pw := by
  have hk := lineKept_engineWrites x .lento 1 s
  unfold sealArea
  dsimp only
  split
  · obtain ⟨⟨l, hl⟩, hpc, hpw⟩ := retainD5_kept x (engineWrites x .lento 1 s)
    exact ⟨⟨some l, by rw [hl, hk.2, h]; rfl⟩, hpc.trans hk.pc, hpw.trans hk.pw⟩
  · exact ⟨⟨a.ledger, (hk.2 x).trans h⟩, hk.pc, hk.pw⟩

theorem length_holdEntries (s : State) (damaged : List Nat) (l : List HoldSlot) : ∀ k, (holdEntries s damaged k l).length = l.length := by
  induction l with
  | nil => intro k; rfl
  | cons h l ih => intro k; simp [holdEntries, ih]

theorem getElem?_holdEntries (s : State) (damaged : List Nat) (l : List HoldSlot) :
    ∀ k i, (holdEntries s damaged k l)[i]? = l[i]?.map (holdEntry s damaged (k + i)) := by
  induction l with
  | nil => intro k i; rfl
  | cons h l ih =>
    intro k i
    cases i with
    | zero => rfl
    | succ i => simpa [holdEntries, Nat.add_assoc, Nat.add_comm 1 i] using ih (k + 1) i

/-- D3 and D4 of a drain that is not early: the header, and the first `n` dirty slots in admission order. -/
theorem writeArea_kept {d : Drain} {x : Slot} {a : HoldArea} {s : State} (damaged : List Nat) (n : Nat) (he : d.early = false)
    (h : held s x = some a) :
    (∃ u : State, u.ks = s.ks ∧ ∃ hdr rest, hdr.boot = s.ks.bootCount.toNat ∧ hdr.total = s.pc.slots.length ∧ hdr.commit = false ∧
      held (writeArea d x damaged n s) x = some { a with
        header0 := some hdr, header1 := none, ledger := none, entries := (holdEntries u damaged 0 s.pc.slots).take n ++ rest }) ∧
    (writeArea d x damaged n s).pc = s.pc ∧ (writeArea d x damaged n s).pw = s.pw := by
  obtain ⟨hh, hpc, hpw, hks⟩ := writeHeader_kept x s
  obtain ⟨eh, epc, epw, -⟩ := writeEntries_kept x ((holdEntries (writeHeader x false s) damaged 0 s.pc.slots).take n) (writeHeader x false s)
  have hw : writeArea d x damaged n s =
      writeEntries x ((holdEntries (writeHeader x false s) damaged 0 s.pc.slots).take n) (writeHeader x false s) := by
    simp [writeArea, he, hpc]
  rw [hw, eh, hh, h]
  exact ⟨⟨writeHeader x false s, hks,
    { boot := s.ks.bootCount.toNat, total := s.pc.slots.length, counts := dirtyCounts s, commit := false }, _, rfl, rfl, rfl, rfl⟩,
    epc.trans hpc, epw.trans hpw⟩

/-- What the area shows of the first dirty slots once D4 has written them (R31). -/
theorem entry_of_writeArea {u : State} {damaged : List Nat} {l : List HoldSlot} {n i : Nat} (rest : List HoldEntry) (hi : i < l.length)
    (hn : i < n) : ((holdEntries u damaged 0 l).take n ++ rest)[i]? = some (holdEntry u damaged i l[i]) := by
  have hlen : i < ((holdEntries u damaged 0 l).take n).length := by
    rw [List.length_take, length_holdEntries]
    omega
  rw [List.getElem?_append_left hlen, List.getElem?_take_of_lt hn, getElem?_holdEntries, List.getElem?_eq_getElem hi, Nat.zero_add]
  rfl

/-! ### K and End -/

/-- Phase K works on the keep store alone (Table 1.3). -/
theorem acceptLate_ks (s : State) : acceptLate s = { s with ks := (acceptLate s).ks } := by
  unfold acceptLate
  extract_lets accepts
  split <;> rfl

theorem drainKeep_ks (lost : Nat) (s : State) : drainKeep lost s = { s with ks := (drainKeep lost s).ks } := by
  unfold drainKeep
  extract_lets u
  have hu : u = { s with ks := u.ks } := congrArg endPage (acceptLate_ks s)
  split
  · rw [hu]
  · exact hu

theorem tearWrite_ks (s : State) : tearWrite s = { s with ks := (tearWrite s).ks, freeCtr := (tearWrite s).freeCtr } := by
  unfold tearWrite
  split <;> rfl

theorem shortKeep_ks (pages : Fin 2) (lost : Nat) (s : State) :
    shortKeep pages lost s = { s with ks := (shortKeep pages lost s).ks, freeCtr := (shortKeep pages lost s).freeCtr } := by
  unfold shortKeep
  split
  · exact congrArg endPage (tearWrite_ks s)
  · extract_lets u
    have hu : u = { s with ks := u.ks } := congrArg endPage (acceptLate_ks s)
    split
    next w _ =>
      generalize { u.ks with busy := some w, before := pageBytes u.ks.mem w.page, mem := program w.page w.bytes u.ks.mem } = ks
      rw [hu]
      exact congrArg endPage (tearWrite_ks { s with ks := ks })
    · rw [hu]

/-- The power-down leaves what the hold areas hold (R326). -/
theorem held_powerDown (s : State) (x : Slot) : held (powerDown s) x = held s x := by
  have h : ∀ y u, LineKept u (powerOff y u) := fun y u => lineKept_modSlot y u fun t => by simp [Function.comp_def]
  exact Eq.trans (by cases x <;> rfl) (((h .a s).trans (h .b _)).2 x)

/-! ### The hold area that a drain leaves -/

/-- The hold area as a drain of the state's dirty lines leaves it: the header, and the first `n` lines in admission order. -/
def DrainArea (s : State) (damaged : List Nat) (n : Nat) (commit : Bool) (a : HoldArea) : Prop :=
  ∃ h, a.header0 = some h ∧ h.commit = commit ∧ h.boot = s.ks.bootCount.toNat ∧ h.total = s.pc.slots.length ∧
    ∀ i (hi : i < s.pc.slots.length), i < n → ∃ e, a.entries[i]? = some e ∧ e.index = i ∧ e.boot = s.ks.bootCount.toNat ∧
      e.data = s.pc.slots[i].data ∧ e.mask = s.pc.slots[i].mask ∧ e.media = s.pc.slots[i].media ∧ e.ctx = s.pc.slots[i].ctx ∧
      e.asn = s.pc.slots[i].asn ∧ e.tempo = s.pc.slots[i].tempo ∧ (e.damaged = true ↔ i ∈ damaged)

/-- The entry of the `i`th dirty line, of a drain with this boot count. -/
theorem holdEntry_fields {u s : State} {damaged : List Nat} {i : Nat} (hk : u.ks = s.ks) (g : HoldSlot) :
    (holdEntry u damaged i g).boot = s.ks.bootCount.toNat ∧ ((holdEntry u damaged i g).damaged = true ↔ i ∈ damaged) := by
  simp [holdEntry, hk]

/-- D2 to D4 of a drain with no media write in progress leave the header and the first entries. -/
theorem writeArea_area {d : Drain} {x : Slot} {a : HoldArea} {s : State} (fails : List (Slot × Fin 128)) (damaged : List Nat) (n : Nat)
    (he : d.early = false) (hw : s.md.writes = []) (h : held s x = some a) :
    ∃ b, held (writeArea d x damaged n (endTries d.target fails s)) x = some b ∧ DrainArea s damaged n false b ∧
      (writeArea d x damaged n (endTries d.target fails s)).pw = s.pw := by
  rw [endTries_still hw]
  obtain ⟨⟨u, hks, hdr, rest, hboot, htotal, hcommit, hb⟩, -, hpw⟩ := writeArea_kept (s := { s with pc := { s.pc with
    slots := s.pc.slots.map fun g => { g with issued := false } } }) damaged n he (show held _ x = some a from (by cases x <;> exact h))
  refine ⟨_, hb, ⟨hdr, rfl, hcommit, hboot, htotal.trans (List.length_map _), fun i hi hn => ?_⟩, hpw⟩
  have hlen : i < (s.pc.slots.map fun g => { g with issued := false }).length := by rwa [List.length_map]
  obtain ⟨hb', hdam⟩ := holdEntry_fields (damaged := damaged) (i := i) (hks : u.ks = s.ks) (s.pc.slots.map fun g => { g with issued := false })[i]
  refine ⟨_, entry_of_writeArea rest hlen hn, rfl, hb', ?_⟩
  rw [List.getElem_map] at hdam ⊢
  exact ⟨rfl, rfl, rfl, rfl, rfl, rfl, hdam⟩

/-- D5 leaves the header and the entries. -/
theorem sealArea_area {x : Slot} {a : HoldArea} {s u : State} {damaged : List Nat} {n : Nat} {commit : Bool} (h : held u x = some a)
    (ha : DrainArea s damaged n commit a) :
    ∃ b, held (sealArea (some x) u) x = some b ∧ DrainArea s damaged n commit b ∧ (sealArea (some x) u).pw = u.pw := by
  obtain ⟨⟨l, hl⟩, -, hpw⟩ := sealArea_kept h
  exact ⟨_, hl, ha, hpw⟩

/-- D6 marks the header (R34). -/
theorem writeCommit_area {x : Slot} {a : HoldArea} {s u : State} {damaged : List Nat} {n : Nat} (h : held u x = some a)
    (ha : DrainArea s damaged n false a) :
    ∃ b, held (writeCommit x false u) x = some b ∧ DrainArea s damaged n true b ∧ (writeCommit x false u).pw = u.pw := by
  obtain ⟨hdr, h₀, -, hboot, htotal, hentries⟩ := ha
  have hheld : held (writeCommit x false u) x = (held u x).map fun b => { b with header0 := b.header0.map fun h => { h with commit := true } } :=
    held_modHold x (fun b => { b with header0 := b.header0.map fun h => { h with commit := true } }) u
  rw [hheld, h]
  exact ⟨_, rfl, ⟨{ hdr with commit := true }, congrArg (Option.map _) h₀, rfl, hboot, htotal, hentries⟩, modCart_pw _ _ _⟩

/-- The proven drain of a target (Table 1.3, D2 to D6). -/
theorem drainPhases_area {d : Drain} {x : Slot} {a : HoldArea} {s : State} (fails : List (Slot × Fin 128)) (damaged : List Nat)
    (ht : d.target = some x) (he : d.early = false) (hw : s.md.writes = []) (h : held s x = some a) :
    ∃ b, held (drainPhases d fails damaged s) x = some b ∧ DrainArea s damaged s.pc.slots.length true b ∧
      (drainPhases d fails damaged s).pw = s.pw := by
  obtain ⟨a₁, h₁, ha₁, hpw₁⟩ := writeArea_area (d := d) fails damaged s.pc.slots.length he hw h
  obtain ⟨a₂, h₂, ha₂, hpw₂⟩ := sealArea_area h₁ ha₁
  obtain ⟨a₃, h₃, ha₃, hpw₃⟩ := writeCommit_area h₂ ha₂
  have heq : drainPhases d fails damaged s =
      writeCommit x false (sealArea (some x) (writeArea d x damaged s.pc.slots.length (endTries d.target fails s))) := by
    unfold drainPhases
    simp only [ht, he]
    rw [endTries_still hw, List.length_map]
  rw [heq]
  exact ⟨a₃, h₃, ha₃, hpw₃.trans (hpw₂.trans hpw₁)⟩

/-- A short drain's phases past the header (R34). -/
theorem shortPhases_area {d : Drain} {x : Slot} {a : HoldArea} {s : State} (fails : List (Slot × Fin 128)) (damaged : List Nat) (k : Nat)
    (ht : d.target = some x) (he : d.early = false) (hw : s.md.writes = []) (h : held s x = some a) :
    ∃ b, held (shortPhases d fails damaged (k + 1) s) x = some b ∧ DrainArea s damaged k false b ∧
      (shortPhases d fails damaged (k + 1) s).pw = s.pw := by
  obtain ⟨a₁, h₁, ha₁, hpw₁⟩ := writeArea_area (d := d) fails damaged k he hw h
  have hn : k + 1 ≠ 0 := Nat.succ_ne_zero k
  unfold shortPhases
  extract_lets u n
  simp only [ht, if_neg hn, Nat.add_sub_cancel]
  split
  · exact ⟨a₁, h₁, ha₁, hpw₁⟩
  · obtain ⟨a₂, h₂, ha₂, hpw₂⟩ := sealArea_area h₁ ha₁
    exact ⟨a₂, h₂, ha₂, hpw₂.trans hpw₁⟩

theorem held_ks (ks : Ks) (n : Nat) (s : State) (x : Slot) : held { s with ks := ks, freeCtr := n } x = held s x := by
  cases x <;> rfl

/-- K and End after the phases (Table 1.3, R326). -/
theorem endDrain_target {d : Drain} {x : Slot} {a : HoldArea} {s : State} (fails : List (Slot × Fin 128)) (damaged : List Nat)
    (hd : s.pc.drain = some d) (ht : d.target = some x) (he : d.early = false) (hn : d.noTarget = false) (hc : d.cause ≠ 5)
    (hw : s.md.writes = []) (h : held s x = some a) :
    ∃ b, held (endDrain fails damaged s) x = some b ∧ DrainArea s damaged s.pc.slots.length true b ∧
      (endDrain fails damaged s).pc.drain = none ∧ (endDrain fails damaged s).pw.mainPower = s.pw.mainPower ∧
      (endDrain fails damaged s).pw.coreOn = false ∧
      (endDrain fails damaged s).pw.state = if s.pw.mainPower || s.pw.vbat then .hibernate else .off := by
  obtain ⟨b, hb, hab, hpw⟩ := drainPhases_area fails damaged ht he hw h
  have heq : endDrain fails damaged s = powerDown (drainKeep (lostNoTarget d s) (drainPhases d fails damaged s)) := by
    simp [endDrain, hd, hn, hc]
  have hk := drainKeep_ks (lostNoTarget d s) (drainPhases d fails damaged s)
  generalize drainKeep (lostNoTarget d s) (drainPhases d fails damaged s) = u at heq hk
  have hupw : u.pw = s.pw := (congrArg State.pw hk :).trans hpw
  rw [heq]
  refine ⟨b, ?_, hab, rfl, (congrArg Pw.mainPower hupw :), rfl, ?_⟩
  · rw [held_powerDown, hk]
    exact (held_ks _ _ _ x).trans hb
  · rw [powerDown_state, hupw]

/-- A short drain that began its writes (R34). -/
theorem shortDrain_target {d : Drain} {x : Slot} {s u : State} {pages : Fin 2} {fails : List (Slot × Fin 128)} {damaged : List Nat}
    {steps : Nat} (hd : s.pc.drain = some d) (hn : d.noTarget = false) (hu : shortPhases d fails damaged steps s = u) (hpw : u.pw = s.pw) :
    held (shortDrain fails damaged steps pages s) x = held u x ∧ (shortDrain fails damaged steps pages s).pc.drain = none ∧
      (shortDrain fails damaged steps pages s).pw.state = if s.pw.mainPower || s.pw.vbat then .hibernate else .off := by
  have heq : shortDrain fails damaged steps pages s = powerDown (shortKeep pages (lostNoTarget d s) u) := by
    simp [shortDrain, hd, hn, hu]
  have hk := shortKeep_ks pages (lostNoTarget d s) u
  rw [heq, held_powerDown, powerDown_state, hk]
  exact ⟨held_ks _ _ _ x, rfl, by rw [hpw]⟩

theorem held_of_cart {s : State} {x : Slot} {c : Cart} (h : (s.slot x).cart = some c) : held s x = some c.hold := by
  rw [held, h]
  rfl

theorem cart_of_held {s : State} {x : Slot} {a : HoldArea} (h : held s x = some a) : ∃ c, (s.slot x).cart = some c ∧ c.hold = a :=
  Option.map_eq_some_iff.mp h

/-- A drain's end wakes the engine where PFAIL_N has risen meanwhile (R33, R325). -/
theorem drainEnds_wakes {d : Drain} {s : State} {fails : List (Slot × Fin 128)} {damaged : List Nat} (hd : s.pc.drain = some d)
    (hmain : (endDrain fails damaged s).pw.mainPower = s.pw.mainPower) (hcore : (endDrain fails damaged s).pw.coreOn = false)
    (hstate : (endDrain fails damaged s).pw.state = if s.pw.mainPower || s.pw.vbat then .hibernate else .off) :
    ∃ w n, drainEnds fails damaged s = { endDrain fails damaged s with
      pw := { (endDrain fails damaged s).pw with coreOn := decide (d.cause = 0) && s.pw.mainPower, wakeCause := w, wakeN := n } } := by
  unfold drainEnds
  simp only [hd]
  generalize endDrain fails damaged s = u at hmain hcore hstate
  split
  next h =>
    obtain ⟨hc, -, hm⟩ := h
    exact ⟨2, !u.pw.perstLow, by simp [hc, ← hmain, hm]⟩
  next h =>
    have hoff : (decide (d.cause = 0) && s.pw.mainPower) = false := by
      cases hm : s.pw.mainPower with
      | false => simp
      | true =>
        have hc : d.cause ≠ 0 := fun hc => h ⟨hc, by simp [hstate, hm], hmain.trans hm⟩
        simp [hc]
    exact ⟨u.pw.wakeCause, u.pw.wakeN, by rw [hoff, ← hcore]⟩

/-- Settles O10: with no try to end, D3 and D4 write the header and the entries, D5 and D6 leave them but for the commit mark, and K and
End leave the area. -/
theorem drainEndsInHeaderEntriesAndCommit : Obligations.DrainEndsInHeaderEntriesAndCommit := by
  unfold Obligations.DrainEndsInHeaderEntriesAndCommit
  refine ⟨?_, ?_, ?_⟩
  · intro s d x c fails damaged hd ht he hn hc hw hcart
    obtain ⟨b, hb, ⟨h, h₀, hcommit, hboot, htotal, hentries⟩, hdrain, hmain, hcore, hstate⟩ :=
      endDrain_target (s := { s with out := [] }) fails damaged hd ht he hn hc hw (held_of_cart hcart)
    obtain ⟨w, n, ht'⟩ := drainEnds_wakes (s := { s with out := [] }) hd hmain hcore hstate
    obtain ⟨c', hc', rfl⟩ := cart_of_held hb
    refine ⟨_, congrArg Host.Outcome.next ht', c', h, ?_, h₀, hcommit, hboot, htotal, fun i hi => hentries i hi hi, hdrain, rfl, hstate⟩
    exact Eq.trans (by cases x <;> rfl) hc'
  · intro s d x c fails damaged k pages hd ht he hn hw hcart
    obtain ⟨b, hb, ⟨h, h₀, hcommit, hboot, htotal, hentries⟩, hpw⟩ :=
      shortPhases_area (s := { s with out := [] }) fails damaged k ht he hw (held_of_cart hcart)
    obtain ⟨hheld, hdrain, hstate⟩ := shortDrain_target (s := { s with out := [] }) (x := x) (pages := pages) hd hn rfl hpw
    obtain ⟨c', hc', rfl⟩ := cart_of_held (hheld.trans hb)
    refine ⟨_, rfl, c', h, hc', h₀, hcommit, htotal, hboot, fun i hi hk => ?_, hdrain, hstate⟩
    obtain ⟨e, hget, hidx, -, hdata, -, hmedia, -⟩ := hentries i hi hk
    exact ⟨e, hget, hidx, hdata, hmedia⟩
  · intro s d x c fails damaged pages hd ht hn hw hcart
    have hphases : shortPhases d fails damaged 0 { s with out := [] } = endTries d.target fails { s with out := [] } := by
      simp [shortPhases, ht]
    rw [endTries_still (s := { s with out := [] }) hw] at hphases
    obtain ⟨hheld, hdrain, hstate⟩ := shortDrain_target (s := { s with out := [] }) (x := x) (pages := pages) hd hn hphases rfl
    obtain ⟨c', hc', hhold⟩ := cart_of_held (hheld.trans (held_of_cart (c := c) (by cases x <;> exact hcart)))
    exact ⟨_, rfl, ⟨c', hc', hhold⟩, hdrain, hstate⟩

end Sys2Proof.Machine

namespace Sys2Proof.Machine

/-! ### A line's write on a cartridge -/

theorem look_insertKey_same {α β : Type} [DecidableEq α] (k : α) (v : β) (l : List (α × β)) : look k (insertKey k v l) = some v := by
  induction l with
  | nil => simp [insertKey, look]
  | cons e l ih =>
    obtain ⟨a, b⟩ := e
    by_cases h : a = k
    · simp [insertKey, look, h]
    · simp [insertKey, look, h, ih]

theorem look_insertKey_other {α β : Type} [DecidableEq α] {k j : α} (v : β) (l : List (α × β)) (h : j ≠ k) :
    look j (insertKey k v l) = look j l := by
  induction l with
  | nil => simp [insertKey, look, h.symm]
  | cons e l ih =>
    obtain ⟨a, b⟩ := e
    by_cases hk : a = k
    · simp [insertKey, look, hk, h.symm]
    · simp [insertKey, look, hk, ih]

/-- The cartridge as it stands after the command's counting and before its write. -/
def CartKept (s t : State) : Prop := LineKept s t ∧ ∀ x, (t.slot x).cart = (s.slot x).cart

theorem CartKept.trans {s t u : State} (h : CartKept s t) (k : CartKept t u) : CartKept s u :=
  ⟨h.1.trans k.1, fun x => (k.2 x).trans (h.2 x)⟩

theorem cartKept_modSlot (x : Slot) {f : CtSlot → CtSlot} (s : State) (h : ∀ t, (f t).cart = t.cart) : CartKept s (modSlot x f s) := by
  refine ⟨lineKept_modSlot x s fun t => by rw [h], fun y => ?_⟩
  by_cases hy : y = x
  · subst hy
    simp [h]
  · rw [modSlot_slot_ne s x y f hy]

theorem cartKept_md (m : Md) (s : State) : CartKept s { s with md := m } := ⟨lineKept_md m s, fun x => by cases x <;> rfl⟩

theorem cartKept_chargeSlot (x : Slot) (n : Nat) (s : State) : CartKept s (chargeSlot x n s) := by
  unfold chargeSlot
  extract_lets u t
  have hu : CartKept s u := cartKept_modSlot x s fun _ => rfl
  split
  · refine (hu.trans (cartKept_modSlot (f := fun t => { t with eolWarn := true }) x u fun _ => rfl)).trans
      ⟨lineKept_raiseF _ _ _ _ _ _ _ _, fun y => ?_⟩
    rw [slot_congr _ (raiseSer_ct _ x cCART_EOL_WARN t.serial)]
  · exact hu

theorem cartKept_engineWrites (x : Slot) (t : Tempo) (n : Nat) (s : State) : CartKept s (engineWrites x t n s) :=
  (cartKept_chargeSlot x _ s).trans ⟨lineKept_count _ _ _, fun y => by cases y <;> rfl⟩

theorem cartKept_touchBank (x : Slot) (cline : Nat) (s : State) : CartKept s (touchBank x cline s) :=
  CartKept.trans (t := { s with gl := { s.gl with bankLast := s.gl.bankLast.set (bankNo x (bankOf cline)) s.now } })
    ⟨⟨rfl, fun x => by cases x <;> rfl⟩, fun x => by cases x <;> rfl⟩ (cartKept_modSlot (f := fun t => { t with
      linkUse := s.now, flitFails := 0, link := if t.link = .idle then .active else t.link }) x _ fun _ => rfl)

theorem noteTries_md (n : Nat) (s : State) : noteTries n s = { s with md := (noteTries n s).md } ∧ (noteTries n s).md.injArmed = s.md.injArmed := by
  unfold noteTries
  split
  · exact ⟨rfl, rfl⟩
  · split
    · exact ⟨rfl, rfl⟩
    · split <;> exact ⟨rfl, rfl⟩

/-- A try that passes counts, and changes nothing else (Table 4.17). -/
theorem tryLine_passes (x : Slot) (cline : Nat) (k : Fin 8) (w : Tries) (s : State) :
    (tryLine x cline (some k :: w) s).2 = true ∧ CartKept s (tryLine x cline (some k :: w) s).1 ∧
      (tryLine x cline (some k :: w) s).1.md.injArmed = s.md.injArmed := by
  obtain ⟨hs, hi⟩ := noteTries_md (k.val + 1) (bumpGap x cline 1 s)
  refine ⟨rfl, ?_, hi⟩
  have h : (tryLine x cline (some k :: w) s).1 = noteTries (k.val + 1) (bumpGap x cline 1 s) := rfl
  rw [h, hs]
  exact (cartKept_md _ s).trans (cartKept_md _ _)

/-! ### An entry is replayed (R35) -/

/-- The line of a replayed entry of a whole line. -/
def entryLine (e : HoldEntry) : StoredLine :=
  { data := e.data, keyCtx := e.ctx.val, keyGen := e.keyGen, tweak := e.off, poison := e.poison || false, tempo := e.tempo.bits, fresh := false }

/-- A whole line whose write verifies stands on its home. -/
theorem replayWrite_passes {e : HoldEntry} {first x : Slot} {cl : Nat} {k : Fin 8} {w : Tries} {s : State} (hm : e.mask = fullMask)
    (hi : s.md.injArmed = false) (hd : s.duet.state ≠ .mirrorDegraded) :
    ∃ u, CartKept s u ∧ (replayWrite e first (s, some k :: w) (x, cl)).1 = storeLine x cl (entryLine e) u := by
  have h₁ := (cartKept_engineWrites x e.tempo 1 s).trans (cartKept_touchBank x cl _)
  have hi₁ : (touchBank x cl (engineWrites x e.tempo 1 s)).md.injArmed = false := by simp [touchBank, useLink, hi]
  generalize hu : touchBank x cl (engineWrites x e.tempo 1 s) = u at h₁ hi₁
  obtain ⟨hok, h₂, hi₂⟩ := tryLine_passes x cl k w u
  have hk := h₁.trans h₂
  have hdu : (tryLine x cl (some k :: w) u).1.duet.state = s.duet.state := (congrArg (fun t : State => t.duet.state) hk.1.1 :)
  refine ⟨_, hk, ?_⟩
  unfold replayWrite
  simp only [hu, hm, if_true, wholeWrite, hok, markResync, hdu, if_neg hd, writeLine, injectStored, injNames, hi₂, hi₁, Bool.false_and,
    if_neg Bool.false_ne_true, entryLine]

/-- The area that is read is in a cartridge that serves (R35). -/
theorem areaSlot_serves {s : State} {x : Slot} (h : areaSlot s = some x) : (s.slot x).serves = true := by
  have hmem : x ∈ [soughtSlot s, (soughtSlot s).other].filter fun y => s.duet.names y && (s.slot y).serves := by
    unfold areaSlot at h
    extract_lets y named at h
    have hsub : ∀ l, named.filter (fun y => (drainBoot s y).isSome) = l → ∀ y ∈ l, y ∈ named := by
      rintro l rfl y hy
      exact List.mem_of_mem_filter hy
    split at h
    next y z hl =>
      split at h <;> cases h <;> exact hsub _ hl _ (by simp)
    next y l _ hl => cases h; exact hsub _ hl _ (by simp)
    next => exact List.mem_of_find?_eq_some h
  simp only [List.mem_filter, Bool.and_eq_true] at hmem
  exact hmem.2.2

/-- The next entry of a SOLO_A duet in REPLAY, whose home takes a write and finds a tag (R35, R53). -/
theorem nextReplay_soloA {s : State} {c : Cart} {p : Nat} {e : HoldEntry} (hp : s.pw.state = .replay) (hdr : s.pc.drain = none)
    (hd : s.duet.state = .soloA) (ha : areaSlot s = some .a) (hr : replayReady s [(.a, e.media)] = true)
    (ht : tagFree s .wbk e.ctx = true) (hc : (s.slot .a).cart = some c) (hn : nextEntry c.hold s.pc.replayIdx = some (p, e)) :
    nextReplay s = some (p, e, [(.a, e.media)]) := by
  have hrun : replaying s = true := by simp [replaying, hdr, hp]
  have harea : pendingArea s = some c.hold := by simp [pendingArea, ha, hc]
  have hhome : replayHomes s e.media = [(.a, e.media)] := by simp [replayHomes, hd, homesServed, writeHomes, areaSlot_serves ha]
  simp [nextReplay, hrun, harea, hn, hhome, hr, ht]

/-- What the arbiters' grants leave of the readiness of a home (R59). -/
theorem replayReady_later {s t : State} (h : Still s) (k : Later s t) (l : List (Slot × Nat)) : replayReady t l = replayReady s l := by
  obtain ⟨-, hct, hmd, -⟩ := k.1.same
  simp only [replayReady, inhibited_later h k, bankFree, linkReady, hmd, slot_congr s hct]

theorem takeTag_cartKept (cls : TagClass) (c : Ctx) (s : State) : CartKept s (takeTag cls c s) :=
  ⟨⟨rfl, fun x => by cases x <;> rfl⟩, fun x => by cases x <;> rfl⟩

/-- The entry stands on its home, and the position advances (R35). -/
theorem replayEntry_passes {s : State} {c : Cart} {p : Nat} {e : HoldEntry} {k : Fin 8} {w : Tries}
    (hnext : nextReplay s = some (p, e, [(.a, e.media)])) (hm : e.mask = fullMask) (hi : s.md.injArmed = false)
    (hd : s.duet.state ≠ .mirrorDegraded) (hc : (s.slot .a).cart = some c) :
    ∃ t, replayEntry (some k :: w) s = t ∧ (t.slot .a).cart = some { c with lines := insertKey e.media (entryLine e) c.lines } ∧
      t.pc.replayIdx = p + 1 ∧ t.pc.replayCount = s.pc.replayCount + 1 ∧ t.pc.slots = s.pc.slots := by
  obtain ⟨u, hk, hu⟩ := replayWrite_passes (e := e) (first := .a) (x := .a) (cl := e.media) (k := k) (w := w)
    (s := takeTag .wbk e.ctx s) hm hi hd
  have hks := (takeTag_cartKept .wbk e.ctx s).trans hk
  have hcart : ((storeLine .a e.media (entryLine e) u).slot .a).cart = some { c with lines := insertKey e.media (entryLine e) c.lines } := by
    simp [storeLine, modCart, hks.2, hc]
  refine ⟨_, by simp only [replayEntry, hnext, List.foldl_cons, List.foldl_nil, List.head?_cons, Option.map_some, Option.getD_some, hu]; rfl,
    ?_, rfl, ?_, ?_⟩
  · exact hcart
  · simp [hks.1.pc]
  · simp [hks.1.pc]

theorem lineAt_stored (c : Cart) (cl : Nat) (l : StoredLine) : lineAt { c with lines := insertKey cl l c.lines } cl = l := by
  simp [lineAt, look_insertKey_same]

theorem lineAt_other (c : Cart) {cl n : Nat} (l : StoredLine) (h : n ≠ cl) :
    lineAt { c with lines := insertKey cl l c.lines } n = lineAt c n := by
  simp [lineAt, look_insertKey_other _ _ h]

theorem replaysEntry {s : State} {c : Cart} {p : Nat} {e : HoldEntry} {k : Fin 8} {j : Option (Fin 8)} {w : Tries}
    (hp : s.pw.state = .replay) (hdr : s.pc.drain = none) (hs : Still s) (hd : s.duet.state = .soloA) (ha : areaSlot s = some .a)
    (hr : replayReady s [(.a, e.media)] = true) (ht : tagFree s .wbk e.ctx = true) (hi : s.md.injArmed = false)
    (hc : (s.slot .a).cart = some c) (hn : nextEntry c.hold s.pc.replayIdx = some (p, e)) (hm : e.mask = fullMask) :
    ∃ t, replayNext (some k :: j :: w) s = t ∧ (t.slot .a).cart = some { c with lines := insertKey e.media (entryLine e) c.lines } ∧
      t.pc.replayIdx = p + 1 ∧ t.pc.replayCount = s.pc.replayCount + 1 ∧ t.pc.slots = s.pc.slots := by
  have hl₁ : Later s (askTag .wbk s) := askTag_later _ hs.1
  have hl : Later s (askBanks bkReplay [(.a, e.media)] (askTag .wbk s)) := hl₁.trans (askBanks_later (hl₁.1.minuteOpen hs.1))
  have hnext := nextReplay_soloA hp hdr hd ha hr ht hc hn
  have heq : replayNext (some k :: j :: w) s = replayEntry (some k :: j :: w) (askBanks bkReplay [(.a, e.media)] (askTag .wbk s)) := by
    simp [replayNext, hnext]
  rw [heq]
  have hr' := (replayReady_later hs hl _).trans hr
  have ht' := (tagFree_later hs hl _ _).trans ht
  obtain ⟨n, g, hu⟩ : ∃ n g, askBanks bkReplay [(.a, e.media)] (askTag .wbk s) = { s with now := n, gl := g } := ⟨_, _, hl.1.eq⟩
  rw [hu] at hr' ht' ⊢
  exact replayEntry_passes (nextReplay_soloA (s := { s with now := n, gl := g }) hp hdr hd ha hr' ht' hc hn) hm hi
    (by rw [hd]; decide) hc

/-! ### REST with the hold area pending (R329) -/

/-- The arm of STANDBY is no matter of the engine's state. -/
theorem dropArm_state (s : State) : (dropArm s).pw.state = s.pw.state ∧ (dropArm s).pc = s.pc := by
  unfold dropArm
  split <;> exact ⟨rfl, rfl⟩

theorem enterRest_state (bit test : Nat) (slot held : Bool) (code : BitVec 8) (s : State) :
    (enterRest bit test slot held code s).pw.state = .rest ∧ (enterRest bit test slot held code s).pc = s.pc := by
  unfold enterRest
  extract_lets u bt v was w hl aer x
  have hx : x.pw.state = .rest ∧ x.pc = s.pc := by
    obtain ⟨hs, hp⟩ := dropArm_state (goState .rest code v)
    exact ⟨hs.trans (goState_state _ _ _), hp.trans (goState_pc _ _ _)⟩
  split
  · exact hx
  · rw [raise_pw, raise_pc]
    exact hx

/-- REST is entered with the area pending, which is HELD (R303). -/
theorem holdPending_held (code : BitVec 8) (s : State) :
    (holdPending code s).pw.state = .rest ∧ (holdPending code s).pc = { s.pc with replayPending := true } ∧
      restMode (holdPending code s) = 2 := by
  obtain ⟨hs, hp⟩ : (holdPending code s).pw.state = .rest ∧ (holdPending code s).pc = { s.pc with replayPending := true } :=
    enterRest_state _ _ _ _ _ _
  exact ⟨hs, hp, by simp [restMode, restHeld, hs, hp]⟩

theorem replayLate_due {s : State} (hp : s.pw.state = .replay) (hd : s.pc.drain = none) (hn : 750 * ms ≤ s.now) :
    replayLate s = holdPending cREPLAY_LATE (raise uPW cREPLAY_LATE noCtx (lo32 (entriesLeft s)) 0 0 s) := by
  have h : ¬(s.pw.state ≠ .replay ∨ s.now < 750 * ms ∨ s.pc.drain.isSome = true) := by
    rintro (h | h | h)
    · exact h hp
    · exact absurd hn (Nat.not_le.mpr h)
    · simp [hd] at h
  rw [replayLate, if_neg h]

theorem replayInhibit_due {s : State} {x : Slot} {n : Nat} (hp : s.pw.state = .replay) (hd : s.pc.drain = none)
    (ha : areaSlot s = some x) (hi : inhibitedAt s x = some n) (hn : n + 500 * ms ≤ s.now) :
    replayInhibit s = holdPending cFIELD (logField 0 s) := by
  have hlong : ((areaSlot s).elim false fun x => (inhibitedAt s x).elim false fun c => decide (c + 500 * ms ≤ s.now)) = true := by
    rw [ha, Option.elim_some, hi, Option.elim_some]
    exact decide_eq_true hn
  unfold replayInhibit
  exact if_pos ⟨hp, hlong, by rw [hd]; rfl⟩

/-! ### What the ledger's work leaves alone -/

/-- The hold buffer and the engine's state stay; nothing is queued. -/
def LedgerKept (s t : State) : Prop := t.pc = s.pc ∧ t.pw = s.pw ∧ t.pending = s.pending

theorem LedgerKept.refl (s : State) : LedgerKept s s := ⟨rfl, rfl, rfl⟩

theorem LedgerKept.trans {s t u : State} (h : LedgerKept s t) (k : LedgerKept t u) : LedgerKept s u :=
  ⟨k.1.trans h.1, k.2.1.trans h.2.1, k.2.2.trans h.2.2⟩

theorem LineKept.ledger {s t : State} (h : LineKept s t) : LedgerKept s t := ⟨h.pc, h.pw, h.pending⟩

theorem ledgerKept_raise (u : BitVec 5) (k c : BitVec 8) (d0 d1 d2 : Word) (s : State) : LedgerKept s (raise u k c d0 d1 d2 s) :=
  (lineKept_raiseF u k c 0 d0 d1 d2 s).ledger

theorem ledgerKept_endRecord (s : State) (tag : Nat) : LedgerKept s (endRecord s tag) := by
  unfold endRecord
  split <;> exact ⟨by simp, by simp, by simp⟩

theorem ledgerKept_writeLate (l : List LateRing) : ∀ (w : Tries) (s : State), LedgerKept s (writeLate l w s).1 := by
  induction l with
  | nil => exact fun _ s => .refl s
  | cons e l ih =>
    intro w s
    unfold writeLate
    split
    · extract_lets lg u
      have hu : LedgerKept s u := ⟨rfl, rfl, rfl⟩
      split
      next v w' hv =>
        have hvk : LedgerKept u v := by
          split at hv
          · rw [show v = (putRing (lateLine u e) e.seq e.line w u).1 by rw [hv]]
            exact (lineKept_putRing _ _ _ _ u).ledger
          · rw [← (Prod.mk.inj hv).1]
            exact .refl u
        exact ((hu.trans hvk).trans (ledgerKept_endRecord v e.tag)).trans (ih _ _)
    · exact ih w s

theorem ledgerKept_writeRing (seq tag : Nat) (l : Line) (homes : List (Slot × Nat)) :
    ∀ (w : Tries) (s : State), LedgerKept s (writeRing seq tag l homes w s).1 := by
  induction homes with
  | nil => exact fun _ s => .refl s
  | cons h homes ih =>
    intro w s
    unfold writeRing
    split
    · exact (lineKept_putRing h seq l w s).ledger.trans (ih _ _)
    · exact LedgerKept.trans ⟨rfl, rfl, rfl⟩ (ih w _)

theorem ledgerKept_ringHigh (s : State) : LedgerKept s (ringHigh s) := by
  unfold ringHigh
  extract_lets f
  split
  · split
    · exact .refl s
    · exact LedgerKept.trans ⟨rfl, rfl, rfl⟩ (ledgerKept_raise _ _ _ _ _ _ _)
  · split <;> exact ⟨rfl, rfl, rfl⟩

theorem ledgerKept_issueRecord (w : Tries) (s : State) : LedgerKept s (issueRecord w s).1 := by
  unfold issueRecord
  extract_lets done seq homes t
  split
  · exact .refl s
  next u rest _ =>
    split
    · exact .refl s
    next l more _ =>
      split
      · exact .refl s
      · split
        next v w' hv =>
          have hw := ledgerKept_writeRing seq t.id (withSeq seq l) homes w (takeTag .ledg provider s)
          rw [hv] at hw
          have hr := hw.trans (ledgerKept_endRecord v t.id)
          exact LedgerKept.trans (LedgerKept.trans (t := takeTag .ledg provider s) ⟨rfl, rfl, rfl⟩ hr)
            (LedgerKept.trans ⟨rfl, rfl, rfl⟩ (ledgerKept_ringHigh _))

theorem ledgerKept_sealMarkers (l : List LgUnit) : ∀ s : State, LedgerKept s (sealMarkers l s) := by
  induction l with
  | nil => exact LedgerKept.refl
  | cons u l ih =>
    intro s
    unfold sealMarkers
    split
    · exact LedgerKept.trans ⟨rfl, rfl, rfl⟩ (ih _)
    · exact .refl s

theorem ledgerKept_ledgerWriteWith (w : Tries) (s : State) : LedgerKept s (ledgerWriteWith w s).1 :=
  ((ledgerKept_writeLate s.lg.late w s).trans (ledgerKept_issueRecord _ _)).trans (ledgerKept_sealMarkers _ _)

theorem ledgerKept_dropOldest (s : State) : LedgerKept s (dropOldest s) := by
  unfold dropOldest
  split
  · split
    · exact LedgerKept.trans ⟨rfl, rfl, rfl⟩ (ledgerKept_raise _ _ _ _ _ _ _)
    · exact .refl s
  · exact .refl s

theorem ledgerKept_formRing (kind : KsKind) (r : RingDef) (get : Ks → Nat) (set : Ks → Nat → Ks) (payload : List Byte) (chg : Word)
    (s : State) : LedgerKept s (formRing kind r get set payload chg s) := ⟨rfl, rfl, rfl⟩

theorem ledgerKept_formTotals (lost : Nat) (s : State) : LedgerKept s (formTotals lost s) :=
  ((ledgerKept_dropOldest s).trans (ledgerKept_dropOldest _)).trans (ledgerKept_formRing _ _ _ _ _ _ _)

theorem ledgerKept_frameSealed (s : State) : LedgerKept s (frameSealed s) := by
  unfold frameSealed
  split
  · split
    · exact .refl s
    · refine LedgerKept.trans (LedgerKept.trans ?_ (ledgerKept_formTotals 0 _)) (ledgerKept_sealMarkers _ _)
      exact ⟨by simp [pulseLine], by simp [pulseLine], by simp [pulseLine]⟩
  · exact .refl s

theorem ledgerKept_writeWaiting (n : Nat) : ∀ (w : Tries) (s : State), LedgerKept s (writeWaiting n w s).1 := by
  induction n with
  | zero => exact fun _ s => .refl s
  | succ n ih =>
    intro w s
    exact ((ledgerKept_ledgerWriteWith w s).trans (ledgerKept_frameSealed _)).trans (ih _ _)

theorem ledgerKept_writeAll (w : Tries) (s : State) : LedgerKept s (writeAll w s).1 := ledgerKept_writeWaiting _ w s

theorem ledgerKept_closeMinute (extra : BitVec 8) (next : Nat) (flags : BitVec 8) (trail : List LgUnit) (s : State) :
    LedgerKept s (closeMinute extra next flags trail s) := by
  have hm : LedgerKept s (mergeOn s) := by
    unfold mergeOn
    split
    · exact .refl s
    · exact LedgerKept.trans ⟨rfl, rfl, rfl⟩ (ledgerKept_raise _ _ _ _ _ _ _)
  unfold closeMinute
  extract_lets k
  split
  · exact hm
  · split <;> exact ⟨rfl, rfl, rfl⟩

theorem ledgerKept_chargeAll (s : State) : LedgerKept s (chargeAll s) := by
  have h : ∀ l : List Slot, ∀ s, LedgerKept s (l.foldl (fun s x => wantSv x 0x04 s) s) := by
    intro l
    induction l with
    | nil => exact LedgerKept.refl
    | cons x l ih =>
      intro s
      exact LedgerKept.trans ⟨modSlot_pc _ _ _, modSlot_pw _ _ _, modSlot_pending _ _ _⟩ (ih _)
  exact h _ s

theorem ledgerKept_resumeMinute (extra : BitVec 8) (trail : Nat → List LgUnit) (s : State) :
    LedgerKept s (resumeMinute extra trail s) := by
  unfold resumeMinute
  extract_lets m same lg u
  have hu : LedgerKept s u := ⟨rfl, rfl, rfl⟩
  split
  · exact hu
  · refine (hu.trans ((ledgerKept_closeMinute extra m 0x08 (trail m) u).trans (ledgerKept_chargeAll _))).trans ?_
    rw [swapMinute_shape]
    exact ⟨rfl, rfl, rfl⟩

theorem ledgerKept_takeInterrupted (i : Interrupted) (lgt : Nat) (s : State) : LedgerKept s (takeInterrupted i lgt s) := ⟨rfl, rfl, rfl⟩

theorem ledgerKept_addBank (bank : Vector Counters 129) (totals : Counters) (g : Lg) (s : State) :
    LedgerKept s (addBank bank totals { s with lg := g }) := ⟨rfl, rfl, rfl⟩

/-- Reconciliation opens the ledger and sets the ASN to 0; the hold buffer and the engine's state stay (R178). -/
theorem reconcile_kept (target : Option Slot) (replayed : Nat) (w : Tries) (s : State) :
    ∃ v : State, v.pc = { s.pc with reconciled := true } ∧ v.pw = s.pw ∧ v.pending = s.pending ∧ reconcile target replayed w s = { v with
      pc := { v.pc with asn := 0 }, lg := { v.lg with islandLost := false }, pw := { v.pw with lpEnter := none, planned := false } } := by
  unfold reconcile
  extract_lets pc cart start none' sumOf lost sleep
  split
  next seq minute more _ =>
  extract_lets ringEpoch
  split
  next src held _ =>
  extract_lets frame i lgt epoch stopped entered m off trail
  split
  next s₁ w₁ h₁ =>
  extract_lets lg₁
  split
  next s₂ w₂ h₂ =>
  extract_lets bank totals s₃ s₄ lg₄ s₅ s₆ s₇ s₈ s₉ s₁₀
  have k₁ := ledgerKept_writeAll w (adoptRing seq minute more frame i.epoch s)
  rw [h₁] at k₁
  have k₂ : LedgerKept s₁ s₂ := by
    split at h₂
    · rw [← (Prod.mk.inj h₂).1]
      exact .refl s₁
    · have k := ledgerKept_writeAll w₁ { s₁ with lg := { lg₁ with outq := s₁.lg.outq ++ [off] } }
      rw [h₂] at k
      exact LedgerKept.trans ⟨rfl, rfl, rfl⟩ k
  have k₃ : LedgerKept s₂ s₃ := ledgerKept_takeInterrupted i lgt s₂
  have k₄ : LedgerKept s₃ s₄ := ledgerKept_resumeMinute s₃.lg.flags trail s₃
  have k₅ : LedgerKept s₄ s₅ := ledgerKept_addBank bank totals _ s₄
  have k₆ : LedgerKept s₅ s₆ := ledgerKept_writeAll w₂ s₅
  have k₇ : LedgerKept s₆ s₇ := by
    show LedgerKept s₆ (if src = 3 then _ else _)
    split
    · cases target with
      | none => exact .refl s₆
      | some x => exact (lineKept_chargeSlot x _ s₆).ledger
    · exact .refl s₆
  have k₈ : LedgerKept s₇ s₈ := ledgerKept_formTotals 0 s₇
  have k₉ : LedgerKept s₈ s₉ := by
    show LedgerKept s₈ (if src = 4 then _ else _)
    split
    · exact ledgerKept_raise _ _ _ _ _ _ s₈
    · exact .refl s₈
  have k₁₀ : LedgerKept s₉ s₁₀ := ledgerKept_raise _ _ _ _ _ _ s₉
  obtain ⟨hpc, hpw, hpending⟩ := (((((k₁.trans k₂).trans (k₃.trans k₄)).trans (k₅.trans k₆)).trans k₇).trans k₈).trans (k₉.trans k₁₀)
  exact ⟨s₁₀, hpc, hpw, hpending, rfl⟩

/-- What the drain lost is counted in PC's registers and the log; no line and no state changes (R37). -/
theorem countLost_kept (s : State) :
    (countLost s).pc.slots = s.pc.slots ∧ (countLost s).pw = s.pw := by
  have hnote : (noteDrains s).pc.slots = s.pc.slots ∧ (noteDrains s).pw = s.pw := by
    unfold noteDrains
    extract_lets n changed pc u
    split <;> exact ⟨rfl, rfl⟩
  unfold countLost
  extract_lets header u lost v n pc lg
  have hfold : ∀ (l : List (Nat × Nat)) (t : State), (fun t : State => (t.pc.slots, t.pw)) (l.foldl (fun s e =>
      raise uPC cDRAIN_SHORT (BitVec.ofNat 8 e.1) (lo32 e.2) (lo32 s.pc.dirtyCount.toNat) 0
        { s with pc := { s.pc with replayLost := s.pc.replayLost + e.2 } }) t) = (t.pc.slots, t.pw) := fun l t =>
    foldl_keeps (fun t : State => (t.pc.slots, t.pw)) _ (fun s e => by simp only [raise_pc, raise_pw]) l t
  obtain ⟨hs, hp⟩ := Prod.mk.inj (hfold lost u)
  have hv : v.pc.slots = s.pc.slots ∧ v.pw = s.pw := ⟨hs.trans hnote.1, hp.trans hnote.2⟩
  split
  · exact hv
  · refine ⟨?_, ?_⟩
    · exact (congrArg Pc.slots (lineKept_raiseF uPC cDRAIN_SHORT (ctxByte provider) 1 (lo32 n) (lo32 v.pc.dirtyCount.toNat) 0
        { v with pc := { pc with replayLost := v.pc.replayLost + n }, lg := { lg with lostNoTarget := 0 } }).pc).trans hv.1
    · exact (lineKept_raiseF uPC cDRAIN_SHORT (ctxByte provider) 1 (lo32 n) (lo32 v.pc.dirtyCount.toNat) 0
        { v with pc := { pc with replayLost := v.pc.replayLost + n }, lg := { lg with lostNoTarget := 0 } }).pw.trans hv.2

/-- Settles O14: an entry's write goes through `replayWrite`, the ledger's work keeps the hold buffer, and `holdPending` enters REST. -/
theorem replayWritesHomeOrRests : Obligations.ReplayWritesHomeOrRests := by
  unfold Obligations.ReplayWritesHomeOrRests
  refine ⟨?_, ?_, ?_, ?_, ?_⟩
  · intro s c p e k j w hp hdr hs hd ha hr ht hi hc hn hm
    obtain ⟨t, he, hcart, hidx, hcount, hslots⟩ := replaysEntry (s := { s with out := [] }) (j := j) (k := k) (w := w) hp hdr hs hd ha hr ht hi hc hn hm
    refine ⟨t, congrArg Host.Outcome.next he, ⟨_, hcart, ?_⟩, hidx, hcount, hslots⟩
    rw [lineAt_stored]
    exact ⟨rfl, rfl, rfl, rfl, Bool.or_false _, fun n hne => lineAt_other c _ hne⟩
  · intro s w hp hdr hdone hrec habs
    obtain ⟨hslots, hpw⟩ := countLost_kept { s with out := [] }
    obtain ⟨v, hvpc, hvpw, -, he⟩ := reconcile_kept (areaSlot { s with out := [] }) s.pc.replayCount w (countLost { s with out := [] })
    have hnow : reconcileNow w { s with out := [] } =
        reconcile (areaSlot { s with out := [] }) s.pc.replayCount w (countLost { s with out := [] }) := by
      refine if_neg ?_
      rintro (h | h | h | h)
      · simp [replaying, hdr, hp] at h
      · exact absurd h (by rw [show replayDone { s with out := [] } = true from hdone]; decide)
      · exact absurd h (by rw [hrec]; decide)
      · exact absurd h (by rw [show areaAbsent { s with out := [] } = false from habs]; decide)
    refine ⟨_, congrArg Host.Outcome.next (hnow.trans he), ?_, rfl, rfl, ?_, ?_⟩
    · exact congrArg Pc.reconciled hvpc
    · exact (congrArg Pc.slots hvpc :).trans hslots
    · exact (congrArg Pw.state (hvpw.trans hpw) :).trans hp
  · intro s hp hd hn
    obtain ⟨hstate, hpc, hheld⟩ := holdPending_held cREPLAY_LATE (raise uPW cREPLAY_LATE noCtx (lo32 (entriesLeft { s with out := [] })) 0 0 { s with out := [] })
    rw [raise_pc] at hpc
    exact ⟨_, congrArg Host.Outcome.next (replayLate_due (s := { s with out := [] }) hp hd hn), hstate, congrArg Pc.replayPending hpc, hheld,
      (congrArg Pc.slots hpc :)⟩
  · intro s hn
    exact congrArg Host.Outcome.next (if_pos (.inr (.inl hn)))
  · intro s x n hp hd ha hi hn
    obtain ⟨hstate, hpc, hheld⟩ := holdPending_held cFIELD (logField 0 { s with out := [] })
    exact ⟨_, congrArg Host.Outcome.next (replayInhibit_due (s := { s with out := [] }) hp hd ha (by cases x <;> exact hi) hn), hstate,
      (congrArg Pc.replayPending hpc :), hheld⟩

end Sys2Proof.Machine

namespace Sys2Proof.Machine

/-! ### The queue of waiting commands: how a compound of functions keeps it

Each function of the model that a command's arm reaches leaves `pending` as it is. One lemma per function says so, in the order of the
model's files, proved from the lemmas about the functions that it calls: a chain of `trans` names them from the last one that runs to
the first, and a step that only updates other fields needs no name. `delta` opens a definition whose match has to be split, without
the equation lemma that `unfold` adds to the file. -/

theorem ite_keeps {p : Prop} [Decidable p] {t u : State} {q : List Instr} (ht : t.pending = q) (hu : u.pending = q) :
    (if p then t else u).pending = q := by
  split <;> assumption

@[simp] theorem ite_pending (p : Prop) [Decidable p] (s t : State) :
    (if p then s else t).pending = if p then s.pending else t.pending :=
  apply_ite State.pending p s t

@[simp] theorem ite_fst_pending {β : Type} (p : Prop) [Decidable p] (s t : State × β) :
    (if p then s else t).1.pending = if p then s.1.pending else t.1.pending := apply_ite (fun x : State × β => x.1.pending) p s t

@[simp] theorem foldl_pending {α : Type} {f : State → α → State} (l : List α) (s : State) (h : ∀ s a, (f s a).pending = s.pending) :
    (l.foldl f s).pending = s.pending := foldl_keeps (fun s : State => s.pending) f h l s

@[simp] theorem foldl_fst_pending {α β : Type} {f : State × β → α → State × β} (l : List α) (s : State × β)
    (h : ∀ s a, (f s a).1.pending = s.1.pending) : (l.foldl f s).1.pending = s.1.pending := by
  induction l generalizing s with
  | nil => rfl
  | cons a l ih => exact (ih _).trans (h s a)

@[simp] theorem elim_pending {α : Type} (o : Option α) {s : State} {f : α → State} (h : ∀ a, (f a).pending = s.pending) :
    (o.elim s f).pending = s.pending := by
  cases o with
  | none => rfl
  | some a => exact h a

/-! ### The queue is kept: shared operations (Ops) -/

@[simp] theorem guarded_pending (p : Bool) {f : State → State} (h : ∀ s, (f s).pending = s.pending) (s : State) :
    (guarded p f s).pending = s.pending := by
  unfold guarded
  split
  · exact h s
  · rfl

@[simp] theorem freezeBank_pending (k : Closing) (s : State) : (freezeBank k s).pending = s.pending := by rfl

@[simp] theorem swapMinute_pending (s : State) : (swapMinute s).pending = s.pending := by
  unfold swapMinute
  split <;> simp

/-! ### The queue is kept: arbiters (Arbiter) -/

@[simp] theorem noteWait_pending (cls : BitVec 8) (age : Nat) (s : State) : (noteWait cls age s).pending = s.pending := ite_keeps rfl rfl

@[simp] theorem sendAll_pending (tag : Option Nat) (l : List Out) (s : State) : (sendAll tag l s).pending = s.pending := by
  induction l generalizing s with
  | nil => simp [sendAll]
  | cons o l ih =>
    cases l with
    | nil => simp [sendAll]
    | cons p l => simpa [sendAll] using ih (send o none s)

@[simp] theorem resumeEgress_pending (k : Credit) (s : State) : (resumeEgress k s).pending = s.pending :=
  foldl_pending _ _ fun _ _ => send_pending ..

/-! ### The queue is kept: events and the log (Events) -/

@[simp] theorem raiseEngine_pending (n : Nat) (s : State) : (raiseEngine n s).pending = s.pending := by rfl

@[simp] theorem raiseCtxVec_pending (c : BitVec 8) (s : State) : (raiseCtxVec c s).pending = s.pending := by
  unfold raiseCtxVec
  split <;> simp

@[simp] theorem raiseDma_pending (n : Fin 32) (s : State) : (raiseDma n s).pending = s.pending := by rfl

@[simp] theorem queueTenant_pending (e : EvEntry) (s : State) : (queueTenant e s).pending = s.pending :=
  ite_keeps (modTenant_pending ..) rfl

@[simp] theorem routeEntry_pending (r : BitVec 8) (e : EvEntry) (s : State) : (routeEntry r e s).pending = s.pending :=
  ite_keeps ((raiseEngine_pending ..).trans (ite_keeps ((raiseCtxVec_pending ..).trans (queueTenant_pending ..)) rfl)) (ite_keeps
      ((raiseCtxVec_pending ..).trans (queueTenant_pending ..)) rfl)

@[simp] theorem writeEntry_pending (s : State) : (writeEntry s).pending = s.pending := by
  unfold writeEntry
  split <;> simp

@[simp] theorem openLog_pending {lpExit : State → State} (h : ∀ s, (lpExit s).pending = s.pending) (s : State) :
    (openLog lpExit s).pending = s.pending := by
  simp [openLog, h]

/-! ### The queue is kept: media (Media) -/

@[simp] theorem disarmRead_pending (x : Slot) (cline : Nat) (s : State) : (disarmRead x cline s).pending = s.pending :=
  ite_keeps (nextFree_pending ..) rfl

@[simp] theorem injectStored_pending (x : Slot) (cline : Nat) (l : StoredLine) (s : State) :
    (injectStored x cline l s).1.pending = s.pending := by simp [injectStored]

@[simp] theorem writeLine_pending (x : Slot) (cline : Nat) (l : StoredLine) (s : State) :
    (writeLine x cline l s).pending = s.pending := by simp [writeLine]

@[simp] theorem noteError_pending (x : Slot) (cline : Nat) (code : BitVec 8) (ctx : BitVec 8) (weight : BitVec 4) (s : State) :
    (noteError x cline code ctx weight s).pending = s.pending := ite_keeps rfl rfl

@[simp] theorem mediaEvent_pending (dpa : Nat) (code : BitVec 8) (s : State) : (mediaEvent dpa code s).pending = s.pending :=
  ite_keeps rfl (ite_keeps rfl rfl)

@[simp] theorem useLink_pending (x : Slot) (s : State) : (useLink x s).pending = s.pending := modSlot_pending ..
@[simp] theorem touchBank_pending (x : Slot) (cline : Nat) (s : State) : (touchBank x cline s).pending = s.pending := useLink_pending ..

@[simp] theorem senseLine_pending (x : Slot) (cline : Nat) (who : Ctx) (off : Nat) (e : Sense) (s : State) :
    (senseLine x cline who off e s).1.pending = s.pending := by
  unfold senseLine
  dsimp only
  (repeat' split) <;> simp

@[simp] theorem readMedia_pending (x : Slot) (cline : Nat) (who : Ctx) (tweak : Nat) (e : Sense) (s : State) :
    (readMedia x cline who tweak e s).1.pending = s.pending := by
  unfold readMedia
  dsimp only
  (repeat' split) <;> simp

@[simp] theorem reservedRead_pending (x : Slot) (cline : Nat) (record : Line) (e : Sense) (s : State) :
    (reservedRead x cline record e s).1.pending = s.pending := by
  have h := senseLine_pending x cline provider 0 e s
  unfold reservedRead
  dsimp only
  split <;> next hr => rw [hr] at h; simpa using h

@[simp] theorem readLine_pending (who : Ctx) (off line : Nat) (e : Sense) (s : State) :
    (readLine who off line e s).1.pending = s.pending := by
  unfold readLine
  extract_lets media
  have hmedia : (media s).1.pending = s.pending := by
    simp only [media]
    split <;> simp
  split
  · exact hmedia
  · split
    · simp
    · split
      · rfl
      · split <;> next hr => rw [hr] at hmedia; exact hmedia

/-! ### The queue is kept: the hold buffer (Hold) -/

@[simp] theorem recompute_pending (v10mv : BitVec 16) (s : State) : (recompute v10mv s).pending = s.pending := by
  rw [recompute_eq]
  split <;> simp [noteDegraded]

@[simp] theorem spendTokens_pending (c : Ctx) (k : Nat) (s : State) : (spendTokens c k s).pending = s.pending := by rfl

@[simp] theorem retire_pending (id : Nat) (s : State) : (retire id s).pending = s.pending := by
  delta retire
  split
  · rfl
  · exact .trans (ite_keeps (send_pending ..) rfl) (dropTagOpt_pending ..)

@[simp] theorem modReq_pending (id : Nat) (f : Req → Req) (s : State) : (modReq id f s).pending = s.pending := by rfl

@[simp] theorem lineVerified_pending (id : Nat) (s : State) : (lineVerified id s).pending = s.pending := by
  delta lineVerified
  extract_lets
  split
  · exact ite_keeps ((retire_pending ..).trans (modReq_pending ..)) (modReq_pending ..)
  · exact modReq_pending ..

@[simp] theorem slotDone_pending (id : Nat) (s : State) : (slotDone id s).pending = s.pending := by
  delta slotDone
  split
  · rfl
  · exact foldl_pending _ _ fun _ _ => lineVerified_pending ..

@[simp] theorem homeDone_pending (id : Nat) (x : Slot) (cline : Nat) (s : State) : (homeDone id x cline s).pending = s.pending := by
  delta homeDone
  extract_lets
  split
  · exact ite_keeps (slotDone_pending ..) rfl
  · rfl

@[simp] theorem quotaHit_pending (c : Ctx) (s : State) : (quotaHit c s).pending = s.pending :=
  ite_keeps rfl ((raise_pending ..).trans (modTenant_pending ..))

@[simp] theorem admitNow_pending (w : Writer) (off line : Nat) (data : Line) (mask : Mask) (poison : Bool)
    (homes : List (Slot × Nat)) (s : State) : (admitNow w off line data mask poison homes s).pending = s.pending := by
  delta admitNow
  extract_lets tempo asn ver fresh stamp pc s₁ s₂ first s₃ s₄
  have h₃ : s₃.pending = s.pending := by
    unfold s₃
    clear_value first
    split
    · exact (chargeSlot_pending ..).trans (modTenant_pending ..)
    · exact modTenant_pending ..
  have h₄ : s₄.pending = s.pending := (count_pending ..).trans h₃
  split
  · split
    exact h₄
  · split
    split
    exact h₄

@[simp] theorem admitWrite_pending (w : Writer) (off : Nat) (line : Nat) (data : Line) (mask : Mask) (poison : Bool) (s : State) :
    (admitWrite w off line data mask poison s).1.pending = s.pending := by
  unfold admitWrite
  dsimp only
  (repeat' split) <;> simp

/-! ### The queue is kept: refused requests (Refuse) -/

@[simp] theorem modAer_pending (fn : Fn) (f : Aer → Aer) (s : State) : (modAer fn f s).pending = s.pending := by
  unfold modAer
  split <;> simp

@[simp] theorem signalUr_pending (t : Tlp) (s : State) : (signalUr t s).pending = s.pending := modAer_pending ..

@[simp] theorem recordRefusal_pending (fn : Fn) (c : Option Ctx) (write : Bool) (code : BitVec 8) (off : Nat) (s : State) :
    (recordRefusal fn c write code off s).pending = s.pending := by rfl

@[simp] theorem noteRefusal_pending (t : Tlp) (c : Option Ctx) (code : BitVec 8) (off : Nat) (dpa : Nat) (s : State) :
    (noteRefusal t c code off dpa s).pending = s.pending := by
  unfold noteRefusal
  (repeat' split) <;> simp

@[simp] theorem removeReq_pending (id : Nat) (s : State) : (removeReq id s).pending = s.pending := by
  unfold removeReq
  split <;> simp

@[simp] theorem refuseWrite_pending (r : Req) (code : BitVec 8) (s : State) : (refuseWrite r code s).pending = s.pending :=
  (noteRefusal_pending ..).trans (removeReq_pending ..)

/-! ### The queue is kept: the keep store (KeepStore) -/

@[simp] theorem noteKsErr_pending (uncorr : Bool) (w : Nat) (s : State) : (noteKsErr uncorr w s).pending = s.pending := ite_keeps rfl rfl

@[simp] theorem senseWord_pending (w : Nat) (s : State) : (senseWord w s).pending = s.pending :=
  ite_keeps ((raise_pending ..).trans (noteKsErr_pending ..)) (ite_keeps (noteKsErr_pending ..) rfl)

@[simp] theorem sensePages_pending (lo : Nat) (n : Nat) (s : State) : (sensePages lo n s).pending = s.pending :=
  foldl_pending _ _ fun _ _ => senseWord_pending ..

@[simp] theorem formWrite_pending (w : PageWrite) (s : State) : (formWrite w s).pending = s.pending := by rfl

@[simp] theorem formRing_pending (kind : KsKind) (r : RingDef) (get : Ks → Nat) (set : Ks → Nat → Ks) (payload : List Byte) (chg : Word)
    (s : State) :
    (formRing kind r get set payload chg s).pending = s.pending := by rfl

@[simp] theorem formSettings_pending (kind : KsKind) (chg : Word) (s : State) : (formSettings kind chg s).pending = s.pending := by rfl
@[simp] theorem formBoot_pending (base : Nat) (s : State) : (formBoot base s).pending = s.pending := by rfl
@[simp] theorem formBinding_pending (b : Binding) (s : State) : (formBinding b s).pending = s.pending := by rfl
@[simp] theorem formCommit_pending (s : State) : (formCommit s).pending = s.pending := by rfl

@[simp] theorem dropOldest_pending (s : State) : (dropOldest s).pending = s.pending := by
  delta dropOldest
  split
  · exact ite_keeps (raise_pending ..) rfl
  · rfl

@[simp] theorem formTotals_pending (lost : Nat) (s : State) : (formTotals lost s).pending = s.pending :=
  (formRing_pending ..).trans ((dropOldest_pending ..).trans (dropOldest_pending ..))

@[simp] theorem formRepair_pending (s : State) : (formRepair s).pending = s.pending := by rfl

@[simp] theorem keepWear_pending (serial : BitVec 64) (amount : Nat) (s : State) : (keepWear serial amount s).pending = s.pending :=
  dropOldest_pending ..

@[simp] theorem formContext_pending (kind : KsKind) (c : Ctx) (i : CtxImage) (chg : Word) (wipe : Bool) (s : State) :
    (formContext kind c i chg wipe s).pending = s.pending := by rfl

@[simp] theorem loadFill_pending (who : BufOwner) (page : Nat) (bytes : List (Nat × Byte)) (s : State) :
    (loadFill who page bytes s).pending = s.pending := by rfl

@[simp] theorem formFill_pending (s : State) : (formFill s).pending = s.pending := by rfl
@[simp] theorem freeFill_pending (s : State) : (freeFill s).pending = s.pending := by rfl

@[simp] theorem fillFailed_pending (s : State) : (fillFailed s).pending = s.pending := by
  unfold fillFailed
  dsimp only
  (repeat' split) <;> simp

@[simp] theorem startWrite_pending (s : State) : (startWrite s).pending = s.pending := by
  delta startWrite
  split
  · rfl
  · exact ite_keeps rfl (.trans (ite_keeps ((freeFill_pending ..).trans (fillFailed_pending ..)) rfl)
        (foldl_pending _ _ fun _ _ => senseWord_pending ..))

/-! ### The queue is kept: line-writes (Writes) -/

@[simp] theorem bumpGap_pending (x : Slot) (cline : Nat) (n : Nat) (s : State) : (bumpGap x cline n s).pending = s.pending := by rfl

@[simp] theorem noteTries_pending (used : Nat) (s : State) : (noteTries used s).pending = s.pending :=
  ite_keeps rfl (ite_keeps rfl (ite_keeps rfl rfl))

@[simp] theorem failureMessage_pending (c : Ctx) (asn : Nat) (reqs : List Nat) (s : State) :
    (failureMessage c asn reqs s).pending = s.pending := by rfl

@[simp] theorem mergeBase_pending (x : Slot) (cline : Nat) (who : Ctx) (off : Nat) (e : Sense) (s : State) :
    (mergeBase x cline who off e s).1.pending = s.pending := by
  unfold mergeBase
  dsimp only
  (repeat' split) <;> simp

@[simp] theorem issueHome_pending (h : HoldSlot) (e : Sense) (s : State) (home : Slot × Nat) :
    (issueHome h e s home).pending = s.pending := by simp [issueHome]

@[simp] theorem issueOldest_pending (e : Sense) (s : State) : (issueOldest e s).pending = s.pending :=
  ite_keeps rfl (by
      split
      · exact foldl_pending _ _ fun _ _ => issueHome_pending ..
      · rfl)

@[simp] theorem modWrite_pending (x : Slot) (bank : Fin 128) (f : LineWrite → LineWrite) (s : State) :
    (modWrite x bank f s).pending = s.pending := by rfl

@[simp] theorem endWrite_pending (x : Slot) (bank : Fin 128) (s : State) : (endWrite x bank s).pending = s.pending := by rfl

@[simp] theorem pulse_pending (x : Slot) (bank : Fin 128) (s : State) : (pulse x bank s).pending = s.pending := by
  delta pulse
  split
  · exact ite_keeps rfl (modWrite_pending ..)
  · rfl

@[simp] theorem settle_pending (x : Slot) (t : Tempo) (s : State) : (settle x t s).pending = s.pending :=
  (count_pending ..).trans (modSlot_pending ..)

@[simp] theorem afterPass_pending (w : LineWrite) (reloc : Bool) (s : State) : (afterPass w reloc s).pending = s.pending := by
  unfold afterPass
  dsimp only
  (repeat' split) <;> simp

@[simp] theorem passWrite_pending (x : Slot) (bank : Fin 128) (reloc : Bool) (s : State) :
    (passWrite x bank reloc s).pending = s.pending := by
  delta passWrite
  split
  · rfl
  · exact (afterPass_pending ..).trans (.trans (ite_keeps rfl ((noteTries_pending ..).trans (bumpGap_pending ..)))
        ((dropTagOpt_pending ..).trans ((endWrite_pending ..).trans (ite_keeps (writeLine_pending ..) rfl))))

@[simp] theorem markResync_pending (x : Slot) (cline : Nat) (s : State) : (markResync x cline s).pending = s.pending :=
  ite_keeps (modCart_pending ..) rfl

@[simp] theorem tryLine_pending (x : Slot) (cline : Nat) (w : Tries) (s : State) : (tryLine x cline w s).1.pending = s.pending := by
  unfold tryLine
  split <;> simp

@[simp] theorem poisonLine_pending (x : Slot) (cline : Nat) (l : StoredLine) (w : Tries) (s : State) :
    (poisonLine x cline l w s).pending = s.pending := by simp [poisonLine]

@[simp] theorem relocate_pending (x : Slot) (cline pline : Nat) (w : Tries) (s : State) :
    (relocate x cline pline w s).1.pending = s.pending :=
  (lineKept_relocate x cline pline w s).pending

@[simp] theorem wholeWrite_pending (x : Slot) (cline pline : Nat) (w : Tries) (s : State) :
    (wholeWrite x cline pline w s).1.pending = s.pending := (lineKept_wholeWrite x cline pline w s).pending

@[simp] theorem enginePwf_pending (unit : BitVec 5) (x : Slot) (cline : Nat) (tempo : Tempo) (tried : Bool) (s : State) :
    (enginePwf unit x cline tempo tried s).pending = s.pending := (noteError_pending ..).trans (raiseAddr_pending ..)

@[simp] theorem engineLine_pending (unit : BitVec 5) (x : Slot) (cline : Nat) (tempo : Tempo) (w : Tries) (s : State) :
    (engineLine unit x cline tempo w s).1.pending = s.pending := (lineKept_engineLine unit x cline tempo w s).pending

@[simp] theorem reservedPassed_pending (x : Slot) (cline : Nat) (data : Line) (s : State) :
    (reservedPassed x cline data s).pending = s.pending := by simp [reservedPassed]

@[simp] theorem quarantineEntry_pending (x : Slot) (q : Quarantine) (n : Nat) (w : Tries) (s : State) :
    (quarantineEntry x q n w s).1.pending = s.pending := by
  induction n generalizing w s with
  | zero => rfl
  | succ n ih =>
    unfold quarantineEntry
    split <;> simp [ih]

@[simp] theorem copyFailed_pending (w : LineWrite) (r : Written) (s : State) : (copyFailed w r s).pending = s.pending :=
  (raiseAddr_pending ..).trans ((poisonLine_pending ..).trans (settle_pending ..))

@[simp] theorem homeFailed_pending (w : LineWrite) (h : HoldSlot) (r : Written) (s : State) :
    (homeFailed w h r s).pending = s.pending := by simp [homeFailed]

@[simp] theorem writeFailed_pending (w : LineWrite) (r : Written) (s : State) : (writeFailed w r s).pending = s.pending := by
  delta writeFailed
  extract_lets
  split
  · exact (copyFailed_pending ..).trans ((dropTagOpt_pending ..).trans (endWrite_pending ..))
  · exact .trans (by
        split
        · rfl
        · exact ite_keeps ((homeDone_pending ..).trans (copyFailed_pending ..)) (homeFailed_pending ..)) ((dropTagOpt_pending ..).trans
              (endWrite_pending ..))

@[simp] theorem senseResult_pending (x : Slot) (bank : Fin 128) (differ : Nat) (after : Tries) (s : State) :
    (senseResult x bank differ after s).pending = s.pending := by
  delta senseResult
  split
  · rfl
  · exact ite_keeps rfl (ite_keeps ((markResync_pending ..).trans (passWrite_pending ..)) (ite_keeps (modWrite_pending ..)
        ((markResync_pending ..).trans (ite_keeps ((passWrite_pending ..).trans (relocate_pending ..)) ((writeFailed_pending ..).trans
        (relocate_pending ..))))))

/-! ### The queue is kept: the ledger (Ledger) -/

@[simp] theorem pulseLine_pending (line : Nat) (n : Nat) (s : State) : (pulseLine line n s).pending = s.pending := by
  unfold pulseLine
  simp

@[simp] theorem wantSv_pending (x : Slot) (opc : BitVec 7) (s : State) : (wantSv x opc s).pending = s.pending := modSlot_pending ..

@[simp] theorem finishSeal_pending (s : State) : (finishSeal s).pending = s.pending := by
  unfold finishSeal
  split <;> simp

@[simp] theorem chargeAll_pending (s : State) : (chargeAll s).pending = s.pending := foldl_pending _ _ fun _ _ => wantSv_pending ..
@[simp] theorem mergeOn_pending (s : State) : (mergeOn s).pending = s.pending := ite_keeps rfl (raise_pending ..)

@[simp] theorem closeMinute_pending (extra : BitVec 8) (next : Nat) (flags : BitVec 8) (trail : List LgUnit) (s : State) :
    (closeMinute extra next flags trail s).pending = s.pending := ite_keeps (mergeOn_pending ..) (ite_keeps rfl rfl)

@[simp] theorem takeSecond_pending (s : State) : (takeSecond s).pending = s.pending := by rfl
@[simp] theorem secondBoundary_pending (s : State) : (secondBoundary s).pending = s.pending := ite_keeps rfl (takeSecond_pending ..)

@[simp] theorem minuteTick_pending (s : State) : (minuteTick s).pending = s.pending :=
  ite_keeps rfl ((chargeAll_pending ..).trans ((closeMinute_pending ..).trans (ite_keeps (takeSecond_pending ..) rfl)))

@[simp] theorem ringHigh_pending (s : State) : (ringHigh s).pending = s.pending :=
  ite_keeps (ite_keeps rfl (raise_pending ..)) (ite_keeps rfl rfl)

@[simp] theorem putRing_pending (h : Slot × Nat) (seq : Nat) (l : Line) (w : Tries) (s : State) :
    (putRing h seq l w s).1.pending = s.pending :=
  (lineKept_putRing h seq l w s).pending

@[simp] theorem writeLate_pending (l : List LateRing) (w : Tries) (s : State) : (writeLate l w s).1.pending = s.pending :=
  (ledgerKept_writeLate l w s).2.2

@[simp] theorem settleLate_pending (w : Tries) (s : State) : (settleLate w s).1.pending = s.pending := writeLate_pending ..

@[simp] theorem sealMarkers_pending (l : List LgUnit) (s : State) :
    (sealMarkers l s).pending = s.pending := (ledgerKept_sealMarkers l s).2.2

@[simp] theorem issueRecord_pending (w : Tries) (s : State) : (issueRecord w s).1.pending = s.pending := (ledgerKept_issueRecord w s).2.2
@[simp] theorem ledgerWriteWith_pending (w : Tries) (s : State) : (ledgerWriteWith w s).1.pending = s.pending := by simp [ledgerWriteWith]
@[simp] theorem ledgerWrite_pending (w : Tries) (s : State) : (ledgerWrite w s).pending = s.pending := ledgerWriteWith_pending ..

@[simp] theorem frameSealed_pending (s : State) : (frameSealed s).pending = s.pending := by
  delta frameSealed
  split
  · exact ite_keeps rfl ((sealMarkers_pending ..).trans ((formTotals_pending ..).trans ((trace_pending ..).trans (pulseLine_pending ..))))
  · rfl

@[simp] theorem swapMarker_pending (reason : Nat) (leaving : BitVec 64) (holding : BitVec 64) (s : State) :
    (swapMarker reason leaving holding s).pending = s.pending := by rfl

@[simp] theorem discipline_pending (cycles : Nat) (s : State) : (discipline cycles s).pending = s.pending :=
  ite_keeps (ite_keeps rfl (raise_pending ..)) rfl

@[simp] theorem syncSlew_pending (d : Int) (s : State) : (syncSlew d s).pending = s.pending := by rfl

@[simp] theorem syncStep_pending (t : Nat) (d : Int) (s : State) : (syncStep t d s).pending = s.pending :=
  (raise_pending ..).trans (ite_keeps rfl ((chargeAll_pending ..).trans (closeMinute_pending ..)))

@[simp] theorem resumeMinute_pending (extra : BitVec 8) (trail : Nat → List LgUnit) (s : State) :
    (resumeMinute extra trail s).pending = s.pending :=
  ite_keeps rfl ((swapMinute_pending ..).trans ((chargeAll_pending ..).trans (closeMinute_pending ..)))

@[simp] theorem retainD1_pending (s : State) : (retainD1 s).pending = s.pending := swapMinute_pending ..

@[simp] theorem retainD5_pending (target : Option Slot) (s : State) : (retainD5 target s).pending = s.pending := by
  delta retainD5
  extract_lets
  split
  · exact (modCart_pending ..).trans ((foldl_pending _ _ fun _ _ => ite_keeps ((reservedPassed_pending ..).trans
        ((modCart_pending ..).trans ((noteTries_pending ..).trans ((bumpGap_pending ..).trans ((engineWrites_pending ..).trans
        (touchBank_pending ..)))))) rfl).trans (finishSeal_pending ..))
  · exact (foldl_pending _ _ fun _ _ => ite_keeps ((reservedPassed_pending ..).trans ((modCart_pending ..).trans
        ((noteTries_pending ..).trans ((bumpGap_pending ..).trans ((engineWrites_pending ..).trans
        (touchBank_pending ..)))))) rfl).trans (finishSeal_pending ..)

@[simp] theorem reconcile_pending (target : Option Slot) (replayed : Nat) (w : Tries) (s : State) :
    (reconcile target replayed w s).pending = s.pending := by
  obtain ⟨v, -, -, hpending, he⟩ := reconcile_kept target replayed w s
  rw [he, ← hpending]

/-! ### The queue is kept: the duet (Duet) -/

@[simp] theorem bindSlots_pending (a : Bool) (b : Bool) (s : State) : (bindSlots a b s).pending = s.pending := by rfl

@[simp] theorem writeTag_pending (x : Slot) (s : State) : (writeTag x s).pending = s.pending :=
  (modCart_pending ..).trans (engineLine_pending ..)

@[simp] theorem settleBind_pending (s : State) : (settleBind s).pending = s.pending := by
  delta settleBind
  split
  · rfl
  · exact ite_keeps ((formBinding_pending ..).trans (foldl_pending _ _ fun _ _ => writeTag_pending ..)) rfl

@[simp] theorem rebind_pending (code : Duet) (s : State) : (rebind code s).pending = s.pending := settleBind_pending ..
@[simp] theorem toSpare_pending (x : Slot) (s : State) : (toSpare x s).pending = s.pending := modSlot_pending ..

@[simp] theorem noteMib_pending (x : Slot) (s : State) : (noteMib x s).pending = s.pending := by
  unfold noteMib
  split <;> simp

@[simp] theorem toService_pending (x : Slot) (s : State) : (toService x s).pending = s.pending :=
  (noteMib_pending ..).trans (modSlot_pending ..)

@[simp] theorem becomeSolo_pending (x : Slot) (s : State) : (becomeSolo x s).pending = s.pending := by simp [becomeSolo]

@[simp] theorem formatFailed_pending (x : Slot) (s : State) (f : Nat × Tries) :
    (formatFailed x s f).pending = s.pending := by simp [formatFailed]

@[simp] theorem bumpBanks_pending (x : Slot) (n : Nat) (s : State) : (bumpBanks x n s).pending = s.pending := by simp [bumpBanks]

@[simp] theorem formatCart_pending (full : Bool) (failed : List (Nat × Tries)) (x : Slot) (s : State) :
    (formatCart full failed x s).pending = s.pending :=
  (foldl_pending _ _ fun _ _ => formatFailed_pending ..).trans ((modCart_pending ..).trans ((bumpBanks_pending ..).trans
      (engineWrites_pending ..)))

@[simp] theorem sramWrite_pending (a : Nat) (bs : List Byte) (s : State) : (sramWrite a bs s).pending = s.pending := by rfl
@[simp] theorem writeEntryOf_pending (number : Nat) (s : State) : (writeEntryOf number s).pending = s.pending := by rfl
@[simp] theorem startCopyCh_pending (s : State) (n : Fin 32) : (startCopyCh s n).pending = s.pending := by rfl
@[simp] theorem planCopy_pending (areas : List (Nat × Nat)) (s : State) : (planCopy areas s).pending = s.pending := by rfl

@[simp] theorem startCopy_pending (s : State) : (startCopy s).pending = s.pending :=
  (foldl_pending _ _ fun _ _ => startCopyCh_pending ..).trans ((sramWrite_pending ..).trans
      (foldl_pending _ _ fun _ _ => writeEntryOf_pending ..))

@[simp] theorem cancelWrite_pending (w : LineWrite) (s : State) : (cancelWrite w s).pending = s.pending :=
  ite_keeps ((settle_pending ..).trans (dropTagOpt_pending ..)) (dropTagOpt_pending ..)

@[simp] theorem stopCopy_pending (s : State) : (stopCopy s).pending = s.pending :=
  (foldl_pending _ _ fun _ _ => cancelWrite_pending ..).trans (foldl_pending _ _ fun _ _ => dropTag_pending ..)

@[simp] theorem dropHomes_pending (x : Slot) (s : State) : (dropHomes x s).pending = s.pending := by
  unfold dropHomes
  extract_lets hit s₁ s₂
  rw [foldl_pending _ _ fun s h => by split <;> simp]
  exact foldl_pending _ _ fun s h => by simp

@[simp] theorem dropWrites_pending (x : Slot) (s : State) : (dropWrites x s).pending = s.pending :=
  foldl_pending _ _ fun _ _ => cancelWrite_pending ..

@[simp] theorem chGo_pending (n : Fin 32) (st : ChState) (s : State) : (chGo n st s).pending = s.pending :=
  ite_keeps rfl ((trace_pending ..).trans (modCh_pending ..))

@[simp] theorem failReq_pending (s : State) (id : Nat) : (failReq s id).pending = s.pending := by
  delta failReq
  split
  · exact refuseWrite_pending ..
  · rfl

@[simp] theorem failBarrier_pending (s : State) (n : Fin 32) : (failBarrier s n).pending = s.pending := by
  delta failBarrier
  extract_lets
  split
  · exact ite_keeps ((chGo_pending ..).trans ((modCh_pending ..).trans (count_pending ..))) rfl
  · rfl

@[simp] theorem failSlot_pending (s : State) (h : HoldSlot) : (failSlot s h).pending = s.pending :=
  .trans (ite_keeps (foldl_pending _ _ fun _ _ => failBarrier_pending ..) rfl) (foldl_pending _ _ fun _ _ => failReq_pending ..)

@[simp] theorem failUnserved_pending (s : State) : (failUnserved s).pending = s.pending :=
  foldl_pending _ _ fun _ _ => failSlot_pending ..

@[simp] theorem freeMissing_pending (s : State) : (freeMissing s).pending = s.pending :=
  (foldl_pending _ _ fun _ _ => ite_keeps rfl (raise_pending ..)).trans (foldl_pending _ _ fun _ _ => failSlot_pending ..)

@[simp] theorem soloOfMissing_pending (slot : Slot) (s : State) : (soloOfMissing slot s).pending = s.pending :=
  (becomeSolo_pending ..).trans (dropWrites_pending ..)

@[simp] theorem acceptTarget_pending (target : Nat) (slot : Slot) (s : State) : (acceptTarget target slot s).pending = s.pending :=
  ite_keeps ((rebind_pending ..).trans ((bindSlots_pending ..).trans ((goDuet_pending ..).trans (freeMissing_pending ..)))) (ite_keeps (by
      split
      · rfl
      · rfl
      · rfl
      · exact ite_keeps ((becomeSolo_pending ..).trans (dropHomes_pending ..)) (soloOfMissing_pending ..)) (ite_keeps rfl
            ((planCopy_pending ..).trans (goDuet_pending ..))))

@[simp] theorem formatDone_pending (failed : List (Nat × Tries)) (s : State) : (formatDone failed s).pending = s.pending := by
  delta formatDone
  split
  · rfl
  · exact ite_keeps rfl (by
        split
        · exact (becomeSolo_pending ..).trans ((toService_pending ..).trans (formatCart_pending ..))
        · exact (rebind_pending ..).trans ((bindSlots_pending ..).trans ((goDuet_pending ..).trans ((toService_pending ..).trans
              ((toService_pending ..).trans ((formatCart_pending ..).trans (formatCart_pending ..))))))
        · exact (startCopy_pending ..).trans ((rebind_pending ..).trans ((bindSlots_pending ..).trans ((toService_pending ..).trans
              (formatCart_pending ..)))))

@[simp] theorem enterCut_pending (s : State) : (enterCut s).pending = s.pending := (rebind_pending ..).trans (goDuet_pending ..)

@[simp] theorem copyDone_pending (s : State) : (copyDone s).pending = s.pending := by
  delta copyDone
  extract_lets
  split
  · exact (rebind_pending ..).trans ((goDuet_pending ..).trans ((modCart_pending ..).trans ((modCart_pending ..).trans
        (stopCopy_pending ..))))
  · exact ite_keeps (stopCopy_pending ..) ((enterCut_pending ..).trans (stopCopy_pending ..))
  · exact stopCopy_pending ..

@[simp] theorem settleRing_pending (s : State) : (settleRing s).pending = s.pending := by
  delta settleRing
  split
  · exact ite_keeps rfl (swapMarker_pending ..)
  · rfl

@[simp] theorem extentDone_pending (number : Nat) (s : State) : (extentDone number s).pending = s.pending :=
  .trans (ite_keeps (copyDone_pending ..) rfl) ((settleRing_pending ..).trans (writeEntryOf_pending ..))

@[simp] theorem beginRelease_pending (x : Slot) (s : State) : (beginRelease x s).pending = s.pending := modSlot_pending ..

@[simp] theorem cutOver_pending (s : State) : (cutOver s).pending = s.pending := by
  unfold cutOver
  extract_lets
  (repeat' split) <;> simp +zetaDelta

@[simp] theorem abortMigration_pending (why : Nat) (s : State) : (abortMigration why s).pending = s.pending :=
  (raise_pending ..).trans ((becomeSolo_pending ..).trans ((dropHomes_pending ..).trans (stopCopy_pending ..)))

/-- The regions of one extent of the plan are marked: the step of `markPlan`, named so that the kernel does not evaluate its range. -/
def markExtent (x : Slot) (s : State) (e : Extent) : State :=
  (List.range ((e.length + 65535) / 65536)).foldl (fun s k => markResync x (e.base / 64 + 1024 * k) s) s

theorem markExtent_pending (x : Slot) (s : State) (e : Extent) : (markExtent x s e).pending = s.pending := by
  rw [markExtent]
  exact foldl_pending _ s fun s _ => markResync_pending x _ s

theorem markPlan_eq (x : Slot) (s : State) : markPlan x s = s.duet.plan.foldl (markExtent x) s := rfl

@[simp] theorem markPlan_pending (x : Slot) (s : State) : (markPlan x s).pending = s.pending := by
  rw [markPlan_eq]
  exact foldl_pending _ s (markExtent_pending x)

@[simp] theorem cancelFormat_pending (x : Slot) (s : State) : (cancelFormat x s).pending = s.pending := by
  delta cancelFormat
  split
  · exact ite_keeps rfl rfl
  · rfl
  · rfl

@[simp] theorem endRing_pending (s : State) : (endRing s).pending = s.pending := ite_keeps (stopCopy_pending ..) rfl

@[simp] theorem lostMember_pending (x : Slot) {swap : State → State} (h : ∀ s, (swap s).pending = s.pending) (s : State) :
    (lostMember x swap s).pending = s.pending := by
  unfold lostMember
  split <;> simp [h]

@[simp] theorem departure_pending (x : Slot) (serial : BitVec 64) (served : Bool) (s : State) :
    (departure x serial served s).pending = s.pending := by
  unfold departure
  dsimp only
  (repeat' split) <;> simp

@[simp] theorem startRing_pending (x : Slot) (s : State) : (startRing x s).pending = s.pending :=
  ite_keeps ((settleRing_pending ..).trans (planCopy_pending ..)) ((startCopy_pending ..).trans (planCopy_pending ..))

@[simp] theorem startResync_pending (x : Slot) (s : State) : (startResync x s).pending = s.pending :=
  ite_keeps ((copyDone_pending ..).trans ((rebind_pending ..).trans ((bindSlots_pending ..).trans ((settleRing_pending ..).trans
      ((planCopy_pending ..).trans ((toService_pending ..).trans (goDuet_pending ..))))))) ((startCopy_pending ..).trans
      ((rebind_pending ..).trans ((bindSlots_pending ..).trans ((settleRing_pending ..).trans ((planCopy_pending ..).trans
      ((toService_pending ..).trans (goDuet_pending ..)))))))

@[simp] theorem backInService_pending (x : Slot) (s : State) : (backInService x s).pending = s.pending :=
  (settleBind_pending ..).trans (toService_pending ..)

@[simp] theorem arrival_pending (x : Slot) (s : State) : (arrival x s).pending = s.pending := by
  delta arrival
  extract_lets
  exact ite_keeps rfl (by
      split
      · exact ite_keeps (backInService_pending ..) rfl
      · exact ite_keeps (backInService_pending ..) rfl
      · exact ite_keeps (ite_keeps (.trans (ite_keeps (startResync_pending ..) rfl) (backInService_pending ..)) rfl) (ite_keeps rfl
            (startResync_pending ..))
      · exact ite_keeps (ite_keeps (.trans (ite_keeps ((startRing_pending ..).trans ((goDuet_pending ..).trans
            (toService_pending ..))) rfl) (backInService_pending ..)) rfl) ((startRing_pending ..).trans ((goDuet_pending ..).trans
            (toService_pending ..)))
      · rfl)

/-! ### The queue is kept: the change a countersign holds (Change) -/

@[simp] theorem raiseChg_pending (code : BitVec 8) (flags : BitVec 4) (own : Nat) (s : State) :
    (raiseChg code flags own s).pending = s.pending := raiseF_pending ..

@[simp] theorem traceChg_pending (what : Nat) (s : State) : (traceChg what s).pending = s.pending := trace_pending ..
@[simp] theorem csIdle_pending (result : BitVec 8) (s : State) : (csIdle result s).pending = s.pending := by rfl

@[simp] theorem lapse_pending (why : Nat) (s : State) : (lapse why s).pending = s.pending :=
  ite_keeps rfl ((csIdle_pending ..).trans ((traceChg_pending ..).trans (raiseChg_pending ..)))

@[simp] theorem digestRecompute_pending (s : State) : (digestRecompute s).pending = s.pending := by
  delta digestRecompute
  split
  · rfl
  · exact ite_keeps rfl ((traceChg_pending ..).trans (raiseChg_pending ..))

@[simp] theorem windowLapse_pending (s : State) : (windowLapse s).pending = s.pending := ite_keeps (lapse_pending ..) rfl

/-! ### The queue is kept: the rest state (Rest) -/

@[simp] theorem dropArm_pending (s : State) : (dropArm s).pending = s.pending := ite_keeps rfl rfl
@[simp] theorem addCause_pending (bit : Nat) (held : Bool) (s : State) : (addCause bit held s).pending = s.pending := by rfl

@[simp] theorem enterRest_pending (bit : Nat) (test : Nat) (slot : Bool) (held : Bool) (code : BitVec 8) (s : State) :
    (enterRest bit test slot held code s).pending = s.pending := by simp [enterRest]

@[simp] theorem leaveRest_pending (s : State) : (leaveRest s).pending = s.pending := ite_keeps (goState_pending ..) rfl
@[simp] theorem dropCause_pending (bit : Nat) (s : State) : (dropCause bit s).pending = s.pending := leaveRest_pending ..

/-! ### The queue is kept: the drain (Drain) -/

@[simp] theorem stopDma_pending (s : State) : (stopDma s).pending = s.pending := by simp [stopDma]

@[simp] theorem discardRequests_pending (s : State) : (discardRequests s).pending = s.pending :=
  .trans (foldl_pending _ _ fun _ _ => dropTagOpt_pending ..) (.trans (foldl_pending _ _ fun _ _ => dropTagOpt_pending ..)
      (foldl_pending _ _ fun _ _ => dropTagOpt_pending ..))

@[simp] theorem powerOff_pending (x : Slot) (s : State) : (powerOff x s).pending = s.pending := by simp [powerOff]
@[simp] theorem dropFill_pending (s : State) : (dropFill s).pending = s.pending := ite_keeps (freeFill_pending ..) rfl

@[simp] theorem markSaved_pending (x : Slot) (i : Fin 16) (bank : Nat) (s : State) : (markSaved x i bank s).pending = s.pending :=
  ite_keeps (modCart_pending ..) rfl

@[simp] theorem startDrain_pending (cause : Nat) (s : State) : (startDrain cause s).pending = s.pending := by simp [startDrain]

@[simp] theorem endTries_pending (target : Option Slot) (fails : List (Slot × Fin 128)) (s : State) :
    (endTries target fails s).pending = s.pending :=
  foldl_pending _ _ fun _ _ => ite_keeps (passWrite_pending ..) ((cancelWrite_pending ..).trans (endWrite_pending ..))

@[simp] theorem writeHeader_pending (x : Slot) (early : Bool) (s : State) : (writeHeader x early s).pending = s.pending :=
  (modCart_pending ..).trans (engineWrites_pending ..)

@[simp] theorem writeEntries_pending (x : Slot) (entries : List HoldEntry) (s : State) :
    (writeEntries x entries s).pending = s.pending := (modCart_pending ..).trans (engineWrites_pending ..)

@[simp] theorem writeCommit_pending (x : Slot) (early : Bool) (s : State) :
    (writeCommit x early s).pending = s.pending := by simp [writeCommit]

@[simp] theorem writeArea_pending (d : Drain) (x : Slot) (damaged : List Nat) (n : Nat) (s : State) :
    (writeArea d x damaged n s).pending = s.pending :=
  ite_keeps (writeHeader_pending ..) ((writeEntries_pending ..).trans (writeHeader_pending ..))

@[simp] theorem sealArea_pending (target : Option Slot) (s : State) : (sealArea target s).pending = s.pending :=
  ite_keeps ((retainD5_pending ..).trans (by
      split
      · exact engineWrites_pending ..
      · rfl)) (by
      split
      · exact engineWrites_pending ..
      · rfl)

@[simp] theorem drainPhases_pending (d : Drain) (fails : List (Slot × Fin 128)) (damaged : List Nat) (s : State) :
    (drainPhases d fails damaged s).pending = s.pending := by
  delta drainPhases
  extract_lets
  split
  · exact (sealArea_pending ..).trans (endTries_pending ..)
  · exact (writeCommit_pending ..).trans ((sealArea_pending ..).trans ((writeArea_pending ..).trans (endTries_pending ..)))

@[simp] theorem drainKeep_pending (lost : Nat) (s : State) : (drainKeep lost s).pending = s.pending := by
  rw [drainKeep_ks]

@[simp] theorem shortKeep_pending (pages : Fin 2) (lost : Nat) (s : State) : (shortKeep pages lost s).pending = s.pending := by
  rw [shortKeep_ks]

@[simp] theorem powerDown_pending (s : State) : (powerDown s).pending = s.pending := by rfl
@[simp] theorem enterScan_pending (s : State) : (enterScan s).pending = s.pending := by rfl

@[simp] theorem endDrain_pending (fails : List (Slot × Fin 128)) (damaged : List Nat) (s : State) :
    (endDrain fails damaged s).pending = s.pending := by
  delta endDrain
  split
  · rfl
  · exact ite_keeps ((enterScan_pending ..).trans ((drainKeep_pending ..).trans (ite_keeps (endTries_pending ..)
        (drainPhases_pending ..)))) ((powerDown_pending ..).trans ((drainKeep_pending ..).trans (ite_keeps (endTries_pending ..)
        (drainPhases_pending ..))))

@[simp] theorem shortPhases_pending (d : Drain) (fails : List (Slot × Fin 128)) (damaged : List Nat) (steps : Nat) (s : State) :
    (shortPhases d fails damaged steps s).pending = s.pending := by
  delta shortPhases
  extract_lets
  split
  · exact .trans (ite_keeps rfl (sealArea_pending ..)) (endTries_pending ..)
  · exact .trans (ite_keeps rfl (.trans (ite_keeps rfl (sealArea_pending ..)) (writeArea_pending ..))) (endTries_pending ..)

@[simp] theorem shortDrain_pending (fails : List (Slot × Fin 128)) (damaged : List Nat) (steps : Nat) (pages : Fin 2) (s : State) :
    (shortDrain fails damaged steps pages s).pending = s.pending := by
  delta shortDrain
  split
  · rfl
  · exact (powerDown_pending ..).trans ((shortKeep_pending ..).trans (ite_keeps (endTries_pending ..) (shortPhases_pending ..)))

/-! ### The queue is kept: countersign (Countersign) -/

@[simp] theorem stage_pending (mgmt : Bool) (l : List CsEntry) (s : State) : (stage mgmt l s).pending = s.pending := ite_keeps rfl rfl

@[simp] theorem formAcceptance_pending (s : State) : (formAcceptance s).pending = s.pending := by
  unfold formAcceptance
  dsimp only
  split <;> simp

@[simp] theorem badTag_pending (s : State) : (badTag s).pending = s.pending :=
  .trans (ite_keeps (lapse_pending ..) rfl) ((traceChg_pending ..).trans (raiseChg_pending ..))

@[simp] theorem refuseChange_pending (code : BitVec 8) (s : State) : (refuseChange code s).pending = s.pending :=
  (csIdle_pending ..).trans ((traceChg_pending ..).trans (raiseChg_pending ..))

@[simp] theorem commitChange_pending (s : State) : (commitChange s).pending = s.pending :=
  (formAcceptance_pending ..).trans (traceChg_pending ..)

@[simp] theorem acceptTn_pending (s : State) (e : CsEntry) : (acceptTn s e).pending = s.pending := by rfl

@[simp] theorem eraseCtx_pending (c : Ctx) (no : Nat) (s : State) : (eraseCtx c no s).pending = s.pending :=
  (modTenant_pending ..).trans (foldl_pending _ _ fun _ _ => cancelWrite_pending ..)

@[simp] theorem clearArea_pending (x : Slot) (s : State) : (clearArea x s).pending = s.pending := modCart_pending ..

@[simp] theorem discardHold_pending (s : State) : (discardHold s).pending = s.pending := by
  delta discardHold
  exact (dropCause_pending ..).trans ((formBoot_pending ..).trans (by
      split
      · exact (clearArea_pending ..).trans (.trans (ite_keeps rfl (reconcile_pending ..)) (.trans
            (foldl_pending _ _ fun _ _ => raiseF_pending ..) (ite_keeps (nextFree_pending ..) rfl)))
      · exact .trans (ite_keeps rfl (reconcile_pending ..)) (.trans (foldl_pending _ _ fun _ _ => raiseF_pending ..) (ite_keeps
            (nextFree_pending ..) rfl))))

@[simp] theorem zeroPages_pending (no : Word) (k p : Nat) (s : State) : (zeroPages no k p s).pending = s.pending := by
  induction k generalizing p s with
  | zero => rfl
  | succ k ih => simp [zeroPages, ih]

@[simp] theorem restoreAll_pending (withLock : Bool) (s : State) : (restoreAll withLock s).pending = s.pending :=
  (formSettings_pending ..).trans (.trans (ite_keeps rfl (formWrite_pending ..)) ((zeroPages_pending ..).trans
      (foldl_pending _ _ fun _ _ => formContext_pending ..)))

@[simp] theorem formLock_pending (s : State) : (formLock s).pending = s.pending := by rfl
@[simp] theorem burnFuses_pending (s : State) : (burnFuses s).pending = s.pending := by rfl
@[simp] theorem scanOn_pending (s : State) : (scanOn s).pending = s.pending := (startDrain_pending ..).trans (raise_pending ..)

@[simp] theorem acceptOther_pending (s : State) (e : CsEntry) : (acceptOther s e).pending = s.pending := by
  unfold acceptOther
  split <;> simp

@[simp] theorem acceptChange_pending (s : State) : (acceptChange s).pending = s.pending := by
  unfold acceptChange
  split <;> simp

@[simp] theorem secretCommit_pending (mgmt : Bool) (s : State) : (secretCommit mgmt s).pending = s.pending := by
  unfold secretCommit
  extract_lets
  (repeat' split) <;> simp +zetaDelta

@[simp] theorem loadSecrets_pending (s : State) : (loadSecrets s).pending = s.pending := by rfl

/-! ### The queue is kept: page writes, fills and the scan (Pages) -/

@[simp] theorem finishApplies_pending (s : State) : (finishApplies s).pending = s.pending := by rfl

@[simp] theorem afterWrite_pending (kind : KsKind) (s : State) : (afterWrite kind s).pending = s.pending := by
  unfold afterWrite
  split <;> simp

@[simp] theorem pageWriteDone_pending (s : State) : (pageWriteDone s).pending = s.pending := by
  delta pageWriteDone
  split
  · rfl
  · exact (finishApplies_pending ..).trans (afterWrite_pending ..)

@[simp] theorem setKsAddr_pending (mgmt : Bool) (a : Nat) (s : State) : (setKsAddr mgmt a s).pending = s.pending := ite_keeps rfl rfl

@[simp] theorem wdata_pending (mgmt : Bool) (be : BitVec 4) (v : Word) (s : State) : (wdata mgmt be v s).pending = s.pending :=
  (setKsAddr_pending ..).trans (ite_keeps ((formFill_pending ..).trans (ite_keeps rfl (loadFill_pending ..))) (ite_keeps rfl
      (loadFill_pending ..)))

@[simp] theorem rdata_pending (mgmt : Bool) (s : State) : (rdata mgmt s).1.pending = s.pending := by simp [rdata]

@[simp] theorem ksCommand_pending (mgmt : Bool) (commit : Bool) (discard : Bool) (s : State) :
    (ksCommand mgmt commit discard s).pending = s.pending :=
  ite_keeps rfl (ite_keeps (freeFill_pending ..) (ite_keeps (formFill_pending ..) rfl))

@[simp] theorem fillExpires_pending (s : State) : (fillExpires s).pending = s.pending :=
  ite_keeps rfl (by
      split
      · exact formFill_pending ..
      · exact (freeFill_pending ..).trans (raise_pending ..))

@[simp] theorem modePersist_pending (c : Ctx) (s : State) : (modePersist c s).pending = s.pending := by
  delta modePersist
  split
  · exact ite_keeps rfl ((formContext_pending ..).trans (modTenant_pending ..))
  · rfl

@[simp] theorem ringLost_pending (r : RingDef) (s : State) : (ringLost r s).pending = s.pending := raise_pending ..

@[simp] theorem loadTenants_pending (cs : List Commit) (s : State) : (loadTenants cs s).pending = s.pending :=
  foldl_pending _ _ fun s c => by split <;> simp

@[simp] theorem redoSetting_pending (s : State) (e : CsEntry) : (redoSetting s e).pending = s.pending := by
  unfold redoSetting
  split <;> simp

@[simp] theorem logRestored_pending (c : Commit) (s : State) : (logRestored c s).pending = s.pending := raiseChg_pending ..

@[simp] theorem redoChange_pending (s : State) (c : Commit) : (redoChange s c).pending = s.pending :=
  ite_keeps (ite_keeps (logRestored_pending ..) rfl) ((logRestored_pending ..).trans (ite_keeps ((formWrite_pending ..).trans (ite_keeps
      ((formSettings_pending ..).trans (.trans (foldl_pending _ _ fun _ _ => redoSetting_pending ..) (.trans (ite_keeps (.trans
      (ite_keeps rfl (formWrite_pending ..)) (zeroPages_pending ..)) rfl) (.trans (foldl_pending _ _ fun _ _ => formContext_pending ..)
      (foldl_pending _ _ fun _ _ => modTenant_pending ..))))) (.trans (ite_keeps (.trans (ite_keeps rfl (formWrite_pending ..))
      (zeroPages_pending ..)) rfl) (.trans (foldl_pending _ _ fun _ _ => formContext_pending ..)
      (foldl_pending _ _ fun _ _ => modTenant_pending ..))))) (ite_keeps ((formSettings_pending ..).trans (.trans
      (foldl_pending _ _ fun _ _ => redoSetting_pending ..) (.trans (ite_keeps (.trans (ite_keeps rfl (formWrite_pending ..))
      (zeroPages_pending ..)) rfl) (.trans (foldl_pending _ _ fun _ _ => formContext_pending ..)
      (foldl_pending _ _ fun _ _ => modTenant_pending ..))))) (.trans (ite_keeps (.trans (ite_keeps rfl (formWrite_pending ..))
      (zeroPages_pending ..)) rfl) (.trans (foldl_pending _ _ fun _ _ => formContext_pending ..)
      (foldl_pending _ _ fun _ _ => modTenant_pending ..))))))

@[simp] theorem logErases_pending (s : State) : (logErases s).pending = s.pending := foldl_pending _ _ fun _ _ => logRestored_pending ..

@[simp] theorem lateAtScan_pending (s : State) : (lateAtScan s).pending = s.pending :=
  .trans (ite_keeps (burnFuses_pending ..) rfl) (logErases_pending ..)

@[simp] theorem actLate_pending (off : Nat) (s : State) : (actLate off s).pending = s.pending :=
  foldl_pending _ _ fun _ _ => acceptOther_pending ..

@[simp] theorem loadSettings_pending (s : State) : (loadSettings s).pending = s.pending := by
  unfold loadSettings
  split <;> simp

@[simp] theorem loadBoot_pending (s : State) : (loadBoot s).1.pending = s.pending := by
  unfold loadBoot
  split <;> simp

@[simp] theorem loadBinding_pending (s : State) : (loadBinding s).pending = s.pending := by
  unfold loadBinding
  split <;> simp

@[simp] theorem loadTotals_pending (s : State) : (loadTotals s).pending = s.pending := by
  unfold loadTotals
  split <;> simp

@[simp] theorem loadRepair_pending (s : State) : (loadRepair s).pending = s.pending := by
  unfold loadRepair
  split <;> simp

@[simp] theorem loadSealed_pending (s : State) : (loadSealed s).pending = s.pending := by simp [loadSealed]
@[simp] theorem loadSeqs_pending (s : State) : (loadSeqs s).pending = s.pending := by rfl
@[simp] theorem bootScan_pending (s : State) : (bootScan s).pending = s.pending := by simp [bootScan]

/-! ### The queue is kept: DMA (Dma) -/

@[simp] theorem chIrq_pending (n : Fin 32) (burst : Bool) (flag : Bool) (s : State) : (chIrq n burst flag s).pending = s.pending :=
  ite_keeps (raiseDma_pending ..) rfl

@[simp] theorem freeBeats_pending (n : Fin 32) (k : Nat) (s : State) : (freeBeats n k s).pending = s.pending := by rfl
@[simp] theorem popBeat_pending (n : Fin 32) (s : State) : (popBeat n s).pending = s.pending := by rfl

@[simp] theorem discardBeats_pending (n : Fin 32) (s : State) : (discardBeats n s).pending = s.pending :=
  (freeBeats_pending ..).trans ((modCh_pending ..).trans (foldl_pending _ _ fun _ _ => dropTagOpt_pending ..))

@[simp] theorem endDesc_pending (n : Fin 32) (code : BitVec 8) (s : State) : (endDesc n code s).pending = s.pending := by rfl

@[simp] theorem refuseBeat_pending (n : Fin 32) (code : BitVec 8) (s : State) : (refuseBeat n code s).pending = s.pending := by
  unfold refuseBeat
  dsimp only
  (repeat' split) <;> simp

@[simp] theorem closeFill_pending (n : Fin 32) (s : State) : (closeFill n s).pending = s.pending := ite_keeps (formFill_pending ..) rfl

@[simp] theorem settleDesc_pending (n : Fin 32) (s : State) : (settleDesc n s).pending = s.pending := by
  delta settleDesc
  extract_lets
  split
  · rfl
  · exact ite_keeps rfl (ite_keeps ((chGo_pending ..).trans (closeFill_pending ..)) (ite_keeps (chGo_pending ..) rfl))

@[simp] theorem startCh_pending (n : Fin 32) (s : State) : (startCh n s).pending = s.pending := (chGo_pending ..).trans (modCh_pending ..)

@[simp] theorem stopMember_pending (n : Fin 32) (m : Fin 32) (code : BitVec 8) (s : State) :
    (stopMember n m code s).pending = s.pending := by
  delta stopMember
  extract_lets
  split
  · exact modCh_pending ..
  · exact modCh_pending ..
  · split
    · exact (chGo_pending ..).trans (modCh_pending ..)
    · exact (settleDesc_pending ..).trans (.trans (ite_keeps rfl (chGo_pending ..)) (modCh_pending ..))

@[simp] theorem stopGroup_pending (n : Fin 32) (code : BitVec 8) (s : State) : (stopGroup n code s).pending = s.pending :=
  foldl_pending _ _ fun _ _ => ite_keeps (stopMember_pending ..) rfl

@[simp] theorem haltCh_pending (n : Fin 32) (code : BitVec 8) (s : State) : (haltCh n code s).pending = s.pending :=
  (chGo_pending ..).trans (modCh_pending ..)

@[simp] theorem badDesc_pending (n : Fin 32) (d : Desc) (badNext : Bool) (s : State) : (badDesc n d badNext s).pending = s.pending :=
  ite_keeps (ite_keeps (haltCh_pending ..) (stopGroup_pending ..)) (ite_keeps ((settleDesc_pending ..).trans (modCh_pending ..))
      ((stopGroup_pending ..).trans (modCh_pending ..)))

@[simp] theorem noteSelfTarget_pending (n : Fin 32) (addr : Nat) (s : State) : (noteSelfTarget n addr s).pending = s.pending :=
  raise_pending ..

@[simp] theorem acceptDesc_pending (n : Fin 32) (d : Desc) (s : State) : (acceptDesc n d s).pending = s.pending :=
  (chGo_pending ..).trans (modCh_pending ..)

@[simp] theorem fetchDesc_pending (n : Fin 32) (host : BitVec 512) (s : State) : (fetchDesc n host s).pending = s.pending := by
  delta fetchDesc
  extract_lets
  exact ite_keeps rfl (ite_keeps ((chGo_pending ..).trans (modCh_pending ..)) (ite_keeps ((badDesc_pending ..).trans (modCh_pending ..))
      (ite_keeps ((badDesc_pending ..).trans (modCh_pending ..)) (by
      split
      · exact (badDesc_pending ..).trans ((noteSelfTarget_pending ..).trans (modCh_pending ..))
      · exact ite_keeps ((badDesc_pending ..).trans ((noteSelfTarget_pending ..).trans (modCh_pending ..))) (by
            split
            · exact (settleDesc_pending ..).trans ((count_pending ..).trans ((modCh_pending ..).trans (modCh_pending ..)))
            · exact (acceptDesc_pending ..).trans (modCh_pending ..))))))

@[simp] theorem takeRequest_pending (n : Fin 32) (s : State) : (takeRequest n s).pending = s.pending :=
  ite_keeps rfl (ite_keeps rfl (modCh_pending ..))

@[simp] theorem endBurst_pending (n : Fin 32) (s : State) : (endBurst n s).pending = s.pending :=
  .trans (ite_keeps (chIrq_pending ..) rfl) (modCh_pending ..)

@[simp] theorem openBurst_pending (n : Fin 32) (s : State) : (openBurst n s).pending = s.pending :=
  ite_keeps rfl (.trans (ite_keeps (endBurst_pending ..) rfl) ((chGo_pending ..).trans ((modCh_pending ..).trans
      (takeRequest_pending ..))))

@[simp] theorem pace_pending (s : State) : (pace s).pending = s.pending := ite_keeps rfl rfl
@[simp] theorem noteGrant_pending (n : Fin 32) (s : State) : (noteGrant n s).pending = s.pending := noteWait_pending ..

@[simp] theorem ledgerLine_pending (s : State) (seq : Nat) (e : Sense) : (ledgerLine s seq e).1.pending = s.pending := by
  unfold ledgerLine
  split <;> simp

@[simp] theorem keepBeat_pending (s : State) (addr : Nat) (len : Nat) : (keepBeat s addr len).1.pending = s.pending := by simp [keepBeat]

@[simp] theorem copySource_pending (s : State) (x : Slot) (cline : Nat) (e : Sense) :
    (copySource s x cline e).1.pending = s.pending := by simp [copySource]

@[simp] theorem dataError_pending (n : Fin 32) (s : State) : (dataError n s).pending = s.pending :=
  ite_keeps ((settleDesc_pending ..).trans ((endDesc_pending ..).trans ((modCh_pending ..).trans (by
      split
      · exact (freeBeats_pending ..).trans (dropTagOpt_pending ..)
      · rfl)))) ((stopGroup_pending ..).trans ((modCh_pending ..).trans (by
      split
      · exact (freeBeats_pending ..).trans (dropTagOpt_pending ..)
      · rfl)))

@[simp] theorem fillBeat_pending (d : Desc) (b : Beat) (e : Sense) (s : State) : (fillBeat d b e s).1.pending = s.pending := by
  unfold fillBeat
  split <;> simp

@[simp] theorem readBeat_pending (n : Fin 32) (d : Desc) (len : Nat) (e : Sense) (s : State) :
    (readBeat n d len e s).pending = s.pending := by
  unfold readBeat
  extract_lets c w id s₁ s₂ s₃
  have h₃ : s₃.pending = s.pending := by simp [s₃, s₂, s₁]
  have hf := fillBeat_pending d (newBeat s₃ c d id len) e s₃
  split
  next hr => rw [hr] at hf; simpa [h₃] using hf
  next hr => rw [hr] at hf; dsimp only; split <;> simpa [h₃] using hf

@[simp] theorem grantBeat_pending (n : Fin 32) (e : Sense) (s : State) : (grantBeat n e s).pending = s.pending := by
  unfold grantBeat
  dsimp only
  (repeat' split) <;> simp

@[simp] theorem beatRead_pending (e : Sense) (s : State) : (beatRead e s).pending = s.pending := by
  unfold beatRead
  dsimp only
  (repeat' split) <;> simp

@[simp] theorem beatOut_pending (n : Fin 32) (b : Beat) (s : State) : (beatOut n b s).pending = s.pending :=
  (settleDesc_pending ..).trans (ite_keeps ((chIrq_pending ..).trans (by
      split
      · exact (modCh_pending ..).trans (popBeat_pending ..)
      · exact popBeat_pending ..)) (by
      split
      · exact (modCh_pending ..).trans (popBeat_pending ..)
      · exact popBeat_pending ..))

@[simp] theorem beatDone_pending (n : Fin 32) (b : Beat) (s : State) : (beatDone n b s).pending = s.pending :=
  (beatOut_pending ..).trans (dropTagOpt_pending ..)

@[simp] theorem beatRefused_pending (n : Fin 32) (code : BitVec 8) (s : State) : (beatRefused n code s).pending = s.pending :=
  (settleDesc_pending ..).trans ((refuseBeat_pending ..).trans (discardBeats_pending ..))

@[simp] theorem writeMediaBeat_pending (n : Fin 32) (d : Desc) (b : Beat) (data : Line) (s : State) :
    (writeMediaBeat n d b data s).pending = s.pending := by
  unfold writeMediaBeat
  dsimp only
  (repeat' split) <;> simp

@[simp] theorem writeKeepBeat_pending (n : Fin 32) (d : Desc) (b : Beat) (data : Line) (s : State) :
    (writeKeepBeat n d b data s).pending = s.pending :=
  ite_keeps (beatRefused_pending ..) (ite_keeps rfl ((beatDone_pending ..).trans (.trans (ite_keeps (formFill_pending ..) rfl)
      ((loadFill_pending ..).trans (ite_keeps rfl rfl)))))

@[simp] theorem writeCopyBeat_pending (n : Fin 32) (b : Beat) (cell : StoredLine) (s : State) :
    (writeCopyBeat n b cell s).pending = s.pending :=
  ite_keeps rfl ((beatOut_pending ..).trans ((touchBank_pending ..).trans ((modSlot_pending ..).trans (chargeSlot_pending ..))))

@[simp] theorem beatTo_pending (n : Fin 32) (d : Desc) (b : Beat) (data : Line) (s : State) :
    (beatTo n d b data s).pending = s.pending := by
  unfold beatTo
  split <;> simp

@[simp] theorem beatWrite_pending (n : Fin 32) (host : Line) (poison : Bool) (s : State) :
    (beatWrite n host poison s).pending = s.pending :=
  ite_keeps rfl (by
      split
      · exact ite_keeps ((settleDesc_pending ..).trans ((popBeat_pending ..).trans (dropTagOpt_pending ..))) (ite_keeps rfl
            ((beatTo_pending ..).trans (ite_keeps rfl rfl)))
      · rfl)

@[simp] theorem barrierReached_pending (n : Fin 32) (s : State) : (barrierReached n s).pending = s.pending := by
  delta barrierReached
  extract_lets
  split
  · exact ite_keeps ((chGo_pending ..).trans (modCh_pending ..)) rfl
  · rfl

@[simp] theorem writeBack_pending (c : DmaCh) (off : Nat) (bs : List Byte) (s : State) : (writeBack c off bs s).pending = s.pending :=
  ite_keeps (sramWrite_pending ..) (send_pending ..)

@[simp] theorem writeCoda_pending (c : DmaCh) (d : Desc) (s : State) : (writeCoda c d s).pending = s.pending :=
  ite_keeps rfl ((writeBack_pending ..).trans (writeBack_pending ..))

@[simp] theorem afterCoda_pending (n : Fin 32) (d : Desc) (s : State) : (afterCoda n d s).pending = s.pending :=
  ite_keeps ((chGo_pending ..).trans (modCh_pending ..)) (ite_keeps ((chGo_pending ..).trans (modCh_pending ..)) (ite_keeps
      ((chGo_pending ..).trans (modCh_pending ..)) ((chGo_pending ..).trans (modCh_pending ..))))

@[simp] theorem takeUp_pending (n : Fin 32) (s : State) : (takeUp n s).pending = s.pending := ite_keeps (startCopyCh_pending ..) rfl

@[simp] theorem copyCoda_pending (c : DmaCh) (d : Desc) (s : State) : (copyCoda c d s).pending = s.pending :=
  ite_keeps rfl (ite_keeps (extentDone_pending ..) (writeEntryOf_pending ..))

@[simp] theorem coda_pending (n : Fin 32) (s : State) : (coda n s).pending = s.pending := by
  unfold coda
  dsimp only
  (repeat' split) <;> simp

@[simp] theorem dropOutstanding_pending (n : Fin 32) (s : State) : (dropOutstanding n s).pending = s.pending := by
  delta dropOutstanding
  extract_lets
  split
  · exact (settleDesc_pending ..).trans ((freeBeats_pending ..).trans ((modCh_pending ..).trans (dropTagOpt_pending ..)))
  · rfl

@[simp] theorem busError_pending (n : Fin 32) (s : State) : (busError n s).pending = s.pending :=
  ite_keeps rfl (ite_keeps (ite_keeps (haltCh_pending ..) (stopGroup_pending ..)) (ite_keeps (dropOutstanding_pending ..)
      (dataError_pending ..)))

@[simp] theorem readTimeout_pending (n : Fin 32) (s : State) : (readTimeout n s).pending = s.pending :=
  ite_keeps rfl (busError_pending ..)

@[simp] theorem fermataCh_pending (n : Fin 32) (s : State) : (fermataCh n s).pending = s.pending := by
  delta fermataCh
  extract_lets
  exact ite_keeps rfl (by
      split
      · exact (chGo_pending ..).trans (modCh_pending ..)
      · exact modCh_pending ..
      · exact modCh_pending ..
      · exact ite_keeps (modCh_pending ..) ((chGo_pending ..).trans (modCh_pending ..))
      · exact ite_keeps (modCh_pending ..) ((chGo_pending ..).trans (modCh_pending ..))
      · exact (chGo_pending ..).trans (modCh_pending ..)
      · rfl)

@[simp] theorem pauseReached_pending (n : Fin 32) (s : State) : (pauseReached n s).pending = s.pending :=
  ite_keeps ((chGo_pending ..).trans (modCh_pending ..)) rfl

@[simp] theorem resumeCh_pending (n : Fin 32) (s : State) : (resumeCh n s).pending = s.pending :=
  ite_keeps rfl (by
      split
      · exact chGo_pending ..
      · exact ite_keeps (chGo_pending ..) (ite_keeps (chGo_pending ..) ((chGo_pending ..).trans (modCh_pending ..))))

@[simp] theorem kickCh_pending (n : Fin 32) (s : State) : (kickCh n s).pending = s.pending := ite_keeps (chGo_pending ..) rfl
@[simp] theorem noteAbort_pending (n : Fin 32) (s : State) : (noteAbort n s).pending = s.pending := by rfl

@[simp] theorem abortCh_pending (n : Fin 32) (s : State) : (abortCh n s).pending = s.pending := by
  unfold abortCh
  dsimp only
  (repeat' split) <;> simp

@[simp] theorem ringBell_pending (n : Fin 32) (k : Nat) (s : State) : (ringBell n k s).pending = s.pending :=
  (kickCh_pending ..).trans (modCh_pending ..)

@[simp] theorem gpioEdge_pending (pin : Fin 16) (level : Bool) (s : State) : (gpioEdge pin level s).pending = s.pending :=
  ite_keeps rfl (foldl_pending _ _ fun _ _ => ite_keeps (pulseLine_pending ..) rfl)

@[simp] theorem settleFailed_pending (s : State) : (settleFailed s).pending = s.pending :=
  foldl_pending _ _ fun _ _ => ite_keeps ((settleDesc_pending ..).trans (discardBeats_pending ..)) rfl

/-! ### The queue is kept: built-in tests (SelfTest) -/

@[simp] theorem testStart_pending (i : Fin 16) (s : State) : (testStart i s).pending = s.pending :=
  ite_keeps (ite_keeps (ite_keeps rfl rfl) (ite_keeps rfl rfl)) rfl

@[simp] theorem leaveTest_pending (s : State) : (leaveTest s).pending = s.pending := by
  delta leaveTest
  extract_lets
  exact ite_keeps rfl (by
      split
      · exact ite_keeps (goState_pending ..) (enterRest_pending ..)
      · exact ite_keeps (goState_pending ..) (goState_pending ..))

@[simp] theorem clearPassed_pending (s : State) : (clearPassed s).pending = s.pending := by rfl

@[simp] theorem endRun_pending (s : State) : (endRun s).pending = s.pending :=
  ite_keeps rfl (.trans (ite_keeps rfl (leaveTest_pending ..)) ((raise_pending ..).trans ((clearPassed_pending ..).trans (ite_keeps
      ((modCart_pending ..).trans (ite_keeps (modCart_pending ..) rfl)) (ite_keeps (modCart_pending ..) rfl)))))

@[simp] theorem restCause_pending (i : Fin 16) (held : Bool) (s : State) : (restCause i held s).pending = s.pending := by
  unfold restCause
  split <;> simp

@[simp] theorem registerInhibit_pending (x : Slot) (at' : Nat) (s : State) : (registerInhibit x at' s).pending = s.pending :=
  ite_keeps rfl (by
      split <;> rfl)

@[simp] theorem sampleField_pending (x : Slot) (s : State) : (sampleField x s).pending = s.pending :=
  ite_keeps (registerInhibit_pending ..) rfl

@[simp] theorem inhibitGone_pending (x : Slot) (s : State) : (inhibitGone x s).pending = s.pending :=
  ite_keeps ((goState_pending ..).trans (by
      split <;> rfl)) (by
      split <;> rfl)

@[simp] theorem slotFailed_pending (x : Slot) (s : State) : (slotFailed x s).pending = s.pending := by
  unfold slotFailed
  dsimp only
  (repeat' split) <;> simp

@[simp] theorem slotTestFails_pending (i : Fin 16) (x : Slot) (s : State) : (slotTestFails i x s).pending = s.pending :=
  ite_keeps ((restCause_pending ..).trans (modSlot_pending ..)) (slotFailed_pending ..)

@[simp] theorem testFails_pending (i : Fin 16) (s : State) : (testFails i s).pending = s.pending := by
  delta testFails
  split
  · exact ite_keeps (restCause_pending ..) (ite_keeps rfl (ite_keeps (ite_keeps rfl (raise_pending ..)) (ite_keeps rfl rfl)))
  · exact ite_keeps ((slotFailed_pending ..).trans (modSlot_pending ..)) (ite_keeps rfl (slotTestFails_pending ..))

@[simp] theorem testGone_pending (i : Fin 16) (s : State) : (testGone i s).pending = s.pending := by rfl

@[simp] theorem recordTest_pending (i : Fin 16) (pass : Bool) (s : State) : (recordTest i pass s).pending = s.pending :=
  ite_keeps rfl (ite_keeps rfl rfl)

@[simp] theorem insPassed_pending (x : Slot) (t : Nat) (s : State) : (insPassed x t s).pending = s.pending :=
  ite_keeps (.trans (ite_keeps ((settleBind_pending ..).trans (arrival_pending ..)) rfl) (modSlot_pending ..)) rfl

@[simp] theorem logFail_pending (i : Fin 16) (code : BitVec 8) (d : Word × Word × Word × Word) (s : State) :
    (logFail i code d s).pending = s.pending := raise_pending ..

@[simp] theorem endTest_pending (i : Fin 16) (pass : Bool) (code : BitVec 8) (d : Word × Word × Word × Word) (s : State) :
    (endTest i pass code d s).pending = s.pending := by
  delta endTest
  exact ite_keeps rfl ((endRun_pending ..).trans (ite_keeps (by
      split
      · exact (insPassed_pending ..).trans (.trans (ite_keeps rfl rfl) ((recordTest_pending ..).trans (testGone_pending ..)))
      · exact .trans (ite_keeps rfl rfl) ((recordTest_pending ..).trans (testGone_pending ..))) ((testFails_pending ..).trans
            ((logFail_pending ..).trans (.trans (ite_keeps rfl rfl) ((recordTest_pending ..).trans (testGone_pending ..)))))))

@[simp] theorem skipTest_pending (i : Fin 16) (s : State) : (skipTest i s).pending = s.pending :=
  (raise_pending ..).trans (testGone_pending ..)

@[simp] theorem skipSlot_pending (x : Slot) (s : State) : (skipSlot x s).pending = s.pending :=
  (endRun_pending ..).trans ((modSlot_pending ..).trans (foldl_pending _ _ fun _ _ => skipTest_pending ..))

@[simp] theorem repairRow_pending (array : Nat) (row : Nat) (s : State) : (repairRow array row s).1.pending = s.pending := by
  unfold repairRow
  split <;> simp

@[simp] theorem repairRows_pending (l : List (Nat × Nat)) : ∀ s : State, (repairRows l s).1.pending = s.pending := by
  induction l with
  | nil => exact fun _ => rfl
  | cons a l ih => simp [repairRows, ih]

@[simp] theorem lpExit_pending (s : State) : (lpExit s).pending = s.pending := traceRaw_pending ..
@[simp] theorem sramBist_pending (failing : List (Nat × Nat)) (s : State) : (sramBist failing s).pending = s.pending := by simp [sramBist]

@[simp] theorem holdup_pending (capUf : List Nat) (esrMohm : List Nat) (vchg10mv : BitVec 16) (s : State) :
    (holdup capUf esrMohm vchg10mv s).pending = s.pending := by
  unfold holdup
  extract_lets
  (repeat' split) <;> simp +zetaDelta

@[simp] theorem clkMetro_pending (cycles : Nat) (s : State) : (clkMetro cycles s).pending = s.pending := by simp [clkMetro]

@[simp] theorem vholdCmp_pending (rising : Nat) (falling : Nat) (s : State) :
    (vholdCmp rising falling s).pending = s.pending := by simp [vholdCmp]

@[simp] theorem tempTest_pending (slot : Option Slot) (readings : List Int) (s : State) :
    (tempTest slot readings s).pending = s.pending := by
  delta tempTest
  split
  · exact endTest_pending ..
  · exact ite_keeps rfl (ite_keeps (ite_keeps ((insPassed_pending ..).trans (ite_keeps rfl (testGone_pending ..))) (ite_keeps
        ((insPassed_pending ..).trans ((logFail_pending ..).trans (ite_keeps rfl (testGone_pending ..)))) ((slotFailed_pending ..).trans
        ((logFail_pending ..).trans (ite_keeps rfl (testGone_pending ..)))))) (ite_keeps rfl (logFail_pending ..)))

@[simp] theorem phyLb_pending (errors : Nat) (s : State) : (phyLb errors s).pending = s.pending := endTest_pending ..

@[simp] theorem mlLb_pending (x : Slot) (errors : Nat) (eyeMilliUi : Nat) (s : State) :
    (mlLb x errors eyeMilliUi s).pending = s.pending := ite_keeps rfl ((endTest_pending ..).trans (ite_keeps (modSlot_pending ..) rfl))

@[simp] theorem mramRef_pending (x : Slot) (offsetMv : Nat) (tmrPercent : Nat) (bank : Nat) (s : State) :
    (mramRef x offsetMv tmrPercent bank s).pending = s.pending := endTest_pending ..

@[simp] theorem wdrv_pending (x : Slot) (deviationPermille : Nat) (die : Nat) (s : State) :
    (wdrv x deviationPermille die s).pending = s.pending := endTest_pending ..

@[simp] theorem mag_pending (x : Slot) (offMax : Nat) (onMin : Nat) (onMax : Nat) (sensor : Nat) (inhibitSeen : Bool) (s : State) :
    (mag x offMax onMin onMax sensor inhibitSeen s).pending = s.pending :=
  ite_keeps rfl (ite_keeps ((endRun_pending ..).trans ((insPassed_pending ..).trans (skipTest_pending ..))) (endTest_pending ..))

@[simp] theorem arrayReloc_pending (x : Slot) (bank : Nat) (p : Nat) (s : State) : (arrayReloc x bank p s).pending = s.pending := by
  unfold arrayReloc
  dsimp only
  (repeat' split) <;> simp

@[simp] theorem arrayBank_pending (x : Slot) (repaired unrepaired : Nat) (last : Bool) (s : State) :
    (arrayBank x repaired unrepaired last s).pending = s.pending := by
  delta arrayBank
  extract_lets i bank s₁
  refine ite_keeps rfl ?_
  split
  · rfl
  · extract_lets used rows s₂ bt₂ s₃ lines s₄ old d bt₄ s₅ bt₅ s₆
    have h₂ : s₂.pending = s.pending := .trans (foldl_pending _ _ fun _ _ => raise_pending ..)
      (.trans (bumpGap_pending x bank _ _) ((engineWrites_pending ..).trans (engineWrites_pending ..)))
    have h₃ : s₃.pending = s.pending := ite_keeps h₂ ((modCart_pending ..).trans h₂)
    have h₄ : s₄.pending = s.pending := .trans (foldl_pending _ _ fun _ _ => arrayReloc_pending ..) h₃
    have h₆ : s₆.pending = s.pending := ite_keeps h₄ h₄
    exact ite_keeps ((endTest_pending ..).trans h₆) h₆

@[simp] theorem restoreSaved_pending (x : Slot) (s : State) : (restoreSaved x s).pending = s.pending := by
  unfold restoreSaved
  split <;> simp

@[simp] theorem beginTests_pending (s : State) : (beginTests s).pending = s.pending :=
  (endRun_pending ..).trans (foldl_pending _ _ fun _ _ => skipTest_pending ..)

@[simp] theorem testEntry_pending (s : State) : (testEntry s).pending = s.pending :=
  ite_keeps rfl (by
      split
      · exact ite_keeps ((beginTests_pending ..).trans ((dropArm_pending ..).trans (goState_pending ..))) rfl
      · exact ite_keeps ((beginTests_pending ..).trans ((dropArm_pending ..).trans (goState_pending ..))) rfl
      · exact (beginTests_pending ..).trans (goState_pending ..)
      · rfl)

@[simp] theorem runTests_pending (s : State) : (runTests s).pending = s.pending := by
  delta runTests
  extract_lets
  split
  · exact (beginTests_pending ..).trans (lapse_pending ..)
  · exact (testEntry_pending ..).trans (lapse_pending ..)
  · exact (testEntry_pending ..).trans (lapse_pending ..)

@[simp] theorem stopTests_pending (s : State) : (stopTests s).pending = s.pending :=
  (endRun_pending ..).trans (foldl_pending _ _ fun _ _ => skipTest_pending ..)

@[simp] theorem exitTests_pending (s : State) : (exitTests s).pending = s.pending := ite_keeps (leaveTest_pending ..) rfl

@[simp] theorem bootTimeout_pending (s : State) : (bootTimeout s).pending = s.pending :=
  ite_keeps rfl (foldl_pending _ _ fun _ _ => endTest_pending ..)

/-! ### The queue is kept: supervisors (Supervisor) -/

@[simp] theorem authFail_pending (x : Slot) (s : State) : (authFail x s).pending = s.pending :=
  (raiseSer_pending ..).trans (modSlot_pending ..)

@[simp] theorem drawNonce_pending (x : Slot) (s : State) : (drawNonce x s).pending = s.pending :=
  (nextFree_pending ..).trans (modSlot_pending ..)

@[simp] theorem identify_pending (x : Slot) (b : List Byte) (s : State) : (identify x b s).pending = s.pending :=
  ite_keeps (authFail_pending ..) ((drawNonce_pending ..).trans (modSlot_pending ..))

@[simp] theorem authPass_pending (x : Slot) (s : State) : (authPass x s).pending = s.pending :=
  .trans (ite_keeps rfl (wantSv_pending ..)) ((wantSv_pending ..).trans ((wantSv_pending ..).trans ((modSlot_pending ..).trans
      (modSlot_pending ..))))

@[simp] theorem judgeTag_pending (x : Slot) (tag : List Byte) (s : State) : (judgeTag x tag s).pending = s.pending :=
  ite_keeps rfl (ite_keeps (authPass_pending ..) (.trans (ite_keeps (authFail_pending ..) rfl) ((drawNonce_pending ..).trans
      (modSlot_pending ..))))

@[simp] theorem noteExposed_pending (x : Slot) (s : State) : (noteExposed x s).pending = s.pending :=
  ite_keeps ((raiseSer_pending ..).trans (modSlot_pending ..)) rfl

@[simp] theorem paid_pending (x : Slot) (opc : BitVec 7) (s : State) : (paid x opc s).pending = s.pending := modSlot_pending ..

@[simp] theorem svEffect_pending (x : Slot) (o : SvOut) (b : List Byte) (s : State) : (svEffect x o b s).pending = s.pending := by
  unfold svEffect
  split <;> simp

@[simp] theorem svAnswer_pending (x : Slot) (o : SvOut) (res : BitVec 8) (b : List Byte) (s : State) :
    (svAnswer x o res b s).pending = s.pending :=
  (noteExposed_pending ..).trans (ite_keeps (.trans (ite_keeps (modSlot_pending ..) rfl) ((emit_pending ..).trans (modSlot_pending ..)))
      (.trans (ite_keeps (svEffect_pending ..) rfl) ((emit_pending ..).trans (modSlot_pending ..))))

@[simp] theorem svReceive_pending (x : Slot) (o : SvOut) (frame : List Byte) (s : State) :
    (svReceive x o frame s).pending = s.pending := modCart_pending ..

@[simp] theorem sendRequest_pending (x : Slot) (o : SvOut) (link : SvLink) (s : State) :
    (sendRequest x o link s).pending = s.pending := ite_keeps rfl ((svReceive_pending ..).trans (emit_pending ..))

@[simp] theorem repeatRequest_pending (x : Slot) (o : SvOut) (link : SvLink) (s : State) :
    (repeatRequest x o link s).pending = s.pending := (sendRequest_pending ..).trans (modSlot_pending ..)

@[simp] theorem svCollect_pending (x : Slot) (o : SvOut) (s : State) : (svCollect x o s).pending = s.pending := by
  delta svCollect
  extract_lets
  split
  · rfl
  · exact ite_keeps (.trans (ite_keeps (repeatRequest_pending ..) rfl) (modSv_pending ..)) (svAnswer_pending ..)

@[simp] theorem exchange_pending (x : Slot) (opc : BitVec 7) (payload : List Byte) (extra : List Byte) (link : SvLink) (s : State) :
    (exchange x opc payload extra link s).pending = s.pending := by
  unfold exchange
  dsimp only
  (repeat' split) <;> simp

@[simp] theorem exchangeIf_pending (p : Bool) (x : Slot) (opc : BitVec 7) (payload : List Byte) (extra : List Byte) (link : SvLink)
    (s : State) :
    (exchangeIf p x opc payload extra link s).pending = s.pending := ite_keeps (exchange_pending ..) rfl

@[simp] theorem svPoll_pending (x : Slot) (busy : Bool) (s : State) : (svPoll x busy s).pending = s.pending := by
  delta svPoll
  split
  · rfl
  · exact ite_keeps rfl (ite_keeps (svCollect_pending ..) (ite_keeps rfl (repeatRequest_pending ..)))

@[simp] theorem svTimeout_pending (x : Slot) (s : State) : (svTimeout x s).pending = s.pending := by
  delta svTimeout
  extract_lets
  split
  · rfl
  · exact ite_keeps rfl (.trans (ite_keeps rfl (raise_pending ..)) (modSlot_pending ..))

@[simp] theorem svRetry_pending (x : Slot) (answered : Bool) (s : State) : (svRetry x answered s).pending = s.pending := by
  delta svRetry
  extract_lets
  split
  · rfl
  · exact ite_keeps rfl (.trans (ite_keeps (svCollect_pending ..) rfl) ((sendRequest_pending ..).trans (modSlot_pending ..)))

@[simp] theorem authTimeout_pending (x : Slot) (s : State) : (authTimeout x s).pending = s.pending :=
  ite_keeps rfl (ite_keeps ((authFail_pending ..).trans ((raise_pending ..).trans (modSlot_pending ..))) (authFail_pending ..))

/-! ### The queue is kept: cartridges (Cartridge) -/

@[simp] theorem presenceFall_pending (x : Slot) (card : Card) (s : State) : (presenceFall x card s).pending = s.pending :=
  ite_keeps rfl (by
      split
      · rfl
      · exact modSlot_pending ..)

@[simp] theorem debounceEnd_pending (x : Slot) (s : State) : (debounceEnd x s).pending = s.pending :=
  ite_keeps rfl ((sampleField_pending ..).trans ((raiseSer_pending ..).trans (modSlot_pending ..)))

@[simp] theorem supervisorReady_pending (x : Slot) (s : State) : (supervisorReady x s).pending = s.pending :=
  ite_keeps rfl ((wantSv_pending ..).trans (modSlot_pending ..))

@[simp] theorem linkTraining_pending (x : Slot) (pwrgd : Bool) (width : Nat) (s : State) :
    (linkTraining x pwrgd width s).pending = s.pending :=
  ite_keeps rfl (ite_keeps (.trans (ite_keeps (raise_pending ..) rfl) (modSlot_pending ..)) (slotFailed_pending ..))

@[simp] theorem slotMoved_pending (x : Slot) (serial : BitVec 64) (s : State) : (slotMoved x serial s).pending = s.pending :=
  .trans (ite_keeps rfl ((rebind_pending ..).trans (modSlot_pending ..))) (raiseSer_pending ..)

@[simp] theorem headerClassify_pending (x : Slot) (s : State) : (headerClassify x s).pending = s.pending := by
  delta headerClassify
  extract_lets t due
  split
  · rfl
  · extract_lets bound writes s₁ s₂ place
    have h₁ : s₁.pending = s.pending := .trans (ite_keeps (writeTag_pending ..) rfl) (restoreSaved_pending ..)
    have h₂ : s₂.pending = s.pending := .trans (ite_keeps (slotMoved_pending ..) rfl) h₁
    refine ite_keeps rfl ?_
    split
    · exact (noteMib_pending ..).trans ((modSlot_pending ..).trans h₂)
    · exact (modSlot_pending ..).trans h₂

@[simp] theorem dropSlotCauses_pending (x : Slot) (s : State) : (dropSlotCauses x s).pending = s.pending := leaveRest_pending ..
@[simp] theorem leaveSlot_pending (x : Slot) (s : State) : (leaveSlot x s).pending = s.pending := modSlot_pending ..

@[simp] theorem keepSlotWear_pending (x : Slot) (s : State) : (keepSlotWear x s).pending = s.pending :=
  ite_keeps ((keepWear_pending ..).trans (modSlot_pending ..)) rfl

@[simp] theorem presenceOpen_pending (x : Slot) (s : State) : (presenceOpen x s).pending = s.pending :=
  ite_keeps rfl (ite_keeps (leaveSlot_pending ..) ((dropSlotCauses_pending ..).trans ((inhibitGone_pending ..).trans
      ((skipSlot_pending ..).trans ((leaveSlot_pending ..).trans (ite_keeps ((dropWrites_pending ..).trans ((modSlot_pending ..).trans
      ((keepSlotWear_pending ..).trans (powerOff_pending ..)))) ((departure_pending ..).trans ((modSlot_pending ..).trans
      ((keepSlotWear_pending ..).trans (powerOff_pending ..))))))))))

@[simp] theorem releaseComplete_pending (x : Slot) (s : State) : (releaseComplete x s).pending = s.pending :=
  ite_keeps rfl ((raiseSer_pending ..).trans ((keepSlotWear_pending ..).trans ((modSv_pending ..).trans ((powerOff_pending ..).trans
      (modSlot_pending ..)))))

@[simp] theorem reauth_pending (x : Slot) (s : State) : (reauth x s).pending = s.pending :=
  ite_keeps ((modSlot_pending ..).trans ((powerOff_pending ..).trans ((skipSlot_pending ..).trans (keepSlotWear_pending ..))))
      ((modSlot_pending ..).trans ((skipSlot_pending ..).trans (keepSlotWear_pending ..)))

@[simp] theorem flitError_pending (x : Slot) (s : State) : (flitError x s).pending = s.pending :=
  ite_keeps rfl (ite_keeps (modSlot_pending ..) (modSlot_pending ..))

@[simp] theorem linkIdle_pending (x : Slot) (s : State) : (linkIdle x s).pending = s.pending := ite_keeps (modSlot_pending ..) rfl

@[simp] theorem retrainEnd_pending (x : Slot) (up : Bool) (s : State) : (retrainEnd x up s).pending = s.pending :=
  ite_keeps rfl (ite_keeps ((modSlot_pending ..).trans (ite_keeps (modSlot_pending ..) rfl)) (.trans (ite_keeps
      ((departure_pending ..).trans ((inhibitGone_pending ..).trans (modSlot_pending ..))) rfl) ((modSlot_pending ..).trans (ite_keeps
      (modSlot_pending ..) rfl))))

@[simp] theorem softTimeout_pending (x : Slot) (s : State) : (softTimeout x s).pending = s.pending :=
  ite_keeps ((raise_pending ..).trans (modSlot_pending ..)) rfl

/-! ### The queue is kept: write-back, rewrites, scrub and the field (Field) -/

@[simp] theorem touchTag_pending (s : State) : (touchTag s).pending = s.pending := by rfl

@[simp] theorem rewriteLine_pending (poison : Bool) (e : Sense) (w : Tries) (s : State) :
    (rewriteLine poison e w s).pending = s.pending := by
  unfold rewriteLine
  dsimp only
  (repeat' split) <;> simp

@[simp] theorem recordMove_pending (x : Slot) (bank : Nat) (level : Nat × Nat) (w : Tries) (s : State) :
    (recordMove x bank level w s).1.pending = s.pending := by simp [recordMove]

@[simp] theorem moveFailed_pending (x : Slot) (cline : Nat) (tempo : Tempo) (tried : Bool) (s : State) :
    (moveFailed x cline tempo tried s).pending = s.pending := (mediaEvent_pending ..).trans (enginePwf_pending ..)

@[simp] theorem movedLine_pending (s : State) (x : Slot) (cl : Nat) (e : Sense) : (movedLine s x cl e).1.pending = s.pending := by
  have h := senseLine_pending x cl provider 0 e s
  unfold movedLine
  dsimp only
  split <;> next hr => rw [hr] at h; exact h

@[simp] theorem gapMove_pending (x : Slot) (bank : Fin 128) (e : Sense) (w : Tries) (s : State) :
    (gapMove x bank e w s).pending = s.pending := by
  unfold gapMove
  dsimp only
  (repeat' split) <;> simp

@[simp] theorem setScrub_pending (x : Slot) (n : Nat) (s : State) : (setScrub x n s).pending = s.pending := by
  unfold setScrub
  split <;> simp

@[simp] theorem senseIdle_pending (x : Slot) (bank : Nat) (e : Sense) (s : State) : (senseIdle x bank e s).pending = s.pending := by
  delta senseIdle
  extract_lets
  split
  · exact .trans (ite_keeps rfl (count_pending ..)) (touchBank_pending ..)
  · exact (count_pending ..).trans (touchBank_pending ..)

/-- `unfold` would have the kernel evaluate `sweepAt` on its fuel of 128, so the definition is opened as a function and the place of
the sweep is generalised before anything else. -/
@[simp] theorem scrubNext_pending (x : Slot) (c : Cart) (e : Sense) (s : State) : (scrubNext x c e s).pending = s.pending := by
  generalize hf : @scrubNext = f
  delta scrubNext at hf
  generalize ht : f x c e s = t
  rw [← hf] at ht
  beta_reduce at ht
  extract_lets +onlyGivenNames n at ht
  generalize sweepAt c 128 0 n = p at ht
  subst ht
  split
  extract_lets s₁ whole md s₂
  have h₁ : s₁.pending = s.pending := by
    unfold s₁
    split
    · simp
    · split <;> simp
  split <;> exact (setScrub_pending ..).trans h₁

@[simp] theorem exposedNext_pending (x : Slot) (c : Cart) (n : Nat) (e : Sense) (s : State) :
    (exposedNext x c n e s).pending = s.pending := (modSlot_pending ..).trans (ite_keeps rfl (senseLine_pending ..))

@[simp] theorem scrub_pending (x : Slot) (e : Sense) (s : State) : (scrub x e s).pending = s.pending := by
  delta scrub
  split
  · rfl
  · exact ite_keeps rfl (by
        split
        · exact ite_keeps (exposedNext_pending ..) rfl
        · exact ite_keeps rfl (scrubNext_pending ..))

@[simp] theorem scrubSlot_pending (x : Slot) (s : State) : (scrubSlot x s).pending = s.pending := setScrub_pending ..
@[simp] theorem scrubNow_pending (s : State) : (scrubNow s).pending = s.pending := foldl_pending _ _ fun _ _ => scrubSlot_pending ..

@[simp] theorem inhibit_pending (x : Slot) (s : State) : (inhibit x s).pending = s.pending :=
  (registerInhibit_pending ..).trans (modSlot_pending ..)

@[simp] theorem endInhibit_pending (x : Slot) (msec : Nat) (s : State) : (endInhibit x msec s).pending = s.pending := by
  unfold endInhibit
  split <;> simp

@[simp] theorem clearInhibit_pending (x : Slot) (peak : BitVec 16) (s : State) : (clearInhibit x peak s).pending = s.pending := by
  delta clearInhibit
  extract_lets
  split
  · exact modSlot_pending ..
  · exact (settleBind_pending ..).trans (ite_keeps ((goState_pending ..).trans (ite_keeps ((pulseLine_pending ..).trans (ite_keeps
        ((endInhibit_pending ..).trans (modSlot_pending ..)) ((raise_pending ..).trans ((endInhibit_pending ..).trans
        (modSlot_pending ..))))) (ite_keeps ((endInhibit_pending ..).trans (modSlot_pending ..)) ((raise_pending ..).trans
        ((endInhibit_pending ..).trans (modSlot_pending ..)))))) (ite_keeps ((pulseLine_pending ..).trans (ite_keeps
        ((endInhibit_pending ..).trans (modSlot_pending ..)) ((raise_pending ..).trans ((endInhibit_pending ..).trans
        (modSlot_pending ..))))) (ite_keeps ((endInhibit_pending ..).trans (modSlot_pending ..)) ((raise_pending ..).trans
        ((endInhibit_pending ..).trans (modSlot_pending ..))))))

@[simp] theorem logField_pending (flags : BitVec 4) (s : State) : (logField flags s).pending = s.pending := raiseF_pending ..

@[simp] theorem fieldHold_pending (s : State) : (fieldHold s).pending = s.pending :=
  ite_keeps ((logField_pending ..).trans ((dropArm_pending ..).trans (goState_pending ..))) rfl

@[simp] theorem fieldRepeat_pending (s : State) : (fieldRepeat s).pending = s.pending := ite_keeps (logField_pending ..) rfl

@[simp] theorem recomputeLive_pending (v : BitVec 16) (s : State) : (recomputeLive v s).pending = s.pending :=
  ite_keeps rfl (recompute_pending ..)

@[simp] theorem backAll_pending (s : State) : (backAll s).pending = s.pending := ite_keeps rfl rfl

/-! ### The queue is kept: the trace (Trace) -/

@[simp] theorem traceSearch_pending (s : State) : (traceSearch s).pending = s.pending := by rfl

@[simp] theorem putTrace_pending (seq : Nat) (l : Line) (homes : List (Slot × Nat)) :
    ∀ (w : Tries) (s : State), (putTrace seq l homes w s).pending = s.pending := by
  induction homes with
  | nil => exact fun _ _ => rfl
  | cons h homes ih => simp [putTrace, ih]

@[simp] theorem spillLine_pending (entries : List TrEntry) (w : Tries) (s : State) : (spillLine entries w s).pending = s.pending :=
  (putTrace_pending ..).trans ((dropTag_pending ..).trans (takeTag_pending ..))

@[simp] theorem spillLoss_pending (s : State) : (spillLoss s).pending = s.pending := ite_keeps rfl (raise_pending ..)

@[simp] theorem traceSpill_pending (w : Tries) (s : State) : (traceSpill w s).pending = s.pending :=
  ite_keeps rfl (ite_keeps (traceSearch_pending ..) (ite_keeps rfl (.trans (ite_keeps rfl (spillLine_pending ..))
      (spillLoss_pending ..))))

@[simp] theorem spillRest_pending (n : Nat) (s : State) : (spillRest n s).pending = s.pending := by
  induction n generalizing s with
  | zero => rfl
  | succ n ih => simp [spillRest, ih]

@[simp] theorem spillAll_pending (s : State) : (spillAll s).pending = s.pending :=
  ite_keeps rfl ((spillRest_pending ..).trans ((spillLoss_pending ..).trans (ite_keeps (traceSearch_pending ..) rfl)))

/-! ### The queue is kept: power, start-up and replay (Power) -/

@[simp] theorem newStart_pending (hlsel : Bool) (cardA : Option Card) (cardB : Option Card) (cause : BitVec 4) (s : State) :
    (newStart hlsel cardA cardB cause s).pending = s.pending :=
  .trans (ite_keeps (raise_pending ..) rfl) ((sampleField_pending ..).trans ((sampleField_pending ..).trans (trace_pending ..)))

@[simp] theorem perstRelease_pending (hlsel : Bool) (cardA : Option Card) (cardB : Option Card) (s : State) :
    (perstRelease hlsel cardA cardB s).pending = s.pending := by
  delta perstRelease
  split
  · exact ite_keeps rfl (newStart_pending ..)
  · exact ite_keeps rfl (newStart_pending ..)
  · rfl

@[simp] theorem leaveScan_pending (s : State) : (leaveScan s).pending = s.pending := by rfl

@[simp] theorem leaveStandby_pending (code : BitVec 4) (s : State) : (leaveStandby code s).pending = s.pending :=
  (resumeMinute_pending ..).trans ((sampleField_pending ..).trans ((sampleField_pending ..).trans ((goState_pending ..).trans
      (traceRaw_pending ..))))

@[simp] theorem pfail_pending (s : State) : (pfail s).pending = s.pending := by
  delta pfail
  extract_lets
  split
  · rfl
  · exact ite_keeps rfl rfl
  · exact (startDrain_pending ..).trans (leaveStandby_pending ..)
  · exact ite_keeps (leaveScan_pending ..) (startDrain_pending ..)

@[simp] theorem logReset_pending (type : Nat) (fn : Nat) (s : State) : (logReset type fn s).pending = s.pending :=
  (raise_pending ..).trans (trace_pending ..)

@[simp] theorem perstAssert_pending (s : State) : (perstAssert s).pending = s.pending := by
  delta perstAssert
  split
  · rfl
  · rfl
  · exact (startDrain_pending ..).trans ((logReset_pending ..).trans (leaveStandby_pending ..))
  · exact ite_keeps (leaveScan_pending ..) (ite_keeps rfl ((startDrain_pending ..).trans (logReset_pending ..)))

@[simp] theorem lockLost_pending (s : State) : (lockLost s).pending = s.pending :=
  ite_keeps rfl (ite_keeps (leaveScan_pending ..) (ite_keeps rfl ((startDrain_pending ..).trans (raise_pending ..))))

@[simp] theorem lockBack_pending (s : State) : (lockBack s).pending = s.pending := ite_keeps (newStart_pending ..) (ite_keeps rfl rfl)

@[simp] theorem tripped_pending (tj : BitVec 8) (s : State) : (tripped tj s).pending = s.pending :=
  ite_keeps rfl (ite_keeps (leaveScan_pending ..) (startDrain_pending ..))

@[simp] theorem drainEnds_pending (fails : List (Slot × Fin 128)) (damaged : List Nat) (s : State) :
    (drainEnds fails damaged s).pending = s.pending := by
  delta drainEnds
  split
  · rfl
  · exact .trans (ite_keeps rfl rfl) (endDrain_pending ..)

@[simp] theorem wakeUp_pending (code : BitVec 4) (s : State) : (wakeUp code s).pending = s.pending := ite_keeps rfl rfl
@[simp] theorem pfailRise_pending (s : State) : (pfailRise s).pending = s.pending := wakeUp_pending ..

@[simp] theorem wake_pending (sources : BitVec 9) (s : State) : (wake sources s).pending = s.pending := by
  unfold wake
  (repeat' split) <;> simp

@[simp] theorem wakeAlarm_pending (s : State) : (wakeAlarm s).pending = s.pending := ite_keeps (wake_pending ..) rfl

@[simp] theorem vbatMeasured_pending (v : BitVec 16) (s : State) : (vbatMeasured v s).pending = s.pending :=
  ite_keeps (raise_pending ..) rfl

@[simp] theorem vbatLost_pending (s : State) : (vbatLost s).pending = s.pending := ite_keeps rfl rfl
@[simp] theorem fromOff_pending (s : State) : (fromOff s).pending = s.pending := ite_keeps rfl rfl

@[simp] theorem settleDuet_pending (s : State) : (settleDuet s).pending = s.pending := by
  delta settleDuet
  extract_lets
  split
  · rfl
  · exact ite_keeps rfl rfl
  · exact ite_keeps rfl rfl
  · exact ite_keeps (ite_keeps (goDuet_pending ..) (ite_keeps (goDuet_pending ..) (ite_keeps rfl (goDuet_pending ..)))) (ite_keeps
        (goDuet_pending ..) (ite_keeps (goDuet_pending ..) (ite_keeps (goDuet_pending ..) (goDuet_pending ..))))
  · exact ite_keeps (ite_keeps (goDuet_pending ..) (ite_keeps (goDuet_pending ..) (ite_keeps rfl (goDuet_pending ..)))) (ite_keeps
        (goDuet_pending ..) (ite_keeps (goDuet_pending ..) (ite_keeps (goDuet_pending ..) (goDuet_pending ..))))
  · exact ite_keeps (ite_keeps rfl (goDuet_pending ..)) (ite_keeps (goDuet_pending ..) (ite_keeps (goDuet_pending ..)
        (goDuet_pending ..)))
  · exact ite_keeps (ite_keeps rfl (goDuet_pending ..)) (ite_keeps (goDuet_pending ..) (ite_keeps (goDuet_pending ..)
        (goDuet_pending ..)))
  · exact ite_keeps rfl (.trans (ite_keeps rfl rfl) (goDuet_pending ..))
  · exact ite_keeps rfl rfl
  · exact ite_keeps rfl rfl

@[simp] theorem bootEnds_pending (s : State) : (bootEnds s).pending = s.pending :=
  ite_keeps rfl ((actLate_pending ..).trans ((settleDuet_pending ..).trans ((goState_pending ..).trans (ite_keeps
      (rebind_pending ..) rfl))))

@[simp] theorem replayFailure_pending (code : BitVec 8) (e : HoldEntry) (tries : Nat) (tried : Bool) (x : Slot) (cl : Nat) (s : State) :
    (replayFailure code e tries tried x cl s).pending = s.pending :=
  (mediaEvent_pending ..).trans ((noteError_pending ..).trans ((raiseAddr_pending ..).trans (count_pending ..)))

@[simp] theorem replayWrite_pending (e : HoldEntry) (first : Slot) (acc : State × Tries) (h : Slot × Nat) :
    (replayWrite e first acc h).1.pending = acc.1.pending := by
  simp [replayWrite]

@[simp] theorem replayEntry_pending (w : Tries) (s : State) : (replayEntry w s).pending = s.pending := by
  unfold replayEntry
  split <;> simp

@[simp] theorem noteDrains_pending (s : State) : (noteDrains s).pending = s.pending := ite_keeps (formBoot_pending ..) rfl

@[simp] theorem countLost_pending (s : State) : (countLost s).pending = s.pending :=
  .trans (ite_keeps rfl (raiseF_pending ..)) (.trans (foldl_pending _ _ fun _ _ => raise_pending ..) (noteDrains_pending ..))

@[simp] theorem reconcileNow_pending (w : Tries) (s : State) : (reconcileNow w s).pending = s.pending :=
  ite_keeps rfl ((reconcile_pending ..).trans (countLost_pending ..))

@[simp] theorem eraseArea_pending (x : Slot) (s : State) : (eraseArea x s).pending = s.pending := by
  delta eraseArea
  split
  · exact ite_keeps rfl ((modCart_pending ..).trans ((bumpGap_pending ..).trans (engineWrites_pending ..)))
  · rfl

@[simp] theorem resumeCopy_pending (s : State) : (resumeCopy s).pending = s.pending := by
  delta resumeCopy
  extract_lets
  split
  · exact ite_keeps ((startCopy_pending ..).trans (planCopy_pending ..)) rfl
  · exact ite_keeps rfl (ite_keeps ((copyDone_pending ..).trans ((settleRing_pending ..).trans (planCopy_pending ..)))
        ((startCopy_pending ..).trans ((settleRing_pending ..).trans (planCopy_pending ..))))
  · split
    · exact startRing_pending ..
    · rfl

@[simp] theorem noteGone_pending (s : State) : (noteGone s).pending = s.pending := by
  delta noteGone
  extract_lets
  split
  · exact foldl_pending _ _ fun _ _ => ite_keeps rfl (swapMarker_pending ..)
  · exact foldl_pending _ _ fun _ _ => ite_keeps rfl (swapMarker_pending ..)
  · rfl

@[simp] theorem actLast_pending (s : State) : (actLast s).pending = s.pending :=
  .trans (ite_keeps ((actLate_pending ..).trans (goState_pending ..)) rfl) (actLate_pending ..)

@[simp] theorem openService_pending (s : State) : (openService s).pending = s.pending := by simp [openService]
@[simp] theorem holdPending_pending (code : BitVec 8) (s : State) : (holdPending code s).pending = s.pending := enterRest_pending ..
@[simp] theorem holdAbsent_pending (s : State) : (holdAbsent s).pending = s.pending := (holdPending_pending ..).trans (raise_pending ..)

@[simp] theorem serveAfterReplay_pending (s : State) : (serveAfterReplay s).pending = s.pending := by
  delta serveAfterReplay
  split
  · exact enterRest_pending ..
  · exact goState_pending ..

@[simp] theorem replayEnds_pending (s : State) : (replayEnds s).pending = s.pending :=
  ite_keeps rfl (ite_keeps (ite_keeps (holdAbsent_pending ..) rfl) (ite_keeps rfl (ite_keeps ((actLast_pending ..).trans
      ((leaveRest_pending ..).trans (openService_pending ..))) (ite_keeps rfl ((actLast_pending ..).trans
      ((serveAfterReplay_pending ..).trans (openService_pending ..)))))))

@[simp] theorem replayLate_pending (s : State) : (replayLate s).pending = s.pending :=
  ite_keeps rfl ((holdPending_pending ..).trans (raise_pending ..))

@[simp] theorem replayInhibit_pending (s : State) : (replayInhibit s).pending = s.pending :=
  ite_keeps ((holdPending_pending ..).trans (logField_pending ..)) rfl

@[simp] theorem armStandby_pending (s : State) : (armStandby s).pending = s.pending := lapse_pending ..
@[simp] theorem disarm_pending (s : State) : (disarm s).pending = s.pending := ite_keeps rfl rfl
@[simp] theorem lpEnter_pending (p : Power) (s : State) : (lpEnter p s).pending = s.pending := by rfl

@[simp] theorem enterStandby_pending (s : State) : (enterStandby s).pending = s.pending := by
  delta enterStandby
  extract_lets
  split
  · exact ite_keeps rfl ((goState_pending ..).trans ((modSlot_pending ..).trans ((modSlot_pending ..).trans (lpEnter_pending ..))))
  · exact ite_keeps rfl ((goState_pending ..).trans ((modSlot_pending ..).trans ((modSlot_pending ..).trans (lpEnter_pending ..))))
  · rfl

@[simp] theorem armTimeout_pending (s : State) : (armTimeout s).pending = s.pending := by
  delta armTimeout
  split
  · exact ite_keeps rfl rfl
  · rfl

@[simp] theorem finalSv_pending (s : State) (x : Slot) : (finalSv s x).pending = s.pending :=
  ite_keeps rfl ((exchange_pending ..).trans ((exchange_pending ..).trans (exchange_pending ..)))

@[simp] theorem hibernate_pending (s : State) : (hibernate s).pending = s.pending :=
  (startDrain_pending ..).trans ((spillAll_pending ..).trans ((lpEnter_pending ..).trans
      ((foldl_pending _ _ fun _ _ => finalSv_pending ..).trans (lapse_pending ..))))

/-! ### The queue is kept: register operands (Operands) -/

@[simp] theorem modView_pending (ch : Chan) (f : EvView → EvView) (s : State) : (modView ch f s).pending = s.pending := ite_keeps rfl rfl

/-! ### The queue is kept: sticky flags and result codes (Flags) -/

/-- A judged write that is taken leaves a state with this queue. -/
def Judged.Keeps (q : List Instr) : Judged → Prop
  | .refused _ => True
  | .taken t => t.pending = q

@[simp] theorem keeps_taken (q : List Instr) (t : State) : (Judged.taken t).Keeps q ↔ t.pending = q := Iff.rfl

@[simp] theorem keeps_refused (q : List Instr) (c : BitVec 8) : (Judged.refused c).Keeps q := trivial

theorem ite_judged {p : Prop} [Decidable p] {t u : Judged} {q : List Instr} (ht : t.Keeps q) (hu : u.Keeps q) :
    (if p then t else u).Keeps q := by
  split <;> assumption

@[simp] theorem judge_keeps {q : List Instr} (codes : List (Option (BitVec 8))) {t : State} (h : t.pending = q) :
    (judge codes t).Keeps q := by
  unfold judge
  split
  · trivial
  · exact h

@[simp] theorem setSticky_pending (b : Block) (c : Ctx) (s : State) : (setSticky b c s).pending = s.pending := by
  unfold setSticky
  split <;> simp

@[simp] theorem setResult_pending (b : Block) (code : BitVec 8) (s : State) : (setResult b code s).pending = s.pending := by
  unfold setResult
  split <;> simp

@[simp] theorem logRefusal_pending (ch : Chan) (unit : BitVec 5) (ctx : BitVec 8) (off : Nat) (code : BitVec 8) (v : Word) (s : State) :
    (logRefusal ch unit ctx off code v s).pending = s.pending := ite_keeps (raise_pending ..) rfl

@[simp] theorem refuse_pending (ch : Chan) (b : Block) (c : Ctx) (off : Nat) (code : BitVec 8) (v : Word) (s : State) :
    (refuse ch b c off code v s).pending = s.pending :=
  (setResult_pending ..).trans (.trans (ite_keeps (setSticky_pending ..) rfl) (logRefusal_pending ..))

/-! ### The queue is kept: register writes (RegWrite) -/

@[simp] theorem fenceAll_pending (s : State) : (fenceAll s).pending = s.pending := by simp [fenceAll]
@[simp] theorem fenceCtx_pending (c : Ctx) (s : State) : (fenceCtx c s).pending = s.pending := by rfl

@[simp] theorem writeGl_keeps (off : Nat) (be : BitVec 4) (v : Word) (s : State) : (writeGl off be v s).Keeps s.pending := by
  unfold writeGl
  split <;> simp

@[simp] theorem writePc_keeps (off : Nat) (be : BitVec 4) (v : Word) (s : State) : (writePc off be v s).Keeps s.pending := by
  unfold writePc
  split <;> simp

@[simp] theorem writeMd_keeps (off : Nat) (be : BitVec 4) (v : Word) (s : State) : (writeMd off be v s).Keeps s.pending := by
  delta writeMd
  extract_lets
  split
  · exact judge_keeps _ rfl
  · exact judge_keeps _ (ite_keeps (scrubNow_pending ..) rfl)
  · exact judge_keeps _ rfl
  · exact judge_keeps _ rfl
  · exact judge_keeps _ rfl
  · exact judge_keeps _ rfl
  · rfl

@[simp] theorem storeCtCtrl_pending (x : Slot) (w : Word) (s : State) : (storeCtCtrl x w s).pending = s.pending :=
  .trans (ite_keeps (wantSv_pending ..) rfl) (modSlot_pending ..)

@[simp] theorem passThrough_pending (x : Slot) (opc : BitVec 7) (len : Nat) (s : State) :
    (passThrough x opc len s).pending = s.pending :=
  ite_keeps ((nextFree_pending ..).trans (modSlot_pending ..)) (.trans (ite_keeps rfl (modSlot_pending ..)) (modSlot_pending ..))

@[simp] theorem writeCt_keeps (x : Slot) (off : Nat) (be : BitVec 4) (v : Word) (s : State) : (writeCt x off be v s).Keeps s.pending :=
  ite_judged (judge_keeps _ (modSlot_pending ..)) (ite_judged (judge_keeps _ (ite_keeps ((reauth_pending ..).trans (.trans (ite_keeps
      (beginRelease_pending ..) rfl) (storeCtCtrl_pending ..))) (.trans (ite_keeps (beginRelease_pending ..) rfl)
      (storeCtCtrl_pending ..)))) (ite_judged (judge_keeps _ (passThrough_pending ..)) (ite_judged (judge_keeps _
      (modSlot_pending ..)) rfl)))

@[simp] theorem giveCut_pending (s : State) : (giveCut s).pending = s.pending := ite_keeps (enterCut_pending ..) rfl

@[simp] theorem writeDuet_keeps (off : Nat) (be : BitVec 4) (v : Word) (s : State) : (writeDuet off be v s).Keeps s.pending := by
  delta writeDuet
  extract_lets
  split
  · exact judge_keeps _ rfl
  · exact judge_keeps _ (ite_keeps ((giveCut_pending ..).trans (ite_keeps (abortMigration_pending ..) rfl)) (ite_keeps
        (abortMigration_pending ..) rfl))
  · exact judge_keeps _ rfl
  · exact judge_keeps _ rfl
  · rfl

@[simp] theorem setIndex_pending (ch : Chan) (i : BitVec 8) (s : State) : (setIndex ch i s).pending = s.pending := ite_keeps rfl rfl
@[simp] theorem storeMode_pending (c : Ctx) (w : Word) (s : State) : (storeMode c w s).pending = s.pending := by rfl

@[simp] theorem writeTn_keeps (ch : Chan) (off : Nat) (c : Ctx) (be : BitVec 4) (v : Word) (s : State) :
    (writeTn ch off c be v s).Keeps s.pending := by
  delta writeTn
  extract_lets
  split
  · exact judge_keeps _ (setIndex_pending ..)
  · exact judge_keeps _ (modTenant_pending ..)
  · exact ite_judged rfl (judge_keeps _ (storeMode_pending ..))
  · rfl

@[simp] theorem timeSync_pending (hi : Word) (s : State) : (timeSync hi s).pending = s.pending :=
  ite_keeps (syncSlew_pending ..) (syncStep_pending ..)

@[simp] theorem syncRefused_pending (hi : Word) (s : State) : (syncRefused hi s).pending = s.pending := by rfl
@[simp] theorem latchTotals_pending (s : State) : (latchTotals s).pending = s.pending := ite_keeps rfl rfl

@[simp] theorem writeLg_keeps (off : Nat) (be : BitVec 4) (v : Word) (s : State) : (writeLg off be v s).Keeps s.pending := by
  unfold writeLg
  split <;> simp

@[simp] theorem pulseSw_pending (m : Word) (s : State) : (pulseSw m s).pending = s.pending :=
  foldl_pending _ _ fun _ _ => ite_keeps (pulseLine_pending ..) rfl

@[simp] theorem writeDm_keeps (off : Nat) (be : BitVec 4) (v : Word) (s : State) : (writeDm off be v s).Keeps s.pending := by
  delta writeDm
  extract_lets
  split
  · exact judge_keeps _ rfl
  · exact judge_keeps _ rfl
  · exact judge_keeps _ (pulseSw_pending ..)
  · exact judge_keeps _ rfl
  · rfl

@[simp] theorem chCommands_pending (n : Fin 32) (m : Word) (s : State) : (chCommands n m s).pending = s.pending :=
  ite_keeps ((kickCh_pending ..).trans (ite_keeps ((resumeCh_pending ..).trans (ite_keeps ((fermataCh_pending ..).trans (ite_keeps
      ((abortCh_pending ..).trans (ite_keeps (startCh_pending ..) rfl)) (ite_keeps (startCh_pending ..) rfl))) (ite_keeps
      ((abortCh_pending ..).trans (ite_keeps (startCh_pending ..) rfl)) (ite_keeps (startCh_pending ..) rfl)))) (ite_keeps
      ((fermataCh_pending ..).trans (ite_keeps ((abortCh_pending ..).trans (ite_keeps (startCh_pending ..) rfl)) (ite_keeps
      (startCh_pending ..) rfl))) (ite_keeps ((abortCh_pending ..).trans (ite_keeps (startCh_pending ..) rfl)) (ite_keeps
      (startCh_pending ..) rfl))))) (ite_keeps ((resumeCh_pending ..).trans (ite_keeps ((fermataCh_pending ..).trans (ite_keeps
      ((abortCh_pending ..).trans (ite_keeps (startCh_pending ..) rfl)) (ite_keeps (startCh_pending ..) rfl))) (ite_keeps
      ((abortCh_pending ..).trans (ite_keeps (startCh_pending ..) rfl)) (ite_keeps (startCh_pending ..) rfl)))) (ite_keeps
      ((fermataCh_pending ..).trans (ite_keeps ((abortCh_pending ..).trans (ite_keeps (startCh_pending ..) rfl)) (ite_keeps
      (startCh_pending ..) rfl))) (ite_keeps ((abortCh_pending ..).trans (ite_keeps (startCh_pending ..) rfl)) (ite_keeps
      (startCh_pending ..) rfl))))

@[simp] theorem writeCh_keeps (n : Fin 32) (off : Nat) (be : BitVec 4) (v : Word) (s : State) :
    (writeCh n off be v s).Keeps s.pending := by
  delta writeCh
  extract_lets
  split
  · exact judge_keeps _ (chCommands_pending ..)
  · exact judge_keeps _ (modCh_pending ..)
  · exact judge_keeps _ (modCh_pending ..)
  · exact judge_keeps _ (modCh_pending ..)
  · exact judge_keeps _ (modCh_pending ..)
  · exact judge_keeps _ (modCh_pending ..)
  · exact judge_keeps _ (ringBell_pending ..)
  · exact judge_keeps _ (modCh_pending ..)
  · rfl

@[simp] theorem storeAperture_pending (n : Nat) (s : State) : (storeAperture n s).pending = s.pending := by rfl

@[simp] theorem writeHl_keeps (off : Nat) (be : BitVec 4) (v : Word) (s : State) : (writeHl off be v s).Keeps s.pending := by
  unfold writeHl
  split <;> simp

@[simp] theorem storeSpCfg_pending (p : Port) (w : Word) (s : State) : (storeSpCfg p w s).pending = s.pending := modSp_pending ..

@[simp] theorem selectLevel_pending (pin : BitVec 5) (level : Bool) (s : State) : (selectLevel pin level s).pending = s.pending := by
  unfold selectLevel
  split <;> simp

@[simp] theorem startTxn_pending (p : Port) (w : Word) (s : State) : (startTxn p w s).pending = s.pending :=
  .trans (ite_keeps (selectLevel_pending ..) rfl) (modSp_pending ..)

@[simp] theorem pushSp_pending (remote : Bool) (p : Port) (bytes : List Byte) (s : State) :
    (pushSp remote p bytes s).pending = s.pending := modSp_pending ..

@[simp] theorem popSp_pending (remote : Bool) (p : Port) (n : Nat) (s : State) :
    (popSp remote p n s).1.pending = s.pending := by simp [popSp]

@[simp] theorem writeSp_keeps (p : Port) (ch : Chan) (off : Nat) (be : BitVec 4) (v : Word) (s : State) :
    (writeSp p ch off be v s).Keeps s.pending := by
  delta writeSp
  extract_lets
  split
  · exact judge_keeps _ (modSp_pending ..)
  · exact judge_keeps _ (storeSpCfg_pending ..)
  · exact judge_keeps _ (modSp_pending ..)
  · exact judge_keeps _ (pushSp_pending ..)
  · exact judge_keeps _ (modSp_pending ..)
  · exact judge_keeps _ (modSp_pending ..)
  · exact judge_keeps _ (startTxn_pending ..)
  · rfl

@[simp] theorem writeKs_keeps (ch : Chan) (off : Nat) (be : BitVec 4) (v : Word) (s : State) :
    (writeKs ch off be v s).Keeps s.pending := by
  unfold writeKs
  split <;> simp

@[simp] theorem writeBt_keeps (off : Nat) (be : BitVec 4) (v : Word) (s : State) : (writeBt off be v s).Keeps s.pending := by
  delta writeBt
  extract_lets
  split
  · exact judge_keeps _ rfl
  · exact judge_keeps _ (ite_keeps ((runTests_pending ..).trans (ite_keeps ((stopTests_pending ..).trans (ite_keeps
        (exitTests_pending ..) rfl)) (ite_keeps (exitTests_pending ..) rfl))) (ite_keeps ((stopTests_pending ..).trans (ite_keeps
        (exitTests_pending ..) rfl)) (ite_keeps (exitTests_pending ..) rfl)))
  · exact judge_keeps _ rfl
  · exact judge_keeps _ rfl
  · rfl

@[simp] theorem drivePins_pending (s : State) : (drivePins s).pending = s.pending :=
  foldl_pending _ _ fun _ _ => ite_keeps (gpioEdge_pending ..) rfl

@[simp] theorem setQuiet_pending (on : Bool) (s : State) : (setQuiet on s).pending = s.pending := ite_keeps (goState_pending ..) rfl

@[simp] theorem writePw_keeps (off : Nat) (be : BitVec 4) (v : Word) (s : State) : (writePw off be v s).Keeps s.pending := by
  delta writePw
  extract_lets
  split
  · exact judge_keeps _ rfl
  · exact judge_keeps _ (ite_keeps ((hibernate_pending ..).trans (ite_keeps ((disarm_pending ..).trans (.trans (ite_keeps
        (armStandby_pending ..) rfl) (setQuiet_pending ..))) (.trans (ite_keeps (armStandby_pending ..) rfl) (setQuiet_pending ..))))
        (ite_keeps ((disarm_pending ..).trans (.trans (ite_keeps (armStandby_pending ..) rfl) (setQuiet_pending ..))) (.trans (ite_keeps
        (armStandby_pending ..) rfl) (setQuiet_pending ..))))
  · exact judge_keeps _ rfl
  · exact judge_keeps _ rfl
  · exact judge_keeps _ rfl
  · exact judge_keeps _ rfl
  · exact judge_keeps _ (drivePins_pending ..)
  · exact judge_keeps _ (drivePins_pending ..)
  · exact judge_keeps _ rfl
  · rfl

@[simp] theorem fetchTrace_pending (s : State) : (fetchTrace s).pending = s.pending := ite_keeps rfl rfl

@[simp] theorem writeEv_keeps (ch : Chan) (off : Nat) (be : BitVec 4) (v : Word) (s : State) :
    (writeEv ch off be v s).Keeps s.pending := by
  delta writeEv
  extract_lets
  split
  · exact judge_keeps _ rfl
  · exact judge_keeps _ (modView_pending ..)
  · exact judge_keeps _ (modView_pending ..)
  · exact judge_keeps _ rfl
  · exact judge_keeps _ rfl
  · exact judge_keeps _ rfl
  · exact judge_keeps _ rfl
  · exact judge_keeps _ (trace_pending ..)
  · exact judge_keeps _ (ite_keeps (fetchTrace_pending ..) rfl)
  · rfl

@[simp] theorem setSecret_pending (mgmt : Bool) (k : Fin 8) (be : BitVec 4) (v : Word) (s : State) :
    (setSecret mgmt k be v s).pending = s.pending := ite_keeps rfl rfl

@[simp] theorem csResult_pending (code : BitVec 8) (s : State) : (csResult code s).pending = s.pending := by rfl

@[simp] theorem tagWritten_pending (o : TagOutcome) (s : State) : (tagWritten o s).pending = s.pending := by
  delta tagWritten
  split
  · rfl
  · exact badTag_pending ..
  · exact refuseChange_pending ..
  · exact commitChange_pending ..

@[simp] theorem writeCs_keeps (ch : Chan) (off : Nat) (be : BitVec 4) (v : Word) (s : State) :
    (writeCs ch off be v s).Keeps s.pending := by
  unfold writeCs
  dsimp only
  (repeat' split) <;> simp

/-! ### The queue is kept: register reads (RegRead) -/

@[simp] theorem readFxGl_pending (off : Nat) (m : Word) (v : Word) (s : State) : (readFxGl off m v s).pending = s.pending := by
  delta readFxGl
  split
  · rfl
  · rfl
  · exact ite_keeps rfl rfl
  · rfl

@[simp] theorem readFxMd_pending (off : Nat) (m : Word) (v : Word) (s : State) : (readFxMd off m v s).pending = s.pending := by
  unfold readFxMd
  split <;> simp

@[simp] theorem readFxCt_pending (x : Slot) (off : Nat) (m : Word) (v : Word) (s : State) :
    (readFxCt x off m v s).pending = s.pending := by
  unfold readFxCt
  split <;> simp

@[simp] theorem readFxLg_pending (ch : Chan) (off : Nat) (s : State) : (readFxLg ch off s).pending = s.pending :=
  ite_keeps rfl (ite_keeps rfl rfl)

@[simp] theorem readFxCh_pending (n : Fin 32) (off : Nat) (s : State) : (readFxCh n off s).pending = s.pending := by
  unfold readFxCh
  generalize off - chBase n = k
  by_cases h₁ : k = 0x14
  · subst h₁
    exact modCh_pending ..
  · by_cases h₂ : k = 0x44
    · subst h₂
      exact modCh_pending ..
    · simp

@[simp] theorem readFxHl_pending (off : Nat) (m : Word) (v : Word) (s : State) : (readFxHl off m v s).pending = s.pending := by
  unfold readFxHl
  split <;> simp

@[simp] theorem readFxSp_pending (p : Port) (ch : Chan) (off : Nat) (m : Word) (v : Word) (s : State) :
    (readFxSp p ch off m v s).pending = s.pending := by
  unfold readFxSp
  split <;> simp

@[simp] theorem readFxKs_pending (ch : Chan) (off : Nat) (m : Word) (v : Word) (s : State) :
    (readFxKs ch off m v s).pending = s.pending := by
  unfold readFxKs
  split <;> simp

@[simp] theorem readFxPw_pending (off : Nat) (m : Word) (s : State) : (readFxPw off m s).pending = s.pending := by
  delta readFxPw
  split
  · rfl
  · exact ite_keeps rfl rfl
  · rfl

@[simp] theorem readFxEv_pending (ch : Chan) (off : Nat) (m : Word) (v : Word) (s : State) :
    (readFxEv ch off m v s).pending = s.pending :=
  ite_keeps rfl (by
      split
      · exact modView_pending ..
      · rfl
      · exact modView_pending ..
      · rfl)

@[simp] theorem readFx_pending (ch : Chan) (op : RegOp) (m : Word) (v : Word) (s : State) : (readFx ch op m v s).pending = s.pending :=
  ite_keeps rfl (by
      split
      · exact readFxGl_pending ..
      · exact readFxMd_pending ..
      · exact readFxCt_pending ..
      · exact readFxLg_pending ..
      · exact readFxCh_pending ..
      · exact readFxHl_pending ..
      · exact readFxSp_pending ..
      · exact readFxKs_pending ..
      · exact ite_keeps rfl rfl
      · exact readFxPw_pending ..
      · exact readFxEv_pending ..
      · rfl
      · rfl
      · rfl
      · rfl
      · rfl
      · rfl)

/-! ### The queue is kept: grants (Grants) -/

@[simp] theorem askTag_pending (c : TagClass) (s : State) : (askTag c s).pending = s.pending := arbitrate_pending ..
@[simp] theorem askBank_pending (k : Nat) (s : State) (h : Slot × Nat) : (askBank k s h).pending = s.pending := arbitrate_pending ..

@[simp] theorem askBanks_pending (k : Nat) (l : List (Slot × Nat)) (s : State) : (askBanks k l s).pending = s.pending :=
  foldl_pending _ _ fun _ _ => askBank_pending ..

@[simp] theorem backOldest_pending (e : Sense) (s : State) : (backOldest e s).pending = s.pending :=
  ite_keeps rfl (by
      split
      · rfl
      · exact (issueOldest_pending ..).trans ((askBanks_pending ..).trans (ite_keeps (askTag_pending ..) rfl)))

@[simp] theorem askBeat_pending (n : Fin 32) (s : State) : (askBeat n s).pending = s.pending :=
  (askBanks_pending ..).trans (askTag_pending ..)

@[simp] theorem readNextBeat_pending (e : Sense) (s : State) : (readNextBeat e s).pending = s.pending :=
  ite_keeps rfl (by
      split
      · exact (beatRead_pending ..).trans (askBeat_pending ..)
      · exact beatRead_pending ..)

@[simp] theorem writeNextBeat_pending (n : Fin 32) (host : Line) (poison : Bool) (s : State) :
    (writeNextBeat n host poison s).pending = s.pending := by
  delta writeNextBeat
  split
  · exact ite_keeps ((beatWrite_pending ..).trans (askBank_pending ..)) (beatWrite_pending ..)
  · rfl

@[simp] theorem writeRecord_pending (w : Tries) (s : State) : (writeRecord w s).pending = s.pending :=
  ite_keeps rfl (by
      split
      · exact ledgerWrite_pending ..
      · exact ite_keeps ((ledgerWrite_pending ..).trans ((askBanks_pending ..).trans (askTag_pending ..))) (ledgerWrite_pending ..))

@[simp] theorem replayNext_pending (w : Tries) (s : State) : (replayNext w s).pending = s.pending := by
  unfold replayNext
  split <;> simp

@[simp] theorem spillNext_pending (w : Tries) (s : State) : (spillNext w s).pending = s.pending :=
  (traceSpill_pending ..).trans (ite_keeps (askTag_pending ..) rfl)

/-! ### The queue is kept: register accesses (Access) -/

@[simp] theorem judgeWrite_keeps (ch : Chan) (b : Block) (off : Nat) (c : Ctx) (be : BitVec 4) (v : Word) (s : State) :
    (judgeWrite ch b off c be v s).Keeps s.pending := by
  unfold judgeWrite
  split <;> simp

@[simp] theorem refuseStage_pending (ch : Chan) (b : Block) (c : Ctx) (off : Nat) (code : BitVec 8) (cs : Bool) (unit : Bool) (v : Word)
    (s : State) :
    (refuseStage ch b c off code cs unit v s).pending = s.pending := by simp [refuseStage]

@[simp] theorem svResult_pending (x : Slot) (code : BitVec 8) (s : State) : (svResult x code s).pending = s.pending :=
  ite_keeps (modSlot_pending ..) rfl

@[simp] theorem refuseOwn_pending (ch : Chan) (b : Block) (c : Ctx) (off : Nat) (code : BitVec 8) (v : Word) (s : State) :
    (refuseOwn ch b c off code v s).pending = s.pending := by
  delta refuseOwn
  split
  · exact (syncRefused_pending ..).trans (refuse_pending ..)
  · exact ite_keeps (refuse_pending ..) (refuse_pending ..)
  · exact (csResult_pending ..).trans (refuse_pending ..)
  · exact (svResult_pending ..).trans (refuse_pending ..)
  · exact (svResult_pending ..).trans (refuse_pending ..)
  · exact refuse_pending ..

@[simp] theorem writeReg_pending (ch : Chan) (op : RegOp) (be : BitVec 4) (v : Word) (s : State) :
    (writeReg ch op be v s).1.pending = s.pending := by
  unfold writeReg
  split
  · rfl
  next b _ =>
    dsimp only
    split
    · split
      · simp
      · split <;> simp
    · have hj := judgeWrite_keeps ch b op.off (op.tenant s ch) be (op.carried ch v s) s
      split
      · simp
      next t ht =>
        rw [ht, keeps_taken] at hj
        split <;> simp [hj]

@[simp] theorem writeAt_pending (ch : Chan) (off : Nat) (be : BitVec 4) (v : Word) (s : State) :
    (writeAt ch off be v s).pending = s.pending := by
  delta writeAt
  split
  · exact ite_keeps (writeReg_pending ..) rfl
  · rfl

@[simp] theorem command_pending (ch : Chan) (off : Nat) (v : Word) (s : State) : (command ch off v s).pending = s.pending :=
  writeAt_pending ..

@[simp] theorem refuseRead_pending (b : Block) (code : BitVec 8) (s : State) : (refuseRead b code s).pending = s.pending :=
  (setResult_pending ..).trans (ite_keeps (setSticky_pending ..) rfl)

@[simp] theorem readKeep_pending (ch : Chan) (s : State) : (readKeep ch s).1.pending = s.pending := by
  have h := rdata_pending ch.mgmt s
  unfold readKeep
  split
  next t w hr => rw [hr] at h; simpa using h
  next t w hr => rw [hr] at h; exact h

@[simp] theorem readFifo_pending (ch : Chan) (p : Port) (m : Word) (s : State) :
    (readFifo ch p m s).1.pending = s.pending := by simp [readFifo]

@[simp] theorem readReg_pending (ch : Chan) (op : RegOp) (m : Word) (s : State) : (readReg ch op m s).1.pending = s.pending := by
  unfold readReg
  dsimp only
  (repeat' split) <;> simp

@[simp] theorem readBus_pending (ch : Chan) (off : Nat) (m : Word) (s : State) : (readBus ch off m s).1.pending = s.pending := by
  unfold readBus
  (repeat' split) <;> simp

@[simp] theorem writeBus_pending (ch : Chan) (off : Nat) (be : BitVec 4) (v : Word) (s : State) :
    (writeBus ch off be v s).1.pending = s.pending := by
  unfold writeBus
  split <;> simp

@[simp] theorem queryAt_pending (ch : Chan) (off : Nat) (be : BitVec 4) (s : State) : (queryAt ch off be s).pending = s.pending := by
  unfold queryAt
  split <;> simp

@[simp] theorem windowFx_pending (t : Fin 128) (off : Nat) (m : Word) (v : Word) (s : State) :
    (windowFx t off m v s).pending = s.pending := ite_keeps rfl (ite_keeps (modTenant_pending ..) (ite_keeps (modTenant_pending ..) rfl))

@[simp] theorem readWindow_pending (t : Fin 128) (off : Nat) (m : Word) (s : State) :
    (readWindow t off m s).1.pending = s.pending := by simp [readWindow]

@[simp] theorem writeWindow_pending (t : Fin 128) (off : Nat) (v : Word) (s : State) : (writeWindow t off v s).pending = s.pending :=
  ite_keeps rfl (ite_keeps ((setSticky_pending ..).trans (logRefusal_pending ..)) (ite_keeps (fenceCtx_pending ..)
      (modTenant_pending ..)))

/-! ### The queue is kept: register commands (Registers) -/

@[simp] theorem writeHere_pending (ch : Chan) (off : Nat) (be : BitVec 4) (v : Word) (s : State) :
    (writeHere ch off be v s).pending = s.pending := ite_keeps (writeBus_pending ..) rfl

/-! ### The queue is kept: serial ports (Serial) -/

@[simp] theorem reservedWrite_pending (p : Port) (off : Nat) (v : Word) (s : State) :
    (reservedWrite p off v s).1.pending = s.pending := by simp [reservedWrite]

@[simp] theorem writeFrameWord_pending (p : Port) (off : Nat) (m : Word) (v : Word) (s : State) :
    (writeFrameWord p off m v s).1.pending = s.pending := by simp [writeFrameWord]

@[simp] theorem writeRun_pending (p : Port) (off : Nat) (l : List (Word × Word)) (s : State) :
    (writeRun p off l s).1.pending = s.pending := by
  induction l generalizing off s with
  | nil => rfl
  | cons a l ih => simp [writeRun, ih]

@[simp] theorem readRun_pending (p : Port) (off : Nat) (l : List (Word × Word)) (s : State) :
    (readRun p off l s).1.pending = s.pending := by
  induction l generalizing off s with
  | nil => rfl
  | cons a l ih => simp [readRun, ih]

@[simp] theorem rejectFrame_pending (p : Port) (code : BitVec 3) (s : State) : (rejectFrame p code s).pending = s.pending :=
  modSp_pending ..

@[simp] theorem setPage_pending (p : Port) (f : Frame) (s : State) : (setPage p f s).pending = s.pending := by
  unfold setPage
  split <;> simp

@[simp] theorem acceptFrame_pending (p : Port) (f : Frame) (again : Bool) (s : State) :
    (acceptFrame p f again s).pending = s.pending := (modSp_pending ..).trans (setPage_pending ..)

@[simp] theorem closeFrame_pending (p : Port) (code : Option (BitVec 8)) (s : State) : (closeFrame p code s).pending = s.pending :=
  modSp_pending ..

@[simp] theorem fetchFrame_pending (p : Port) (f : Frame) (s : State) : (fetchFrame p f s).1.pending = s.pending := by simp [fetchFrame]

@[simp] theorem serveReadFrame_pending (p : Port) (f : Frame) (status : Byte) (s : State) :
    (serveReadFrame p f status s).pending = s.pending := by simp [serveReadFrame]

@[simp] theorem writeFrame_pending (p : Port) (f : Frame) (status : Byte) (s : State) :
    (writeFrame p f status s).pending = s.pending :=
  (closeFrame_pending ..).trans ((writeRun_pending ..).trans ((modSp_pending ..).trans ((acceptFrame_pending ..).trans
      (emit_pending ..))))

@[simp] theorem repeatFrame_pending (p : Port) (f : Frame) (status : Byte) (s : State) :
    (repeatFrame p f status s).pending = s.pending := (emit_pending ..).trans ((modSp_pending ..).trans (acceptFrame_pending ..))

@[simp] theorem slaveFrame_pending (p : Port) (sdi : List Bool) (sckFall : Bool) (sckRise : Bool) (s : State) :
    (slaveFrame p sdi sckFall sckRise s).pending = s.pending := by
  unfold slaveFrame
  dsimp only
  (repeat' split) <;> simp

@[simp] theorem endSelect_pending (p : Port) (t : SpTx) (hold : Bool) (s : State) : (endSelect p t hold s).pending = s.pending :=
  ite_keeps rfl (ite_keeps (modSp_pending ..) ((selectLevel_pending ..).trans (modSp_pending ..)))

@[simp] theorem endTxn_pending (p : Port) (t : SpTx) (hold : Bool) (code : BitVec 8) (s : State) :
    (endTxn p t hold code s).pending = s.pending :=
  .trans (ite_keeps (raise_pending ..) rfl) ((endSelect_pending ..).trans (modSp_pending ..))

@[simp] theorem masterEnd_pending (p : Port) (sdo : List Bool) (s : State) : (masterEnd p sdo s).pending = s.pending := by
  delta masterEnd
  extract_lets
  split
  · rfl
  · exact .trans (ite_keeps (endTxn_pending ..) rfl) ((emit_pending ..).trans (modSp_pending ..))

@[simp] theorem stretchEnds_pending (p : Port) (s : State) : (stretchEnds p s).pending = s.pending := by
  delta stretchEnds
  extract_lets
  split
  · rfl
  · exact ite_keeps (endTxn_pending ..) rfl

@[simp] theorem modeChange_pending (p : Port) (s : State) : (modeChange p s).pending = s.pending := by
  unfold modeChange
  dsimp only
  (repeat' split) <;> simp

/-! ### The queue is kept: targets of a host request (Target) -/

@[simp] theorem setHdm_pending (d : Fin 2) (r : Option HdmRange) (s : State) : (setHdm d r s).pending = s.pending := ite_keeps rfl rfl

@[simp] theorem modVec_pending (fn : Fn) (i : Fin 192) (f : Vec → Vec) (s : State) : (modVec fn i f s).pending = s.pending := by
  delta modVec
  split
  · rfl
  · exact ite_keeps rfl rfl

@[simp] theorem messageIssued_pending (fn : Fn) (i : Fin 192) (s : State) : (messageIssued fn i s).pending = s.pending := by
  delta messageIssued
  split
  · exact ite_keeps rfl (modTenant_pending ..)
  · rfl

@[simp] theorem sendVector_pending (fn : Fn) (i : Fin 192) (s : State) : (sendVector fn i s).pending = s.pending :=
  (send_pending ..).trans (modVec_pending ..)

@[simp] theorem signalVector_pending (fn : Fn) (i : Fin 192) (s : State) : (signalVector fn i s).pending = s.pending :=
  ite_keeps rfl (ite_keeps (modVec_pending ..) (ite_keeps rfl ((messageIssued_pending ..).trans (ite_keeps ((modVec_pending ..).trans
      (modVec_pending ..)) ((sendVector_pending ..).trans (modVec_pending ..))))))

@[simp] theorem releaseVector_pending (fn : Fn) (i : Fin 192) (s : State) : (releaseVector fn i s).pending = s.pending :=
  ite_keeps (sendVector_pending ..) rfl

@[simp] theorem clearExposed_pending (s : State) : (clearExposed s).pending = s.pending := foldl_pending _ _ fun _ _ => modVec_pending ..

@[simp] theorem writeTable_pending (fn : Fn) (off : Nat) (be : BitVec 4) (w : Word) (s : State) :
    (writeTable fn off be w s).pending = s.pending := (releaseVector_pending ..).trans (modVec_pending ..)

@[simp] theorem readWordAt_pending (fn : Fn) (bar : Bar) (off : Nat) (m : Word) (s : State) :
    (readWordAt fn bar off m s).1.pending = s.pending := by
  unfold readWordAt
  split <;> simp

@[simp] theorem writeWordAt_pending (fn : Fn) (bar : Bar) (off : Nat) (be : BitVec 4) (w : Word) (s : State) :
    (writeWordAt fn bar off be w s).pending = s.pending := by
  unfold writeWordAt
  split <;> simp

@[simp] theorem readParts_pending (fn : Fn) (bar : Bar) (l : List Part) (s : State) : (readParts fn bar l s).1.pending = s.pending := by
  induction l generalizing s with
  | nil => rfl
  | cons p l ih => simp [readParts, ih]

@[simp] theorem hostSram_pending (off : Nat) (data : List Byte) (s : State) : (hostSram off data s).pending = s.pending :=
  ite_keeps rfl (sramWrite_pending ..)

@[simp] theorem readBar_pending (fn : Fn) (bar : Bar) (off : Nat) (len : Nat) (s : State) :
    (readBar fn bar off len s).1.pending = s.pending := by
  unfold readBar
  (repeat' split) <;> simp

/-! ### The queue is kept: host memory requests (HostPath) -/

@[simp] theorem noteHol_pending (s : State) : (noteHol s).pending = s.pending := by rfl
@[simp] theorem register_pending (r : Req) (s : State) : (register r s).pending = s.pending := by rfl

@[simp] theorem toShare_pending (r : Req) (s : State) : (toShare r s).pending = s.pending :=
  ite_keeps ((modReq_pending ..).trans (freeStaging_pending ..)) rfl

@[simp] theorem acceptRead_pending (r : Req) (s : State) : (acceptRead r s).1.pending = s.pending := by simp [acceptRead]

@[simp] theorem askLine_pending (s : State) (line : Nat) : (askLine s line).pending = s.pending := by
  delta askLine
  split
  · exact ite_keeps rfl (askBank_pending ..)
  · exact askBank_pending ..
  · rfl

@[simp] theorem readLines_pending (who : Ctx) (base : Nat) (l : List Nat) (e : List Sense) (s : State) :
    (readLines who base l e s).1.pending = s.pending := by
  induction l generalizing e s with
  | nil => rfl
  | cons n l ih => simp [readLines, ih]

@[simp] theorem serveMedia_pending (r : Req) (tag : Nat) (s : State) : (serveMedia r tag s).pending = s.pending :=
  (sendAll_pending ..).trans ((readLines_pending ..).trans ((count_pending ..).trans (ite_keeps rfl (spendTokens_pending ..))))

@[simp] theorem serve_pending (r : Req) (s : State) : (serve r s).pending = s.pending := by
  unfold serve
  dsimp only
  (repeat' split) <;> simp

@[simp] theorem serveReads_pending (s : State) : (serveReads s).pending = s.pending :=
  foldl_pending _ _ fun _ _ => ite_keeps (serve_pending ..) rfl

@[simp] theorem unsupportedRead_pending (t : Tlp) (s : State) : (unsupportedRead t s).pending = s.pending :=
  (serveReads_pending ..).trans ((register_pending ..).trans (signalUr_pending ..))

@[simp] theorem flushBytes_pending (fn : Fn) (bar : Bar) (value : Word) (l : List Part) (s : State) :
    (flushBytes fn bar value l s).1.pending = s.pending := by
  induction l generalizing s with
  | nil => rfl
  | cons p l ih => simp [flushBytes, ih]

@[simp] theorem removeFlush_pending (f : Flush) (s : State) : (removeFlush f s).pending = s.pending :=
  (noteHol_pending ..).trans (freeEntry_pending ..)

@[simp] theorem endFlush_pending (f : Flush) (done : Bool) (s : State) : (endFlush f done s).pending = s.pending := by
  delta endFlush
  extract_lets
  split
  · exact (send_pending ..).trans (removeFlush_pending ..)
  · exact (send_pending ..).trans ((flushBytes_pending ..).trans ((emit_pending ..).trans (removeFlush_pending ..)))
  · exact (dropTagOpt_pending ..).trans ((emit_pending ..).trans (removeFlush_pending ..))

@[simp] theorem advanceFlush_pending (f : Flush) (s : State) : (advanceFlush f s).pending = s.pending := by
  unfold advanceFlush
  extract_lets
  (repeat' split) <;> simp +zetaDelta

@[simp] theorem tryFlush_pending (id : Nat) (s : State) : (tryFlush id s).pending = s.pending := by
  unfold tryFlush
  dsimp only
  (repeat' split) <;> simp

@[simp] theorem startFlush_pending (scope : FlushScope) (zero : Option Fn) (read : Option (Fn × Bar × Nat × Nat)) (s : State) :
    (startFlush scope zero read s).pending = s.pending := by simp [startFlush]

@[simp] theorem lateFlush_pending (id : Nat) (s : State) : (lateFlush id s).pending = s.pending := by
  delta lateFlush
  split
  · rfl
  · exact ite_keeps rfl ((endFlush_pending ..).trans (by
        split
        · exact raise_pending ..
        · rfl))

@[simp] theorem zeroRead_pending (fn : Fn) (s : State) : (zeroRead fn s).pending = s.pending :=
  ite_keeps rfl (ite_keeps (unsupportedRead_pending ..) (by
      split <;> exact startFlush_pending ..))

@[simp] theorem mediaRead_pending (t : Tlp) (c : Ctx) (off : Nat) (dpa : Nat) (sense : List Sense) (s : State) :
    (mediaRead t c off dpa sense s).pending = s.pending := by
  delta mediaRead
  extract_lets
  split
  · exact .trans (ite_keeps rfl ((serveReads_pending ..).trans (register_pending ..))) ((noteRefusal_pending ..).trans (count_pending ..))
  · exact (serveReads_pending ..).trans ((register_pending ..).trans (count_pending ..))

@[simp] theorem noteStray_pending (fn : Fn) (aperture : Bool) (write : Bool) (off : Nat) (s : State) :
    (noteStray fn aperture write off s).pending = s.pending := ite_keeps (recordRefusal_pending ..) rfl

@[simp] theorem registerRead_pending (t : Tlp) (s : State) : (registerRead t s).pending = s.pending :=
  ite_keeps (unsupportedRead_pending ..) (by
      split
      · exact startFlush_pending ..
      · exact (serveReads_pending ..).trans (register_pending ..))

@[simp] theorem hostRead_pending (fn : Fn) (bar : Bar) (off : Nat) (len : Nat) (sense : List Sense) (s : State) :
    (hostRead fn bar off len sense s).pending = s.pending :=
  ite_keeps rfl (ite_keeps (zeroRead_pending ..) (ite_keeps rfl (by
      split
      · exact ite_keeps (mediaRead_pending ..) rfl
      · exact noteRefusal_pending ..
      · exact (unsupportedRead_pending ..).trans (noteStray_pending ..)
      · exact registerRead_pending ..)))

@[simp] theorem mediaWrite_pending (t : Tlp) (c : Ctx) (off : Nat) (dpa : Nat) (data : List Byte) (s : State) :
    (mediaWrite t c off dpa data s).pending = s.pending := by
  delta mediaWrite
  extract_lets
  split
  · exact (noteRefusal_pending ..).trans (count_pending ..)
  · exact (register_pending ..).trans (count_pending ..)

@[simp] theorem registerWrite_pending (fn : Fn) (bar : Bar) (off : Nat) (data : List Byte) (s : State) :
    (registerWrite fn bar off data s).pending = s.pending := by
  delta registerWrite
  split
  · exact hostSram_pending ..
  · exact foldl_pending _ _ fun _ _ => writeWordAt_pending ..

@[simp] theorem signalPoison_pending (t : Tlp) (s : State) : (signalPoison t s).pending = s.pending := modAer_pending ..

@[simp] theorem hostWrite_pending (fn : Fn) (bar : Bar) (off : Nat) (data : List Byte) (poison : Bool) (ro : Bool) (s : State) :
    (hostWrite fn bar off data poison ro s).pending = s.pending := by
  delta hostWrite
  extract_lets
  exact ite_keeps rfl (by
      split
      · exact ite_keeps ((mediaWrite_pending ..).trans (ite_keeps (signalPoison_pending ..) rfl)) (ite_keeps
            (signalPoison_pending ..) rfl)
      · exact (noteRefusal_pending ..).trans (ite_keeps (signalPoison_pending ..) rfl)
      · exact (signalUr_pending ..).trans ((noteStray_pending ..).trans (ite_keeps (signalPoison_pending ..) rfl))
      · exact ite_keeps ((signalUr_pending ..).trans (ite_keeps (signalPoison_pending ..) rfl)) (ite_keeps (ite_keeps
            (signalPoison_pending ..) rfl) ((registerWrite_pending ..).trans (ite_keeps (signalPoison_pending ..) rfl))))

@[simp] theorem ingressMove_pending (s : State) : (ingressMove s).pending = s.pending := by
  unfold ingressMove
  dsimp only
  (repeat' split) <;> simp

@[simp] theorem accept_pending (r : Req) (s : State) : (accept r s).pending = s.pending :=
  ite_keeps rfl ((modReq_pending ..).trans (.trans (ite_keeps rfl (spendTokens_pending ..)) ((freeShare_pending ..).trans
      ((takeTag_pending ..).trans (askTag_pending ..)))))

@[simp] theorem lineAdmitted_pending (r : Req) (ver : Bool) (rest : List LinePart) (s : State) :
    (lineAdmitted r ver rest s).pending = s.pending := by
  delta lineAdmitted
  extract_lets
  split
  · exact ite_keeps ((retire_pending ..).trans (modReq_pending ..)) (modReq_pending ..)
  · exact modReq_pending ..

@[simp] theorem admitLine_pending (id : Nat) (s : State) : (admitLine id s).pending = s.pending := by
  unfold admitLine
  split
  · rfl
  next r hr =>
  split
  · rfl
  next p rest hp =>
  split
  · rfl
  · split
    · simp
    · extract_lets ver w
      have ha := admitWrite_pending w p.off (r.base + p.off) p.data p.mask r.poison s
      split <;> next hr => rw [hr] at ha; simpa using ha

@[simp] theorem lineAdmission_pending (id : Nat) (s : State) : (lineAdmission id s).pending = s.pending :=
  (serveReads_pending ..).trans (admitLine_pending ..)

@[simp] theorem dropEgress_pending (p : Out → Bool) (s : State) : (dropEgress p s).pending = s.pending :=
  foldl_pending _ _ fun _ _ => dropTagOpt_pending ..

@[simp] theorem dropUnadmitted_pending (p : Fn → Bool) (s : State) : (dropUnadmitted p s).pending = s.pending :=
  (dropEgress_pending ..).trans ((foldl_pending _ _ fun _ _ => ite_keeps ((dropTagOpt_pending ..).trans
      (removeFlush_pending ..)) rfl).trans (foldl_pending _ _ fun _ _ => ite_keeps (removeReq_pending ..) rfl))

/-! ### The queue is kept: the host link (HostLink) -/

@[simp] theorem cfgAnswer_pending (fn : Fn) (k : Nat) (v : Nat) (s : State) : (cfgAnswer fn k v s).pending = s.pending := send_pending ..
@[simp] theorem cfgDone_pending (fn : Fn) (s : State) : (cfgDone fn s).pending = s.pending := send_pending ..
@[simp] theorem barWrite_pending (i : Fin 5) (v : BitVec 64) (s : State) : (barWrite i v s).pending = s.pending := ite_keeps rfl rfl

@[simp] theorem capAnswer_pending (c : CfgCap) (s : State) : (capAnswer c s).pending = s.pending :=
  ite_keeps ((cfgAnswer_pending ..).trans (nextFree_pending ..)) (cfgAnswer_pending ..)

@[simp] theorem aerAccess_pending (fn : Fn) (clear : Bool) (s : State) : (aerAccess fn clear s).pending = s.pending :=
  ite_keeps ((cfgDone_pending ..).trans (modAer_pending ..)) (cfgAnswer_pending ..)

@[simp] theorem setMsix_pending (fn : Fn) (enable : Bool) (mask : Bool) (s : State) : (setMsix fn enable mask s).pending = s.pending :=
  (foldl_pending _ _ fun _ _ => releaseVector_pending ..).trans (ite_keeps ((foldl_pending _ _ fun _ _ => modVec_pending ..).trans (by
      split <;> rfl)) (by
      split <;> rfl))

@[simp] theorem configPf_pending (reg : CfgReg) (s : State) : (configPf reg s).pending = s.pending := by
  cases reg with
  | bar i v => cases v <;> simp [configPf]
  | sysPage n => simp only [configPf, cfgDone_pending, ite_pending, ite_self]
  | ident | serialLo | serialHi | classCode | subsystem => simp only [configPf, cfgAnswer_pending]
  | device | power | msix | hdm | cap | aer => simp [configPf]

@[simp] theorem configVf_pending (v : Fin 128) (reg : CfgReg) (s : State) : (configVf v reg s).pending = s.pending := by
  unfold configVf
  split <;> simp

@[simp] theorem configRequest_pending (fn : Fn) (reg : CfgReg) (s : State) : (configRequest fn reg s).pending = s.pending :=
  ite_keeps rfl (ite_keeps (send_pending ..) (by
      split
      · exact configPf_pending ..
      · exact ite_keeps (configVf_pending ..) (send_pending ..)))

@[simp] theorem resetVf_pending (v : Fin 128) (s : State) : (resetVf v s).pending = s.pending := by rfl

@[simp] theorem vfReset_pending (v : Fin 128) (s : State) : (vfReset v s).pending = s.pending :=
  (resetVf_pending ..).trans (dropUnadmitted_pending ..)

@[simp] theorem clearVfs_pending (s : State) : (clearVfs s).pending = s.pending := foldl_pending _ _ fun _ _ => vfReset_pending ..
@[simp] theorem resetDma_pending (s : State) : (resetDma s).pending = s.pending := by simp [resetDma]
@[simp] theorem linkReset_pending (s : State) : (linkReset s).pending = s.pending := by simp [linkReset]
@[simp] theorem traceLink_pending (s : State) : (traceLink s).pending = s.pending := trace_pending ..

@[simp] theorem hotReset_pending (s : State) : (hotReset s).pending = s.pending :=
  ite_keeps rfl ((traceLink_pending ..).trans ((logReset_pending ..).trans (linkReset_pending ..)))

@[simp] theorem pfFlr_pending (s : State) : (pfFlr s).pending = s.pending :=
  ite_keeps rfl ((logReset_pending ..).trans ((linkReset_pending ..).trans (ite_keeps rfl (lapse_pending ..))))

@[simp] theorem vfFlr_pending (v : Fin 128) (s : State) : (vfFlr v s).pending = s.pending :=
  ite_keeps rfl ((logReset_pending ..).trans (vfReset_pending ..))

@[simp] theorem vfEnable_pending (on : Bool) (numVfs : BitVec 16) (ari : Bool) (s : State) :
    (vfEnable on numVfs ari s).pending = s.pending :=
  ite_keeps rfl (ite_keeps (ite_keeps rfl ((logReset_pending ..).trans (clearVfs_pending ..))) (ite_keeps rfl (ite_keeps
      (raise_pending ..) (clearExposed_pending ..))))

@[simp] theorem oddRequest_pending (fn : Fn) (s : State) : (oddRequest fn s).pending = s.pending :=
  ite_keeps rfl (unsupportedRead_pending ..)

@[simp] theorem linkTrained_pending (speed : Fin 9) (width : Fin 9) (flexBus : Bool) (s : State) :
    (linkTrained speed width flexBus s).pending = s.pending :=
  ite_keeps rfl (.trans (ite_keeps (raise_pending ..) rfl) (traceLink_pending ..))

@[simp] theorem mailbox_pending (code : Nat) (words : State → List Nat) (s : State) : (mailbox code words s).pending = s.pending :=
  ite_keeps (emit_pending ..) rfl

@[simp] theorem clearEvents_pending (log : MboxLog) (n : Nat) (s : State) : (clearEvents log n s).pending = s.pending := ite_keeps rfl rfl

@[simp] theorem storeShutdown_pending (v : Byte) (s : State) : (storeShutdown v s).pending = s.pending :=
  ite_keeps (formSettings_pending ..) rfl

@[simp] theorem creditStall_pending (k : Credit) (credits : Nat) (s : State) : (creditStall k credits s).pending = s.pending :=
  ite_keeps rfl (ite_keeps (resumeEgress_pending ..) (by
      split
      · rfl
      · exact ite_keeps rfl (raise_pending ..)))

@[simp] theorem serviceStall_pending (fn : Fn) (i : Fin 192) (s : State) : (serviceStall fn i s).pending = s.pending :=
  ite_keeps rfl ((raise_pending ..).trans (modVec_pending ..))

@[simp] theorem holStall_pending (k : Credit) (s : State) : (holStall k s).pending = s.pending := by
  unfold holStall
  dsimp only
  (repeat' split) <;> simp

@[simp] theorem tokenRefill_pending (s : State) : (tokenRefill s).pending = s.pending := by
  unfold tokenRefill
  split <;> simp

/-! ### The queue is kept: every command -/

/-- Every arm is `act` of a function that keeps the queue; emptying `out` before it touches the queue as little. -/
theorem exec_pending (c : Instr) (s : State) : ∃ t, exec c s = .next t ∧ t.pending = s.pending := by
  cases c with
  | pcFlushRead scope => cases scope <;> exact ⟨_, rfl, by simp⟩
  | fence scope => cases scope <;> exact ⟨_, rfl, by simp⟩
  | tnModeWrite | spDataAccess => exact ⟨_, rfl, by split <;> simp⟩
  | perstNRelease | perstNAssertion | pfailNFall | drainEnd | pfailNRise | lossOfLock | referenceReturn
  | railOutOfRange | thermalTrip | vbatLow | ksBootScan | bootEnd | replayEntry | ledgerReconcile | replayEnd
  | replayLate | replayInhibitTimeout | bootTestTimeout | quietEn | standby | disarm | standbyEntry
  | standbyArmTimeout | hibernate | wake | wakeAlarm | hostRead | hostWrite | ingressMove | lineAdmission
  | zeroLengthRead | flushCompletion | flushTimeout | gpfPhase1 | gpfPhase2 | configRequest | hotReset
  | pfFlr | vfFlr | vfEnable | unsupportedRequest | vendorDefinedMessage | identifyMemoryDevice
  | getPartitionInfo | getHealthInfo | setShutdownState | getEventRecords | clearEventRecords
  | getSupportedLogs | getLog | mailboxUnsupported | completionTimeout | hlCreditStall | hostServiceStall
  | holStall | energyRecompute | writeBack | lineWrite | trySenseResult | correctionRewrite | poisonRewrite
  | gapMove | scrub | scrubNow | scrubPause | injectionArm | writeInhibit | inhibitClear | fieldHoldEntry
  | fieldRepeat | prsntNFall | debounceEnd | supervisorReady | authTimeout | linkTraining | headerClassify
  | prsntNOpen | release | releaseComplete | reauth | svSoft | svSoftTimeout | supervisorPassthrough | idRead
  | auth | wearRead | wearCharge | expoRead | clockSync | sensorRead | indicator | alertRead | fieldTest
  | powerNotice | supervisorPoll | svTimeout | supervisorRetry | svalert | exposureSecond | flitLcrcError
  | linkIdleTimeout | retrainEnd | migratePacer | duetAbort | cut | formatDone | tnModePersist | tokenRefill
  | csStage | digestRecompute | countersign | withdraw | windowLapse | secretCommit | metronomeTick
  | disciplineInterval | secondBoundary | minuteTick | ledgerWrite | frameSealed | timeSync
  | lgConsumedSeqWrite | latch | start | fermata | pauseReached | resume | abort | kick | doorbell
  | swRequest | gpioRequest | descriptorFetch | burstOpen | beatRead | beatWrite | barrierReached | coda
  | busError | ksWdata | ksRdata | commit | discard | ksBufExpired | pageWriteStart | pageWriteDone | spPoll
  | spWriteFrame | spReadFrame | spModeChange | masterTransaction | masterTransactionEnd | stretchTimeout
  | flushTx | flushRx | evPop | evRdSeqWrite | evEntryLatch | evRouteWrite | evTraceMark | evTraceSelWrite
  | traceDataFetch | twEvPop | twEvEntryLatch | eventLogWrite | msixMessage | traceSpill | run | testEntry
  | stop | exit | testStart | sramBist | clkMetro | holdup | vholdCmp | temp | phyLb | mlLb | mramRef | wdrv
  | mag | array | remeasure | writebackAll | apertureWrite | readClear | registerWrite | hostLinkUp
  | shortDrain | lossOfVbat | startFromOff | unexpectedCompletion => exact ⟨_, rfl, by simp⟩

/-- Settles O4: every command answers one next state, and `exec_pending` says that it has the queue of the state before. -/
theorem commandsLeaveTheQueue : Obligations.CommandsLeaveTheQueue := by
  intro c s t ht
  obtain ⟨u, hu, hpending⟩ := exec_pending c s
  rw [hu] at ht
  cases ht
  exact hpending

end Sys2Proof.Machine

namespace Sys2Proof.Machine

/-! ### The books of tags under an early stamp (R51, R55)

A class's reservation is judged together with the tags returned in the present cycle (R51). A read is judged before it asks for its tag, and
a cycle may pass at the arbiter until it takes it (log 121). The books say nothing of the cycles that returns are stamped with: one
stamped with the cycle to come is met by the taking and not by the judgement. -/

/-- All 64 shared tags that a context may hold are the provider's, and one tag of HRD's reservation is left. -/
def oneReadTagLeft : List Tag :=
  List.replicate 64 ⟨0, .dma, true, provider⟩ ++ List.replicate 127 ⟨1, .hrd, false, provider⟩

/-- ACTIVE, with an I/O request of the PF in front and no host credits for its completion. The tag arbiter has granted in this cycle,
and the last tag of HRD's reservation is stamped as returned in the next one. -/
def returnStampedAhead : State :=
  { State.reset with
    pw := { State.reset.pw with state := .active }
    hl := { State.reset.hl with noCredit := Vector.replicate 3 (some (0, false)) }
    gl := { State.reset.gl with
      tags := oneReadTagLeft, relTags := [(1, ⟨2, .hrd, false, provider⟩)], arbTag := { granted := some 0 } }
    pending := [.unsupportedRequest .pf .io] }

theorem returnStampedAhead_balances : BooksBalance returnStampedAhead := by decide +kernel

/-- The reservation has a tag at the judgement and none at the taking, so the read takes the provider's 65th shared tag. -/
theorem step_returnStampedAhead : ∃ t, step returnStampedAhead = .next t ∧ sharedOf t provider = 65 :=
  ⟨_, rfl, by decide +kernel⟩

/-- Refutes O7, by its first clause: a tag's return stamped with the next cycle, which the books allow, leaves the provider context with 65
shared tags. (The model's own returns are stamped with the present cycle, so this state shows that the books alone are not inductive.) -/
theorem not_stepKeepsTheBooks : ¬ Obligations.StepKeepsTheBooks := by
  rintro ⟨hstep, -⟩
  obtain ⟨t, ht, hshared⟩ := step_returnStampedAhead
  obtain ⟨⟨-, -, hbook⟩, -⟩ := hstep _ t returnStampedAhead_balances ht
  have hlimit := hbook provider
  rw [hshared] at hlimit
  exact absurd hlimit (by decide)

end Sys2Proof.Machine

namespace Sys2Proof.Machine

/-! ### Fences (R58) -/

theorem fenceAll_fences (s : State) (c : Ctx) : (fenceAll s).gl.fences[c] = s.gl.fences[c] + 1 := by
  simp [fenceAll, mapV]

theorem fenceCtx_fences (d : Ctx) (s : State) (c : Ctx) :
    (fenceCtx d s).gl.fences[c] = s.gl.fences[c] + (if c.val = d.val then 1 else 0) := by
  by_cases h : c.val = d.val
  · simp [fenceCtx, modAt, h]
  · have hne : d.val ≠ c.val := fun e => h e.symm
    simp [fenceCtx, modAt, h, hne]

/-- Whatever word and byte enables, a GL_FENCE write that the engine takes is a fence of every context. -/
theorem writeAt_fence {ch : Chan} {be : BitVec 4} {v : Word} {s : State} (h : MayWrite ch 0x0050 s) :
    writeAt ch 0x0050 be v s = fenceAll s := by
  have hj : judgeWrite ch .gl 0x0050 (tnIndex s ch) be v s = .taken (fenceAll s) := judge_taken (by simp [h.1.2.1]) _
  exact writeAt_taken h rfl (by decide) hj (stageOf_plain rfl)

/-- Over BAR0 an offset below the G5 window names the register of that word, as a command does. -/
theorem writeHere_bar0 {off : Nat} {be : BitVec 4} {v : Word} {s : State} (hw : off / 4 * 4 = off) (hl : off < 0x8000) :
    writeHere .bar0 off be v s = writeAt .bar0 off be v s := by
  have hop : regOp .bar0 off = some { off := off } := by simp [regOp, hw, hl]
  have hch : ¬ 0x8000 ≤ off := by omega
  simp [writeHere, writeAt, writeBus, hop, cmdOp, hch]

/-- A tenant window's fence, while no entry to HIBERNATE refuses it (R58, R323). -/
theorem writeWindow_fence {n : Fin 128} {v : Word} {s : State} (h : s.pw.entering = false) :
    writeWindow n 0x010 v s = fenceCtx (ofTenant n) s := by
  simp [writeWindow, h]

theorem Serves.reaches_bar0 {s : State} (h : Serves s) : reaches s .bar0 = true :=
  MayWrite.reaches (off := 0) ⟨h, .inl rfl⟩

/-- A host write behind a fence is held back by an earlier media write of its context with lines not admitted (R58, Table 2.4). -/
theorem heldBack_fence {s : State} {q r : Req} (line : Nat) (hq : q ∈ s.gl.ingress) (hid : q.id < r.id) (hw : q.write = true)
    (hk : q.kind = .media) (hp : q.parts ≠ []) (hc : q.ctx = r.ctx) (hf : q.fence < r.fence) : heldBack s r line = true := by
  have hahead : hostAhead s (fun q => decide (q.id < r.id)) r.ctx r.fence line = true :=
    List.any_eq_true.mpr ⟨q, hq, by simp [hid, hk, hw, hp, hc, hf]⟩
  simp [heldBack, hahead]

theorem writeDue_heldBack {s : State} {r : Req} (h : ∀ line, heldBack s r line = true) : writeDue s r = false := by
  unfold writeDue
  split <;> simp [h]

/-- Nothing of a request is admitted that is not due. -/
theorem admitLine_notDue {s : State} {r : Req} (hfind : s.gl.ingress.find? (fun q => q.id = r.id) = some r)
    (h : writeDue s r = false) : admitLine r.id s = s := by
  simp only [admitLine, hfind]
  split
  · rfl
  · simp [h]

/-- Settles O26: each FENCE counts up its contexts' fences, and a write that an earlier fence holds back is not due. -/
theorem fencesOrderContexts : Obligations.FencesOrderContexts := by
  refine ⟨?_, ?_, ?_, ?_, ?_⟩
  · intro s h
    exact ⟨_, congrArg Host.Outcome.next (writeAt_fence (s := { s with out := [] }) h),
      fenceAll_fences { s with out := [] }, rfl⟩
  · intro s h
    exact ⟨_, congrArg Host.Outcome.next (writeAt_fence (s := { s with out := [] }) h),
      fenceAll_fences { s with out := [] }, rfl⟩
  · intro s be v h
    exact congrArg Host.Outcome.next ((writeHere_bar0 (off := 0x0050) rfl (by decide)).trans
      ((writeAt_fence (s := { s with out := [] }) h).trans (writeAt_fence (s := { s with out := [] }) h).symm))
  · intro s n h
    have hr : reaches { s with out := [] } .bar0 = true := h.reaches_bar0
    have hf : guarded (reaches { s with out := [] } .bar0) (writeWindow n 0x010 1) { s with out := [] } =
        fenceCtx (ofTenant n) { s with out := [] } :=
      (if_pos hr).trans (writeWindow_fence (s := { s with out := [] }) h.2.2)
    exact ⟨_, congrArg Host.Outcome.next hf, fenceCtx_fences (ofTenant n) { s with out := [] }, rfl⟩
  · intro s q r hi hid hqw hrw hk hp hc hf
    have hfind : s.gl.ingress.find? (fun p => p.id = r.id) = some r := by simp [hi, hid.ne]
    have hdue : writeDue { s with out := [] } r = false :=
      writeDue_heldBack fun line => heldBack_fence (s := { s with out := [] }) line (by simp [hi]) hid hqw hk hp hc hf
    have hline : lineAdmission r.id { s with out := [] } = { s with out := [] } := by
      rw [lineAdmission, admitLine_notDue (s := { s with out := [] }) hfind hdue]
      exact serveReads_writes (by simp [hi, hqw, hrw])
    exact ⟨_, congrArg (fun t => Host.Outcome.next (noteHol t)) hline, rfl, rfl, rfl, rfl⟩

end Sys2Proof.Machine

namespace Sys2Proof.Machine

/-! ### A host read's way through the pipeline (R53, R61, R141) -/

/-- What staging, shares, tags and tokens leave: everything but the time, GL and the contexts, which keep their keys. -/
def Piped (s t : State) : Prop := t = { s with now := t.now, gl := t.gl, tn := t.tn } ∧ ∀ c, (t.tenant c).keyNo = (s.tenant c).keyNo

theorem Piped.refl (s : State) : Piped s s := ⟨rfl, fun _ => rfl⟩

theorem Piped.trans {s t u : State} (h : Piped s t) (k : Piped t u) : Piped s u :=
  ⟨by rw [k.1, h.1], fun c => (k.2 c).trans (h.2 c)⟩

theorem Piped.exists {s t : State} (h : Piped s t) : ∃ n g tn, t = { s with now := n, gl := g, tn := tn } := ⟨_, _, _, h.1⟩

theorem Arbitrated.piped {s t : State} (h : Arbitrated s t) : Piped s t := by
  obtain ⟨-, -, -, -, htn, -⟩ := h.same
  exact ⟨h.eq.trans (by rw [htn]), fun c => congrArg (fun u : Tn => u.ctx[c].keyNo) htn⟩

theorem piped_gl (s : State) (g : Gl) : Piped s { s with gl := g } := ⟨rfl, fun _ => rfl⟩

theorem register_piped (r : Req) (s : State) : Piped s (register r s) := piped_gl s _

theorem piped_modTenant {c : Ctx} {f : Tenant → Tenant} (s : State) (hf : ∀ t, (f t).keyNo = t.keyNo) : Piped s (modTenant c f s) := by
  refine ⟨rfl, fun d => ?_⟩
  by_cases h : d = c
  · subst h; rw [modTenant_tenant, hf]
  · rw [modTenant_tenant_ne _ _ _ _ h]

theorem freeShare_piped (c : Ctx) (s : State) : Piped s (freeShare c s) := piped_modTenant s fun _ => rfl

theorem spendTokens_piped (c : Ctx) (k : Nat) (s : State) : Piped s (spendTokens c k s) :=
  piped_modTenant s fun t => by split <;> rfl

theorem removeReq_alone {q : Req} {s : State} (hi : s.gl.ingress = [q]) (hst : q.stage = .share) (htag : q.tag = none) :
    removeReq q.id s = { freeShare q.ctx s with gl := { s.gl with ingress := [] } } := by
  simp [removeReq, hi, hst, htag, freeEntry, dropTag?]

/-- A read alone in staging moves into its share (R61). -/
theorem toShare_alone {r : Req} {s : State} (hi : s.gl.ingress = [r]) (hst : r.stage = .staging) (hw : r.write = false) :
    ∃ g, toShare r s = { s with gl := g } ∧ g.ingress = [{ r with stage := .share }] :=
  ⟨{ s.gl with relNonPosted := s.gl.relNonPosted.add s.now 1, ingress := [{ r with stage := .share }] },
    by simp [toShare, hst, hw, freeStaging, modReq, hi, update], rfl⟩

/-- A read alone in staging takes a share entry and its tag, and leaves the pipeline empty (R53, R61). -/
theorem acceptRead_alone {r : Req} {s : State} (hi : s.gl.ingress = [r]) (hst : r.stage = .staging) (hw : r.write = false)
    (htag : r.tag = none) (ho : MinuteOpen s) : Piped s (acceptRead r s).1 ∧ (acceptRead r s).1.gl.ingress = [] := by
  obtain ⟨g, hshare, hg⟩ := toShare_alone hi hst hw
  have hask : Piped s (askTag .hrd { s with gl := g }) :=
    (piped_gl s g).trans (askTag_later (s := { s with gl := g }) .hrd ho).1.piped
  have hing : (askTag .hrd { s with gl := g }).gl.ingress = [{ r with stage := .share }] := (askTag_ingress _ _).trans hg
  have hacc : (acceptRead r s).1 = takeTag .hrd r.ctx (removeReq r.id (askTag .hrd { s with gl := g })) := by rw [← hshare]; rfl
  rw [hacc, removeReq_alone hing rfl htag]
  exact ⟨(hask.trans (freeShare_piped _ _)).trans (piped_gl _ _), rfl⟩

/-- A read registered alone is served at once where it can be served. -/
theorem serveReads_alone {r : Req} {s : State} (hi : s.gl.ingress = [r]) (h : canServe s r = true) : serveReads s = serve r s := by
  simp [serveReads, hi, h]

@[simp] theorem send_ingress (o : Out) (tag : Option Nat) (s : State) : (send o tag s).gl.ingress = s.gl.ingress := by
  have hd : ∀ t : State, (dropTag? tag t).gl.ingress = t.gl.ingress := fun t => by cases tag <;> rfl
  unfold send
  (repeat' split) <;> simp [hd]

/-! ### One line of a read -/

theorem linesOf_one {off len : Nat} (h : 0 < len) (hl : off % 64 + len ≤ 64) : linesOf off len = [off / 64] := by
  have h1 : (off + len + 63) / 64 - off / 64 = 1 := by omega
  simp [linesOf, h1]

theorem lines_one {r : Req} (h : 0 < r.len) (hl : r.off % 64 + r.len ≤ 64) : r.lines = 1 := by
  have h1 : (r.off + r.len - 1) / 64 - r.off / 64 = 0 := by omega
  simp [Req.lines, h.ne', h1]

/-- A media read of one line that has its tag: its tokens are taken and it is counted (R141, Table 6.1). -/
def readCounted (r : Req) (s : State) : State := count r.ctx addRead (if r.unlimited then s else spendTokens r.ctx 1 s)

/-- A read of one line that gives its data completes with its bytes (R235). -/
theorem serveMedia_line {r : Req} {tag : Nat} {s u : State} {d : Line} (h : 0 < r.len) (hl : r.off % 64 + r.len ≤ 64)
    (hr : readLine r.ctx (r.off / 64) (r.base + r.off / 64) (r.sense.head?.getD {})
      (askLine (readCounted r s) (r.base + r.off / 64)) = (u, some d)) :
    serveMedia r tag s = send (.completion r.fn .sc false (((lineBytes d).drop (r.off % 64)).take r.len)) (some tag) u := by
  have hread : readLines r.ctx r.base (linesOf r.off r.len) r.sense (readCounted r s) = (u, [some d]) := by
    simp only [linesOf_one h hl, readLines, hr]
  have hserve : serveMedia r tag s = sendAll (some tag) ((joinPieces (pieces r.off r.len
      (readLines r.ctx r.base (linesOf r.off r.len) r.sense (readCounted r s)).2)).map fun p => Out.completion r.fn .sc p.1 p.2)
      (readLines r.ctx r.base (linesOf r.off r.len) r.sense (readCounted r s)).1 := by
    unfold serveMedia
    rw [lines_one h hl]
    rfl
  have hmin : min r.len (64 - r.off % 64) = r.len := by omega
  rw [hserve, hread]
  simp [pieces, joinPieces, sendAll, hmin]

/-! ### The reads that nothing holds back -/

/-- A read alone that gives no media's data is served with a share entry and a tag free (R53, R61). -/
theorem canServe_unsup {s : State} {r : Req} (hi : s.gl.ingress = [r]) (hk : r.kind = .unsup) (hw : r.write = false)
    (hs : shareFree s r.ctx = true) (ht : tagFree s .hrd r.ctx = true) : canServe s r = true := by
  simp [canServe, readDue, waitsForWrites, hi, hk, hw, hs, ht]

/-- A read alone of one media line is served once its tokens are there and no write of its line waits (R141, Table 2.4). -/
theorem canServe_media {s : State} {r : Req} {line : Nat} (hi : s.gl.ingress = [r]) (hk : r.kind = .media) (hw : r.write = false)
    (hs : shareFree s r.ctx = true) (ht : tagFree s .hrd r.ctx = true) (hm : r.media = [line])
    (hb : ∀ e ∈ mediaBeats s, e.2.2.line ≠ line) (htok : reqTokens s r r.lines = true) (he : s.pw.entering = false)
    (hr : lineReady s line = true) : canServe s r = true := by
  have hahead : writeAhead s r = false := by
    simp only [writeAhead, hi, hm, List.any_cons, List.any_nil, Bool.or_false, Nat.lt_irrefl, decide_false, Bool.false_and,
      Bool.false_or, List.any_eq_false, Bool.and_eq_true, decide_eq_true_eq, not_and]
    exact fun e hmem _ => hb e hmem
  simp [canServe, readDue, waitsForWrites, hi, hk, hw, hs, ht, hahead, htok, he, hm, hr]

/-- A line whose dirty slot holds all of it can be read at once (Table 2.4). -/
theorem lineReady_whole {s : State} {line : Nat} {h : HoldSlot} (hd : dirtyOf s line = some h) (hm : h.mask = fullMask) :
    lineReady s line = true := by
  unfold lineReady
  rw [hd]
  cases readHome s line <;> simp [hm]

/-- No beat of a line that no write waits for is on its way to it. -/
theorem mediaBeats_ne {s : State} {line : Nat} (h : writeWaits s line = false) : ∀ e ∈ mediaBeats s, e.2.2.line ≠ line := by
  simp only [writeWaits, Bool.or_eq_false_iff, List.any_eq_false, decide_eq_true_eq] at h
  exact h.2

/-- A request of a read as it stands in staging. -/
def stagedRead (t : Tlp) (k : ReqKind) (c : Ctx) (off : Nat) (s : State) : Req :=
  { newReq t k c off [] [] s with id := s.gl.nextReq, cycle := s.now }

theorem register_alone (t : Tlp) (k : ReqKind) (c : Ctx) (off : Nat) {s : State} (hi : s.gl.ingress = []) :
    (register (newReq t k c off [] [] s) s).gl.ingress = [stagedRead t k c off s] := by
  simp [register, hi, stagedRead]

theorem shareFree_register {r : Req} {s : State} {c : Ctx} (hi : s.gl.ingress = []) (hst : r.stage = .staging) :
    shareFree (register r s) c = shareFree s c :=
  shareFree_congr (by simp [heldBy, register, hi, hst]) rfl rfl

/-! ### A host read of media -/

/-- A host read of media, within its 4 KiB and with a staging entry free, comes to the registration (PCIe). -/
theorem hostRead_media {s : State} {fn : Fn} {bar : Bar} {c : Ctx} {o off len : Nat} (hr : reaches s .bar0 = true)
    (hx : s.hl.effCxl = false) (ht : targetOf s fn bar off = .media c o) (hlen : 0 < len) (hl : o % 4096 + len ≤ 4096)
    (hs : stagingFree s false = true) :
    hostRead fn bar off len [] s = mediaRead ⟨fn, bar, off, len, false, false, false⟩ c o (dpaOf s off) [] s := by
  simp [hostRead, hr, hs, ht, shapeFits, hl, hx, hlen.ne']

/-- A read of one line that is not refused, and that nothing holds back, is granted its way and comes to its line (R57, R141). -/
theorem mediaRead_granted {t : Tlp} {c : Ctx} {o dpa : Nat} {s : State} (hi : s.gl.ingress = []) (hw : t.write = false)
    (hlen : 0 < t.len) (hl : o % 64 + t.len ≤ 64) (href : refusalOf s c false o t.len = none) (hs : shareFree s c = true)
    (htok : (s.judged c).unlimited = true ∨ hasTokens s c 1 = true) (htag : tagFree s .hrd c = true) (he : s.pw.entering = false)
    (ho : MinuteOpen s) (hwait : writeWaits s (lineIn s c 0 + o / 64) = false) (hready : lineReady s (lineIn s c 0 + o / 64) = true) :
    ∃ p tag, Piped (count c addOp s) p ∧ p.gl.ingress = [] ∧ ∀ u d,
      readLine c (o / 64) (lineIn s c 0 + o / 64) {} (askLine (count c addRead p) (lineIn s c 0 + o / 64)) = (u, some d) →
      mediaRead t c o dpa [] s =
        noteHol (send (.completion t.fn .sc false (((lineBytes d).drop (o % 64)).take t.len)) (some tag) u) := by
  have hreg := register_alone t .media c o (s := count c addOp s) hi
  have hlines : (stagedRead t .media c o (count c addOp s)).lines = 1 := lines_one hlen hl
  have hmedia : (stagedRead t .media c o (count c addOp s)).media = [lineIn s c 0 + o / 64] :=
    congrArg (List.map fun l => lineIn s c 0 + l) (linesOf_one hlen hl)
  have htokens : reqTokens (register (newReq t .media c o [] [] (count c addOp s)) (count c addOp s))
      (stagedRead t .media c o (count c addOp s)) (stagedRead t .media c o (count c addOp s)).lines = true := by
    rw [hlines]
    exact Bool.or_eq_true_iff.mpr htok
  have hserve := serveReads_alone hreg (canServe_media hreg rfl hw
    ((shareFree_register (s := count c addOp s) hi rfl).trans hs) htag hmedia (mediaBeats_ne (s := s) hwait) htokens he hready)
  obtain ⟨hp, hpi⟩ := acceptRead_alone hreg rfl hw rfl ho
  generalize hacc : acceptRead (stagedRead t .media c o (count c addOp s))
    (register (newReq t .media c o [] [] (count c addOp s)) (count c addOp s)) = a at hp hpi
  refine ⟨if (s.judged c).unlimited then a.1 else spendTokens c 1 a.1, a.2, ?_, ?_, fun u d hread => ?_⟩
  · refine ((register_piped _ _).trans hp).trans ?_
    split
    · exact Piped.refl _
    · exact spendTokens_piped _ _ _
  · split
    · exact hpi
    · rw [spendTokens_gl]; exact hpi
  · have hline := serveMedia_line (r := stagedRead t .media c o (count c addOp s)) (tag := a.2) (s := a.1) (u := u) (d := d) hlen hl hread
    have hm : mediaRead t c o dpa [] s =
        serveReads (register (newReq t .media c o [] [] (count c addOp s)) (count c addOp s)) := by
      simp only [mediaRead, refusalOf_count, href]
    rw [hm, hserve, serve, hacc]
    exact congrArg noteHol hline

theorem LinkOpen.congr {s t : State} (h : LinkOpen s) (hh : t.hl = s.hl) (he : t.egress = s.egress)
    (hg : t.lg.closing = s.lg.closing) : LinkOpen t :=
  ⟨fun k => by rw [hasCredit, hh]; exact h.1 k, he.trans h.2.1, hg.trans h.2.2⟩

/-- A whole dirty line is read from its slot, with no bank asked (R119, Table 2.4). -/
theorem readLine_whole {c : Ctx} {off line : Nat} {e : Sense} {s : State} {h : HoldSlot} (hd : dirtyOf s line = some h)
    (hm : h.mask = fullMask) (hp : h.poison = false) : readLine c off line e (askLine s line) = (s, some h.data) := by
  have hask : askLine s line = s := by
    unfold askLine
    rw [hd]
    cases readHome s line <;> simp [hm]
  simp [hask, readLine, hd, hm, hp]

/-- A line without a wrong bit decodes as it was written (R115, R116). -/
theorem readLineCells_clean {l : StoredLine} (he : l.err = 0) (hv : l.version = 1) : readLineCells l {} = .good 0 0 := by
  simp [readLineCells, readOnce, senseOnce, he, StoredLine.seen, hv]

/-- A sense of a clean line, with no injection armed, leaves the bank's and the link's use alone (R48, R69). -/
theorem senseLine_clean {x : Slot} {n off : Nat} {c : Ctx} {s : State} (hj : s.md.injArmed = false)
    (he : (lineOn s x n).err = 0) (hv : (lineOn s x n).version = 1) :
    senseLine x n c off {} s = (touchBank x n s, .good 0 0) := by
  have hi : injNames s x n = false := by simp [injNames, hj]
  simp only [senseLine, injected, disarmRead, hi, Bool.false_and, Bool.false_eq_true, if_false, readLineCells_clean he hv]

/-- A good line of media is read under the key and at the address that it was written with (R117, R145). -/
theorem readMedia_good {c : Ctx} {off n : Nat} {x : Slot} {s : State} (hj : s.md.injArmed = false)
    (herr : (lineOn s x n).err = 0) (hver : (lineOn s x n).version = 1) (hpois : (lineOn s x n).poison = false)
    (hfresh : (lineOn s x n).fresh = false) (hctx : (lineOn s x n).keyCtx = c.val)
    (hkey : (lineOn s x n).keyGen = (s.tenant c).keyNo) (htw : (lineOn s x n).tweak = off) :
    ∃ g ct, readMedia x n c off {} s = ({ s with gl := g, ct := ct }, some (lineOn s x n).data) := by
  obtain ⟨g, ct, ht⟩ := touchBank_shape x n s
  have hi : injPoison s x n = false := by simp [injPoison, injNames, hj]
  have hplain : plain { s with gl := g, ct := ct } ((lineOn s x n).seen 0) c off = (lineOn s x n).data := by
    simp [plain, StoredLine.seen, hfresh, hctx, hkey, htw, State.tenant]
  refine ⟨g, ct, ?_⟩
  simp only [readMedia, senseLine_clean hj herr hver, hi, ht, hplain]
  simp [StoredLine.seen, hpois]

/-- With no dirty slot a line is read from its home, after its bank's grant (R94, Table 2.5). -/
theorem readLine_media {c : Ctx} {off line n : Nat} {x : Slot} {s : State} (ho : MinuteOpen s) (hd : dirtyOf s line = none)
    (hh : readHome s line = some (x, n)) :
    ∃ m g, readLine c off line {} (askLine s line) = readMedia x n c off {} { s with now := m, gl := g } := by
  have harb : Arbitrated s (askBank bkRead s (x, n)) := arbitrate_arbitrated _ _ _ ho
  obtain ⟨m, g, hask⟩ : ∃ m g, askLine s line = { s with now := m, gl := g } :=
    ⟨_, _, Eq.trans (by simp only [askLine, hd, hh]) harb.eq⟩
  have hd' : dirtyOf { s with now := m, gl := g } line = none := hd
  have hh' : readHome { s with now := m, gl := g } line = some (x, n) := hh
  refine ⟨m, g, ?_⟩
  rw [hask]
  simp only [readLine, hd', hh']

/-! ### What a completed read leaves -/

@[simp] theorem noteHol_out (s : State) : (noteHol s).out = s.out := rfl
@[simp] theorem noteHol_ingress (s : State) : (noteHol s).gl.ingress = s.gl.ingress := rfl
@[simp] theorem noteHol_lg (s : State) : (noteHol s).lg = s.lg := rfl
@[simp] theorem noteHol_pc (s : State) : (noteHol s).pc = s.pc := rfl
@[simp] theorem noteHol_md (s : State) : (noteHol s).md = s.md := rfl
@[simp] theorem noteHol_ct (s : State) : (noteHol s).ct = s.ct := rfl
@[simp] theorem noteHol_hl (s : State) : (noteHol s).hl = s.hl := rfl

theorem send_open_kept {o : Out} {k : Credit} (tag : Option Nat) {s : State} (h : LinkOpen s) (hk : o.credit = some k) :
    (send o tag s).out = s.out ++ [o] ∧ (send o tag s).lg = s.lg := by
  obtain ⟨n, g, he⟩ := send_open tag h hk
  rw [he]
  exact ⟨rfl, rfl⟩

/-- A read whose line is read goes out as its output, counted in OPS and READ; the hold buffer and the media unit are as they were. -/
theorem completedRead {c : Ctx} {o : Out} {k : Credit} {s p u : State} (tag : Option Nat) (h : LinkOpen s) (hk : o.credit = some k)
    (hp : Piped (count c addOp s) p) (hu : ∃ m g ct, u = { count c addRead p with now := m, gl := g, ct := ct }) :
    (send o tag u).out = s.out ++ [o] ∧ (send o tag u).lg.live[c].read = s.lg.live[c].read + 1 ∧
    (send o tag u).lg.live[c].ops = s.lg.live[c].ops + 1 ∧ (send o tag u).pc = s.pc ∧ (send o tag u).md = s.md := by
  obtain ⟨m, g, ct, rfl⟩ := hu
  have hlg : p.lg = (count c addOp s).lg := (congrArg State.lg hp.1 :)
  have hlive : (count c addRead p).lg.live[c] = addRead (addOp s.lg.live[c]) := by
    rw [count_live, hlg, count_live]
  have hopen : LinkOpen { count c addRead p with now := m, gl := g, ct := ct } :=
    h.congr (congrArg State.hl hp.1 :) (congrArg State.egress hp.1 :) (congrArg Lg.closing hlg :)
  obtain ⟨hout, hkept⟩ := send_open_kept tag hopen hk
  refine ⟨hout.trans (congrArg (· ++ [o]) (congrArg State.out hp.1 :)), ?_, ?_, (send_pc ..).trans (congrArg State.pc hp.1 :),
    (send_md ..).trans (congrArg State.md hp.1 :)⟩
  · rw [hkept]; exact congrArg Counters.read hlive
  · rw [hkept]; exact congrArg Counters.ops hlive

/-! ### A refused read -/

/-- HL's record of a refused PCIe read (R234, Table 8.14). -/
def refusedReadHl (fn : Fn) (c : Ctx) (code : BitVec 8) (off : Nat) (h : Hl) : Hl :=
  { h with
    refValid := true, refWrite := false, refCode := code, refCtx := ctxByte c, refFn := BitVec.ofNat 8 fn.num
    refOff := BitVec.ofNat 64 off, refCount := h.refCount + 1 }

/-- A refused PCIe read is recorded and counted, and the function signals it (R234). -/
theorem noteRefusal_read {t : Tlp} {c : Ctx} {code : BitVec 8} {off dpa : Nat} {s : State} (hx : s.hl.effCxl = false)
    (hw : t.write = false) :
    ∃ a v, noteRefusal t (some c) code off dpa s =
      { count c addRefused s with hl := { refusedReadHl t.fn c code off s.hl with pfAer := a, vfAer := v } } := by
  have hn : noteRefusal t (some c) code off dpa s =
      signalUr t { count c addRefused s with hl := refusedReadHl t.fn c code off s.hl } := by
    simp [noteRefusal, hx, hw, recordRefusal, refusedReadHl, count, modLive]
  obtain ⟨a, v, hs⟩ := modAer_shape t.fn (fun a => logHeader t { a with unsupported := true })
    { count c addRefused s with hl := refusedReadHl t.fn c code off s.hl }
  exact ⟨a, v, hn.trans hs⟩

/-- A read registered alone that ends as an Unsupported Request completes so (R234). -/
theorem unsupRead_completes {t : Tlp} {c : Ctx} {o : Nat} {s : State} (hi : s.gl.ingress = []) (hw : t.write = false)
    (hs : shareFree s c = true) (htag : tagFree s .hrd c = true) (ho : MinuteOpen s) :
    ∃ p tag, Piped s p ∧ serveReads (register (newReq t .unsup c o [] [] s) s) =
      noteHol (send (.completion t.fn .ur false []) (some tag) p) := by
  have hreg := register_alone t .unsup c o hi
  have hserve := canServe_unsup hreg rfl hw ((shareFree_register hi rfl).trans hs) htag
  exact ⟨_, _, (register_piped _ s).trans (acceptRead_alone hreg rfl hw rfl ho).1, serveReads_alone hreg hserve⟩

/-- A refused read of media is recorded, and completes as an Unsupported Request (R234, Table 8.5). -/
theorem mediaRead_refused {t : Tlp} {c : Ctx} {o dpa : Nat} {s : State} {code : BitVec 8} (hi : s.gl.ingress = [])
    (hx : s.hl.effCxl = false) (hw : t.write = false) (href : refusalOf s c false o t.len = some code)
    (hs : shareFree s c = true) (htag : tagFree s .hrd c = true) (ho : MinuteOpen s) :
    ∃ a v p tag,
      Piped { count c addRefused (count c addOp s) with hl := { refusedReadHl t.fn c code o s.hl with pfAer := a, vfAer := v } } p ∧
      mediaRead t c o dpa [] s = noteHol (send (.completion t.fn .ur false []) (some tag) p) := by
  obtain ⟨a, v, hn⟩ := noteRefusal_read (t := t) (c := c) (code := code) (off := o) (dpa := dpa) (s := count c addOp s) hx hw
  obtain ⟨p, tag, hp, hserve⟩ := unsupRead_completes (t := t) (c := c) (o := o) (s := { count c addRefused (count c addOp s) with
    hl := { refusedReadHl t.fn c code o s.hl with pfAer := a, vfAer := v } }) hi hw hs htag ho
  refine ⟨a, v, p, tag, hp, Eq.trans ?_ hserve⟩
  have hx' : (noteRefusal t (some c) code o dpa (count c addOp s)).hl.effCxl = false := by rw [hn]; exact hx
  simp only [mediaRead, refusalOf_count, href, hx', Bool.false_eq_true, if_false]
  exact congrArg (fun q => serveReads (register (newReq t .unsup c o [] [] q) q)) hn

/-- Settles O22: the read takes its share entry, its tokens and its tag while the clock runs to its grants, and completes with its
line's data or its refusal. -/
theorem hostReadsReturnTheLine : Obligations.HostReadsReturnTheLine := by
  refine ⟨?_, ?_, ?_⟩
  · intro s fn bar c o off len h hr hx ht hlen hl hi href hsf hs htok htag he hopen hwait hd hm hpois
    have hreg := hostRead_media (s := { s with out := [] }) hr hx ht hlen (by omega) hsf
    obtain ⟨p, tag, hp, hpi, hserved⟩ := mediaRead_granted (t := ⟨fn, bar, off, len, false, false, false⟩)
      (dpa := dpaOf { s with out := [] } off) (s := { s with out := [] }) hi rfl hlen hl href hs htok htag he hopen.2.2 hwait
      (lineReady_whole hd hm)
    have hd' : dirtyOf (count c addRead p) (lineIn s c 0 + o / 64) = some h :=
      (dirtyOf_congr (s := s) (congrArg (fun t : State => t.pc.slots) hp.1 :) _).trans hd
    have hend := hserved _ _ (readLine_whole hd' hm hpois)
    obtain ⟨hout, hread, hops, hpc, hmd⟩ := completedRead (some tag)
      (o := .completion fn .sc false (((lineBytes h.data).drop (o % 64)).take len)) (s := { s with out := [] })
      (u := count c addRead p) hopen rfl hp ⟨p.now, p.gl, p.ct, rfl⟩
    refine ⟨_, congrArg (fun t => Host.Outcome.next (noteHol t)) (hreg.trans hend), ?_⟩
    simp only [noteHol_out, noteHol_ingress, noteHol_lg, noteHol_pc, noteHol_md, noteHol_ct, send_ingress, send_ct]
    exact ⟨hout, hpi, hread, hops, hpc, hmd, (congrArg State.ct hp.1 :)⟩
  · intro s fn bar c o off len x n hr hx ht hlen hl hi href hsf hs htok htag he hopen hwait hready hd hh hj herr hver hpois hfresh hctx
      hkey htw
    have hreg := hostRead_media (s := { s with out := [] }) hr hx ht hlen (by omega) hsf
    obtain ⟨p, tag, hp, -, hserved⟩ := mediaRead_granted (t := ⟨fn, bar, off, len, false, false, false⟩)
      (dpa := dpaOf { s with out := [] } off) (s := { s with out := [] }) hi rfl hlen hl href hs htok htag he hopen.2.2 hwait hready
    obtain ⟨m, g, tn, rfl⟩ := hp.exists
    obtain ⟨m', g', hmedia⟩ := readLine_media (c := c) (off := o / 64) (line := lineIn s c 0 + o / 64)
      (s := count c addRead { count c addOp { s with out := [] } with now := m, gl := g, tn := tn }) hopen.2.2 hd hh
    obtain ⟨g'', ct, hgood⟩ := readMedia_good (c := c) (off := o / 64) (x := x) (n := n)
      (s := { count c addRead { count c addOp { s with out := [] } with now := m, gl := g, tn := tn } with now := m', gl := g' })
      hj herr hver hpois hfresh hctx (hkey.trans (hp.2 c).symm) htw
    have hend := hserved _ _ (hmedia.trans hgood)
    obtain ⟨hout, hread, -, hpc, -⟩ := completedRead (some tag) (k := .completion)
      (o := .completion fn .sc false (((lineBytes (lineOn s x n).data).drop (o % 64)).take len)) (s := { s with out := [] })
      hopen rfl hp ⟨m', g'', ct, rfl⟩
    refine ⟨_, congrArg (fun t => Host.Outcome.next (noteHol t)) (hreg.trans hend), ?_⟩
    simp only [noteHol_out, noteHol_lg, noteHol_pc]
    exact ⟨hout, hread, hpc⟩
  · intro s fn bar c o off len code hr hx ht hlen hl hi href hsf hs htag hopen
    have hreg := hostRead_media (s := { s with out := [] }) hr hx ht hlen hl hsf
    obtain ⟨a, v, p, tag, hp, hend⟩ := mediaRead_refused (t := ⟨fn, bar, off, len, false, false, false⟩)
      (dpa := dpaOf { s with out := [] } off) (s := { s with out := [] }) hi hx rfl href hs htag hopen.2.2
    obtain ⟨m, g, tn, rfl⟩ := hp.exists
    refine ⟨_, congrArg (fun t => Host.Outcome.next (noteHol t)) (hreg.trans hend), ?_⟩
    obtain ⟨hout, hlg⟩ := send_open_kept (o := .completion fn .ur false []) (k := .completion) (some tag)
      (s := { count c addRefused (count c addOp { s with out := [] }) with
        hl := { refusedReadHl fn c code o s.hl with pfAer := a, vfAer := v }, now := m, gl := g, tn := tn }) hopen rfl
    simp only [noteHol_out, noteHol_lg, noteHol_pc, noteHol_ct, noteHol_hl, send_pc, send_ct, send_hl, hlg]
    refine ⟨hout, rfl, rfl, rfl, rfl, rfl, rfl, ?_, rfl, rfl⟩
    exact congrArg Counters.errRefused ((count_live c addRefused (count c addOp { s with out := [] })).trans
      (congrArg addRefused (count_live c addOp { s with out := [] })))

end Sys2Proof.Machine

namespace Sys2Proof.Machine

/-- The state as a command finds it: its ports are empty. -/
def noOut (s : State) : State := { s with out := [] }

/-! ### What leaves the slots alone -/

@[simp] theorem shelf_slot (s : State) (l : List Cart) (x : Slot) : ({ s with shelf := l } : State).slot x = s.slot x := by
  cases x <;> rfl
@[simp] theorem emit_slot (o : Out) (s : State) (x : Slot) : (emit o s).slot x = s.slot x := slot_congr s (emit_ct s o) x
@[simp] theorem nextFree_slot (s : State) (x : Slot) : (nextFree s).slot x = s.slot x := slot_congr s (nextFree_ct s) x
@[simp] theorem raise_slot (u : BitVec 5) (k c : BitVec 8) (d0 d1 d2 : Word) (s : State) (x : Slot) :
    (raise u k c d0 d1 d2 s).slot x = s.slot x := slot_congr s (raise_ct s _ _ _ _ _ _) x
@[simp] theorem raiseSer_slot (y : Slot) (k : BitVec 8) (n : BitVec 64) (s : State) (x : Slot) :
    (raiseSer y k n s).slot x = s.slot x := raise_slot _ _ _ _ _ _ s x

@[simp] theorem raiseF_logOpen (u : BitVec 5) (k c : BitVec 8) (f : BitVec 4) (d0 d1 d2 : Word) (s : State) :
    (raiseF u k c f d0 d1 d2 s).ev.logOpen = s.ev.logOpen := by
  unfold raiseF
  extract_lets e
  split <;> rfl
@[simp] theorem raise_logOpen (u : BitVec 5) (k c : BitVec 8) (d0 d1 d2 : Word) (s : State) :
    (raise u k c d0 d1 d2 s).ev.logOpen = s.ev.logOpen := raiseF_logOpen _ _ _ _ _ _ _ s

theorem raiseSer_mem_intake {x : Slot} {k : BitVec 8} {n : BitVec 64} {s : State} (h : s.ev.logOpen = true) :
    ∃ e ∈ (raiseSer x k n s).ev.intake, e.code = k ∧ e.unit = uCT x := by
  obtain ⟨e, he, hc, hu, -⟩ := raise_mem_intake (u := uCT x) (k := k) (c := noCtx) (d0 := BitVec.ofNat 32 x.num)
    (d1 := n.setWidth 32) (d2 := (n >>> 32).setWidth 32) h
  exact ⟨e, he, hc, hu⟩

/-! ### Insertion up to authentication (R90, R73, R79, R80) -/

/-- An inhibit registered leaves the slots and the log alone (R127). -/
theorem registerInhibit_ct (x : Slot) (n : Nat) (s : State) : (registerInhibit x n s).ct = s.ct := by
  cases x <;> exact (apply_ite State.ct _ s _).trans (ite_self s.ct)
theorem registerInhibit_ev (x : Slot) (n : Nat) (s : State) : (registerInhibit x n s).ev = s.ev := by
  cases x <;> exact (apply_ite State.ev _ s _).trans (ite_self s.ev)

@[simp] theorem sampleField_slot (x y : Slot) (s : State) : (sampleField x s).slot y = s.slot y := by
  unfold sampleField
  split
  · exact slot_congr s (registerInhibit_ct ..) y
  · rfl
@[simp] theorem sampleField_ev (x : Slot) (s : State) : (sampleField x s).ev = s.ev := by
  unfold sampleField
  split
  · exact registerInhibit_ev ..
  · rfl

/-- A slot whose presence has fallen (R90, step I1). -/
def debouncing (c : Cart) (n : Nat) (t : CtSlot) : CtSlot :=
  { emptySlot t with state := .debounce, cart := some c, fallAt := n, wasFailed := decide (t.state = .failed) }

/-- A cartridge that comes into an EMPTY slot is debounced (R90, step I1). -/
theorem presenceFall_empty {x : Slot} {card : Card} {c : Cart} {l : List Cart} {s : State} (hc : (s.slot x).cart = none)
    (hs : (s.slot x).state = .empty) (ht : takeCard s card = some (c, l)) :
    presenceFall x card s = modSlot x (debouncing c s.now) { s with shelf := l } := by
  simp only [presenceFall, hc, hs, ht]
  rfl

theorem presenceFall_effect {x : Slot} {card : Card} {c : Cart} {l : List Cart} {s : State} (hc : (s.slot x).cart = none)
    (hs : (s.slot x).state = .empty) (ht : takeCard s card = some (c, l)) :
    (presenceFall x card s).slot x = debouncing c s.now (s.slot x) ∧ (presenceFall x card s).slot x.other = s.slot x.other ∧
    (presenceFall x card s).shelf = l ∧ (presenceFall x card s).ev = s.ev := by
  rw [presenceFall_empty hc hs ht]
  exact ⟨(modSlot_slot ..).trans (congrArg _ (shelf_slot ..)), (modSlot_slot_other ..).trans (shelf_slot ..), modSlot_shelf ..,
    modSlot_ev ..⟩

/-- A slot whose cartridge is seated (R90, step I2). -/
def seatedSlot (t : CtSlot) : CtSlot := { t with state := .powering, present := true, typeCode := 0xF, pwren := true }

theorem debounceEnd_due {x : Slot} {s : State} (hs : (s.slot x).state = .debounce) (hn : (s.slot x).fallAt + 10 * ms ≤ s.now)
    (hc : s.pw.state.clocked = true) :
    debounceEnd x s = sampleField x (raiseSer x cCART_SEATED 0 (modSlot x seatedSlot s)) :=
  if_neg (by simp [hs, hc, Nat.not_lt.mpr hn])

/-- What the end of the debounce leaves (R90, step I2). -/
theorem debounceEnd_effect {x : Slot} {s : State} (hs : (s.slot x).state = .debounce) (hn : (s.slot x).fallAt + 10 * ms ≤ s.now)
    (hc : s.pw.state.clocked = true) (hl : s.ev.logOpen = true) :
    (debounceEnd x s).slot x = seatedSlot (s.slot x) ∧ (debounceEnd x s).slot x.other = s.slot x.other ∧
    ∃ e ∈ (debounceEnd x s).ev.intake, e.code = cCART_SEATED ∧ e.unit = uCT x := by
  rw [debounceEnd_due hs hn hc]
  simp only [sampleField_slot, sampleField_ev, raiseSer_slot, modSlot_slot, modSlot_slot_other, true_and]
  exact raiseSer_mem_intake ((congrArg Ev.logOpen (modSlot_ev ..)).trans hl)

theorem debounceEnd_early {x : Slot} {s : State} (hn : s.now < (s.slot x).fallAt + 10 * ms) : debounceEnd x s = s :=
  if_pos (.inr (.inl hn))

/-- A slot whose supervisor is ready: authentication starts (R73, R90). -/
def readySlot (n : Nat) (t : CtSlot) : CtSlot :=
  { t with svReady := true, pwren := true, powerAt := none, state := .auth, authStart := n, authTries := 0 }

theorem supervisorReady_due {x : Slot} {s : State} (hs : (s.slot x).state = .powering) (hn : (s.slot x).fallAt + 50 * ms ≤ s.now)
    (hp : (s.slot x).powerAt = none) (hw : (s.slot x).pwren = true) (hc : s.pw.state.clocked = true) :
    supervisorReady x s = wantSv x 0x0B (modSlot x (readySlot s.now) s) :=
  if_neg (by simp [hs, hn, hp, hw, hc])

/-- A command wanted of a supervisor changes nothing of the slot but what it owes. -/
def owedTo (opc : BitVec 7) (t : CtSlot) : CtSlot :=
  if t.svDue.any (fun o => decide (o = opc)) then t else { t with svDue := t.svDue ++ [opc] }

theorem wantSv_eq (x : Slot) (opc : BitVec 7) : wantSv x opc = modSlot x (owedTo opc) := rfl

/-- A slot that owes a command owes it still when another is wanted, and the wanted one too. -/
theorem mem_owedTo {o opc : BitVec 7} {t : CtSlot} : o ∈ (owedTo opc t).svDue ↔ o ∈ t.svDue ∨ o = opc := by
  unfold owedTo
  split
  next h =>
    have hm : opc ∈ t.svDue := by simpa using h
    exact ⟨.inl, fun h => h.elim id fun e => e ▸ hm⟩
  · simp

theorem owedTo_shape (opc : BitVec 7) (t : CtSlot) : owedTo opc t = { t with svDue := (owedTo opc t).svDue } := by
  unfold owedTo
  split <;> rfl

@[simp] theorem owedTo_state (opc : BitVec 7) (t : CtSlot) : (owedTo opc t).state = t.state :=
  (congrArg CtSlot.state (owedTo_shape opc t) :)

/-- The events of an authentication that has waited too long (R76, R79). -/
def noteAuthLate (x : Slot) (s : State) : State :=
  if (s.slot x).outstanding.isSome || !(s.slot x).identified then
    raise (uCT x) cSV_TIMEOUT noCtx (lo32 x.num)
      (((s.slot x).outstanding.elim (if (s.slot x).identified then (2 : BitVec 7) else 1) fun o => o.opc).setWidth 32) 0
      (modSlot x (fun t => { t with svFault := true }) s)
  else s

@[simp] theorem noteAuthLate_logOpen (x : Slot) (s : State) : (noteAuthLate x s).ev.logOpen = s.ev.logOpen := by
  unfold noteAuthLate
  split <;> simp
@[simp] theorem noteAuthLate_cart (x : Slot) (s : State) : ((noteAuthLate x s).slot x).cart = (s.slot x).cart := by
  unfold noteAuthLate
  split <;> simp

theorem authTimeout_due {x : Slot} {s : State} (hs : (s.slot x).state = .auth) (hn : (s.slot x).authStart + 40 * ms ≤ s.now) :
    authTimeout x s = authFail x (noteAuthLate x s) := by
  unfold authTimeout
  rw [if_neg (by simp [hs, Nat.not_lt.mpr hn])]
  unfold noteAuthLate
  split <;> rfl

/-- What AUTH_FAILED leaves (R78, R79). -/
theorem authFail_effect {x : Slot} {s : State} (hl : s.ev.logOpen = true) :
    ((authFail x s).slot x).state = .authFailed ∧ ((authFail x s).slot x).link = .down ∧
    ((authFail x s).slot x).outstanding = none ∧
    (∃ e ∈ (authFail x s).ev.intake, e.code = cCART_AUTH_FAIL ∧ e.unit = uCT x) ∧
    ((authFail x s).slot x).cart = (s.slot x).cart := by
  unfold authFail
  refine ⟨by simp, by simp, by simp, raiseSer_mem_intake (by simp [hl]), by simp⟩

/-- What the start of authentication leaves (R73, R90, step I4). -/
theorem supervisorReady_effect {x : Slot} {s : State} (hs : (s.slot x).state = .powering) (hn : (s.slot x).fallAt + 50 * ms ≤ s.now)
    (hp : (s.slot x).powerAt = none) (hw : (s.slot x).pwren = true) (hc : s.pw.state.clocked = true) :
    (supervisorReady x s).slot x = owedTo 0x0B (readySlot s.now (s.slot x)) ∧
    (supervisorReady x s).slot x.other = s.slot x.other ∧ (supervisorReady x s).ev = s.ev := by
  rw [supervisorReady_due hs hn hp hw hc, wantSv_eq]
  simp only [modSlot_slot, modSlot_slot_other, modSlot_ev, and_self]

theorem readySlot_owed (n : Nat) (t : CtSlot) :
    (owedTo 0x0B (readySlot n t)).state = .auth ∧ (owedTo 0x0B (readySlot n t)).svReady = true ∧
    (owedTo 0x0B (readySlot n t)).authStart = n ∧ (owedTo 0x0B (readySlot n t)).authTries = 0 ∧
    (0x0B : BitVec 7) ∈ (owedTo 0x0B (readySlot n t)).svDue := by
  refine ⟨?_, ?_, ?_, ?_, mem_owedTo.2 (.inr rfl)⟩ <;> rw [owedTo_shape] <;> rfl

/-- What authentication leaves that has not passed in its 40 ms (R80). -/
theorem authTimeout_effect {x : Slot} {s : State} (hs : (s.slot x).state = .auth) (hn : (s.slot x).authStart + 40 * ms ≤ s.now)
    (hl : s.ev.logOpen = true) :
    ((authTimeout x s).slot x).state = .authFailed ∧ ((authTimeout x s).slot x).link = .down ∧
    ((authTimeout x s).slot x).outstanding = none ∧
    (∃ e ∈ (authTimeout x s).ev.intake, e.code = cCART_AUTH_FAIL ∧ e.unit = uCT x) ∧
    ((authTimeout x s).slot x).cart = (s.slot x).cart := by
  have h := authFail_effect (x := x) ((noteAuthLate_logOpen x s).trans hl)
  rw [noteAuthLate_cart] at h
  rwa [authTimeout_due hs hn]

/-- What the duet's step I1 leaves of a cartridge made new, and of one from outside the slots. -/
theorem presenceFall_made {x : Slot} {serial : BitVec 64} {big : Bool} {s : State} (hc : (s.slot x).cart = none)
    (hs : (s.slot x).state = .empty) :
    ((presenceFall x (.made serial big) s).slot x).state = .debounce ∧
    ((presenceFall x (.made serial big) s).slot x).fallAt = s.now ∧
    ((presenceFall x (.made serial big) s).slot x).cart = some { serial := serial, big := big } ∧
    (presenceFall x (.made serial big) s).slot x.other = s.slot x.other ∧
    (presenceFall x (.made serial big) s).shelf = s.shelf ∧ (presenceFall x (.made serial big) s).ev = s.ev := by
  obtain ⟨hx, ho, hl, he⟩ := presenceFall_effect (card := .made serial big) hc hs rfl
  rw [hx]
  exact ⟨rfl, rfl, rfl, ho, hl, he⟩

theorem presenceFall_shelf {x : Slot} {i : Nat} {c : Cart} {s : State} (hc : (s.slot x).cart = none)
    (hs : (s.slot x).state = .empty) (hi : s.shelf[i]? = some c) :
    ((presenceFall x (.shelf i) s).slot x).state = .debounce ∧
    (∃ c', ((presenceFall x (.shelf i) s).slot x).cart = some c' ∧ c'.serial = c.serial ∧ c'.lines = c.lines ∧
      c'.sv.unpowered = c.sv.unpowered + 1) ∧ (presenceFall x (.shelf i) s).shelf = s.shelf.eraseIdx i := by
  obtain ⟨hx, -, hl, -⟩ := presenceFall_effect (card := .shelf i)
    (c := { c with sv := { c.sv with unpowered := c.sv.unpowered + 1 } }) (l := s.shelf.eraseIdx i) hc hs
    (by rw [takeCard, hi])
  rw [hx]
  exact ⟨rfl, ⟨_, rfl, rfl, rfl, rfl⟩, hl⟩

theorem debounceEnd_seated {x : Slot} {s : State} (hs : (s.slot x).state = .debounce) (hn : (s.slot x).fallAt + 10 * ms ≤ s.now)
    (hc : s.pw.state.clocked = true) (hl : s.ev.logOpen = true) :
    ((debounceEnd x s).slot x).state = .powering ∧ ((debounceEnd x s).slot x).present = true ∧
    ((debounceEnd x s).slot x).pwren = true ∧ ((debounceEnd x s).slot x).cart = (s.slot x).cart ∧
    (∃ e ∈ (debounceEnd x s).ev.intake, e.code = cCART_SEATED ∧ e.unit = uCT x) ∧
    (debounceEnd x s).slot x.other = s.slot x.other := by
  obtain ⟨hx, ho, he⟩ := debounceEnd_effect hs hn hc hl
  rw [hx]
  exact ⟨rfl, rfl, rfl, rfl, he, ho⟩

theorem supervisorReady_starts {x : Slot} {s : State} (hs : (s.slot x).state = .powering) (hn : (s.slot x).fallAt + 50 * ms ≤ s.now)
    (hp : (s.slot x).powerAt = none) (hw : (s.slot x).pwren = true) (hc : s.pw.state.clocked = true) :
    ((supervisorReady x s).slot x).state = .auth ∧ ((supervisorReady x s).slot x).svReady = true ∧
    ((supervisorReady x s).slot x).authStart = s.now ∧ ((supervisorReady x s).slot x).authTries = 0 ∧
    (0x0B : BitVec 7) ∈ ((supervisorReady x s).slot x).svDue ∧ (supervisorReady x s).slot x.other = s.slot x.other ∧
    (supervisorReady x s).ev = s.ev := by
  obtain ⟨hx, ho, he⟩ := supervisorReady_effect hs hn hp hw hc
  obtain ⟨h1, h2, h3, h4, h5⟩ := readySlot_owed s.now (s.slot x)
  rw [hx]
  exact ⟨h1, h2, h3, h4, h5, ho, he⟩

/-- Settles O39: each step of the insertion is due in its cycle, and what it leaves is read off its equation. -/
theorem insertionReachesAuthentication : Obligations.InsertionReachesAuthentication :=
  ⟨fun s _ _ _ hc hs => ⟨_, rfl, presenceFall_made (s := noOut s) hc hs⟩,
    fun s _ _ _ hc hs hi => ⟨_, rfl, presenceFall_shelf (s := noOut s) hc hs hi⟩,
    fun s _ hs hn hk hl => ⟨_, rfl, debounceEnd_seated (s := noOut s) hs hn hk hl⟩,
    fun s _ _ hn => congrArg Host.Outcome.next (debounceEnd_early (s := noOut s) hn),
    fun s _ hs hn hp hw hk => ⟨_, rfl, supervisorReady_starts (s := noOut s) hs hn hp hw hk⟩,
    fun s _ hs hn hl => ⟨_, rfl, authTimeout_effect (s := noOut s) hs hn hl⟩⟩

end Sys2Proof.Machine

namespace Sys2Proof.Machine

/-! ### What the log keeps (R338, R341) -/

/-- Work that registers events takes none back: the log stays as open as it was, and its intake grows. -/
def Logged (s t : State) : Prop := t.ev.logOpen = s.ev.logOpen ∧ ∀ e ∈ s.ev.intake, e ∈ t.ev.intake

theorem Logged.refl (s : State) : Logged s s := ⟨rfl, fun _ h => h⟩
theorem Logged.trans {s t u : State} (h : Logged s t) (k : Logged t u) : Logged s u :=
  ⟨k.1.trans h.1, fun e he => k.2 e (h.2 e he)⟩
theorem Logged.of_ev {s t : State} (h : t.ev = s.ev) : Logged s t := ⟨congrArg Ev.logOpen h, fun e he => by rwa [h]⟩

theorem intoIntake_keeps (e : EvEntry) (l : List EvEntry) : l ⊆ intoIntake e l := by
  induction l with
  | nil => exact List.nil_subset _
  | cons x rest ih =>
    unfold intoIntake
    split
    · exact List.subset_cons_self ..
    · exact List.cons_subset_cons x ih

theorem raiseF_mem_intake {u : BitVec 5} {k c : BitVec 8} {f : BitVec 4} {d0 d1 d2 : Word} {s : State} (h : s.ev.logOpen = true) :
    ∃ e ∈ (raiseF u k c f d0 d1 d2 s).ev.intake, e.code = k ∧ e.unit = u := by
  unfold raiseF
  extract_lets e
  rw [if_neg (by simp [h])]
  exact ⟨e, mem_intoIntake e _, rfl, rfl⟩

theorem logged_raiseF (u : BitVec 5) (k c : BitVec 8) (f : BitVec 4) (d0 d1 d2 : Word) (s : State) :
    Logged s (raiseF u k c f d0 d1 d2 s) := by
  refine ⟨raiseF_logOpen .., fun e he => ?_⟩
  unfold raiseF
  extract_lets a
  split
  · exact he
  · exact intoIntake_keeps a _ he

/-- The trace stands beside the log. -/
theorem logged_traceFields (s : State) (l u : List TrEntry) (p a b : Nat) : Logged s { s with ev := { s.ev with
    trace := l, trPos := p, unspilled := u, traceLost := a, spillLost := b } } := ⟨rfl, fun _ h => h⟩

theorem logged_traceRaw (e : TrEntry) (s : State) : Logged s (traceRaw e s) := logged_traceFields s _ _ _ _ _

theorem logged_trace (t a : BitVec 8) (d0 d1 : Word) (s : State) : Logged s (trace t a d0 d1 s) := by
  unfold trace traceAt
  extract_lets e on
  split
  · exact .refl s
  · split
    · exact logged_traceRaw e s
    · split <;> exact ⟨rfl, fun _ h => h⟩

/-! ### Lines and requests that end with a cartridge (R92, Table 1.4) -/

/-- The slots stand as they stood, but for what their cartridges and their wear hold. -/
def SlotsStand (s t : State) : Prop :=
  ∀ x, (t.slot x).state = (s.slot x).state ∧ (t.slot x).link = (s.slot x).link

/-- Work on lines and requests in progress: the units of the pipeline and the log change, no other unit does, and every slot stands
as it stood. -/
def PipeKept (s t : State) : Prop :=
  t = { s with
    now := t.now, gl := t.gl, pc := t.pc, ct := t.ct, md := t.md, tn := t.tn, lg := t.lg, dm := t.dm, hl := t.hl, ev := t.ev
    egress := t.egress, out := t.out } ∧ SlotsStand s t ∧ Logged s t

theorem PipeKept.refl (s : State) : PipeKept s s := ⟨rfl, fun _ => ⟨rfl, rfl⟩, .refl s⟩

theorem PipeKept.trans {s t u : State} (h : PipeKept s t) (k : PipeKept t u) : PipeKept s u := by
  refine ⟨?_, fun x => ⟨(k.2.1 x).1.trans (h.2.1 x).1, (k.2.1 x).2.trans (h.2.1 x).2⟩, h.2.2.trans k.2.2⟩
  have hk := k.1
  rw [h.1] at hk
  exact hk

theorem PipeKept.duet {s t : State} (h : PipeKept s t) : t.duet = s.duet := (congrArg State.duet h.1 :)
theorem PipeKept.bt {s t : State} (h : PipeKept s t) : t.bt = s.bt := (congrArg State.bt h.1 :)
theorem PipeKept.pw {s t : State} (h : PipeKept s t) : t.pw = s.pw := (congrArg State.pw h.1 :)
theorem PipeKept.ks {s t : State} (h : PipeKept s t) : t.ks = s.ks := (congrArg State.ks h.1 :)
theorem PipeKept.shelf {s t : State} (h : PipeKept s t) : t.shelf = s.shelf := (congrArg State.shelf h.1 :)

/-- Work that keeps the slots and the log altogether. -/
theorem PipeKept.of_still {s t : State} (h : t = { s with
    now := t.now, gl := t.gl, pc := t.pc, md := t.md, tn := t.tn, lg := t.lg, dm := t.dm, hl := t.hl
    egress := t.egress, out := t.out }) : PipeKept s t := by
  have hev : t.ev = s.ev := (congrArg State.ev h :)
  have hct : t.ct = s.ct := (congrArg State.ct h :)
  refine ⟨?_, fun x => ?_, .of_ev hev⟩
  · rw [hct, hev]
    exact h
  · rw [slot_congr s hct x]
    exact ⟨rfl, rfl⟩

/-- Work that goes through a list keeps what each of its steps keeps. -/
theorem PipeKept.foldl {α : Type} {f : State → α → State} (hf : ∀ s a, PipeKept s (f s a)) :
    ∀ (l : List α) (s : State), PipeKept s (l.foldl f s)
  | [], s => .refl s
  | a :: l, s => (hf s a).trans (PipeKept.foldl hf l (f s a))

theorem pipeKept_trace (t a : BitVec 8) (d0 d1 : Word) (s : State) : PipeKept s (trace t a d0 d1 s) := by
  have hs := trace_shape t a d0 d1 s
  refine ⟨?_, fun x => ?_, logged_trace ..⟩
  · rw [hs]
  · rw [slot_congr s (congrArg State.ct hs :) x]
    exact ⟨rfl, rfl⟩

theorem pipeKept_modSlot (x : Slot) {f : CtSlot → CtSlot} (s : State) (hf : ∀ t, (f t).state = t.state ∧ (f t).link = t.link) :
    PipeKept s (modSlot x f s) := by
  refine ⟨by cases x <;> rfl, fun y => ?_, .of_ev (modSlot_ev ..)⟩
  by_cases hy : y = x
  · subst hy
    rw [modSlot_slot]
    exact hf _
  · rw [modSlot_slot_ne s x y f hy]
    exact ⟨rfl, rfl⟩

theorem pipeKept_modCart (x : Slot) (f : Cart → Cart) (s : State) : PipeKept s (modCart x f s) :=
  pipeKept_modSlot x s fun _ => ⟨rfl, rfl⟩

theorem pipeKept_dropTag? (tag : Option Nat) (s : State) : PipeKept s (dropTag? tag s) := by
  cases tag <;> exact .of_still rfl

theorem pipeKept_count (c : Ctx) (f : Counters → Counters) (s : State) : PipeKept s (count c f s) := .of_still rfl

theorem pipeKept_settle (x : Slot) (t : Tempo) (s : State) : PipeKept s (settle x t s) :=
  (pipeKept_modSlot (f := fun c => { c with intransit := c.intransit - t.price }) x s fun _ => ⟨rfl, rfl⟩).trans
    (pipeKept_count ..)

theorem pipeKept_cancelWrite (w : LineWrite) (s : State) : PipeKept s (cancelWrite w s) := by
  unfold cancelWrite
  split
  · exact (pipeKept_dropTag? w.tag s).trans (pipeKept_settle ..)
  · exact pipeKept_dropTag? w.tag s

theorem pipeKept_arbShape {s t : State} (h : ArbShape s t) : PipeKept s t := by
  refine .of_still ?_
  unfold ArbShape at h
  rw [h]

theorem pipeKept_emit (o : Out) (s : State) : PipeKept s (emit o s) := .of_still rfl

theorem pipeKept_send (o : Out) (tag : Option Nat) (s : State) : PipeKept s (send o tag s) := by
  unfold send
  split
  · exact (pipeKept_emit o s).trans (pipeKept_dropTag? ..)
  · split
    · exact ((pipeKept_arbShape (arbitrate_shape ..)).trans (pipeKept_emit o _)).trans (pipeKept_dropTag? ..)
    · exact .of_still rfl

theorem pipeKept_retire (id : Nat) (s : State) : PipeKept s (retire id s) := by
  unfold retire
  split
  · exact .refl s
  next r _ =>
    extract_lets u gl v
    have hv : PipeKept s v := (pipeKept_dropTag? r.tag s).trans (t := u) (u := v) (.of_still rfl)
    split
    · exact hv.trans (pipeKept_send ..)
    · exact hv

theorem pipeKept_lineVerified (id : Nat) (s : State) : PipeKept s (lineVerified id s) := by
  unfold lineVerified
  extract_lets u
  have hu : PipeKept s u := .of_still rfl
  split
  · split
    · exact hu.trans (pipeKept_retire ..)
    · exact hu
  · exact hu

theorem pipeKept_slotDone (id : Nat) (s : State) : PipeKept s (slotDone id s) := by
  unfold slotDone
  split
  · exact .refl s
  next h _ =>
    extract_lets rel pc u
    exact PipeKept.trans (t := u) (.of_still rfl) (.foldl (fun s r => pipeKept_lineVerified r s) h.reqs u)

theorem pipeKept_markResync (x : Slot) (cline : Nat) (s : State) : PipeKept s (markResync x cline s) := by
  unfold markResync
  extract_lets r
  split
  · exact pipeKept_modCart ..
  · exact .refl s

theorem pipeKept_dropHomes (x : Slot) (s : State) : PipeKept s (dropHomes x s) := by
  unfold dropHomes
  extract_lets hit u pc v
  have hu : PipeKept s u := .foldl (fun s h => pipeKept_markResync x.other h.media s) hit s
  refine (hu.trans (t := u) (u := v) (.of_still rfl)).trans (.foldl (fun s h => ?_) hit v)
  split
  · split
    · exact pipeKept_slotDone ..
    · exact .refl s
  · exact .refl s

theorem pipeKept_dropWrites (x : Slot) (s : State) : PipeKept s (dropWrites x s) := by
  unfold dropWrites
  extract_lets mine u rest back
  exact PipeKept.trans (t := u) (.foldl (fun s w => pipeKept_cancelWrite w s) mine s) (.of_still rfl)

/-! ### Requests that end with error (Table 1.4) -/

theorem pipeKept_freeEntry (st : Stage) (w : Bool) (c : Ctx) (s : State) : PipeKept s (freeEntry st w c s) := by
  cases st
  · cases w <;> exact .of_still rfl
  · exact .of_still rfl
  · exact .refl s

theorem pipeKept_removeReq (id : Nat) (s : State) : PipeKept s (removeReq id s) := by
  unfold removeReq
  split
  · exact .refl s
  next r _ =>
    extract_lets u
    have hu : PipeKept s u := (pipeKept_freeEntry r.stage r.write r.ctx s).trans (pipeKept_dropTag? r.tag _)
    exact hu.trans (.of_still rfl)

theorem pipeKept_signalUr (t : Tlp) (s : State) : PipeKept s (signalUr t s) := by
  unfold signalUr modAer
  split <;> exact .of_still rfl

theorem pipeKept_mediaEvent (dpa : Nat) (code : BitVec 8) (s : State) : PipeKept s (mediaEvent dpa code s) := by
  unfold mediaEvent
  split
  · exact .refl s
  · extract_lets l
    split <;> exact .of_still rfl

theorem pipeKept_noteRefusal (t : Tlp) (c : Option Ctx) (code : BitVec 8) (off dpa : Nat) (s : State) :
    PipeKept s (noteRefusal t c code off dpa s) := by
  unfold noteRefusal
  extract_lets u hl v w
  have hv : PipeKept s v := .of_still rfl
  have hw : PipeKept s w := by
    cases c with
    | none => exact hv
    | some c => exact hv.trans (pipeKept_count c addRefused v)
  split
  · exact hw.trans (pipeKept_signalUr ..)
  · split
    · exact (hw.trans (pipeKept_send ..)).trans (pipeKept_mediaEvent ..)
    · exact hw.trans (pipeKept_send ..)

theorem pipeKept_failReq (s : State) (id : Nat) : PipeKept s (failReq s id) := by
  unfold failReq
  split
  · exact (pipeKept_removeReq ..).trans (pipeKept_noteRefusal ..)
  · exact .refl s

theorem pipeKept_modCh (n : Fin 32) (f : DmaCh → DmaCh) (s : State) : PipeKept s (modCh n f s) := .of_still rfl

theorem pipeKept_chGo (n : Fin 32) (st : ChState) (s : State) : PipeKept s (chGo n st s) := by
  unfold chGo
  extract_lets c
  split
  · exact .refl s
  · exact (pipeKept_modCh n _ s).trans (pipeKept_trace ..)

theorem pipeKept_failBarrier (s : State) (n : Fin 32) : PipeKept s (failBarrier s n) := by
  unfold failBarrier
  extract_lets c
  split
  · split
    · exact ((pipeKept_count ..).trans (pipeKept_modCh ..)).trans (pipeKept_chGo ..)
    · exact .refl s
  · exact .refl s

theorem pipeKept_failSlot (s : State) (h : HoldSlot) : PipeKept s (failSlot s h) := by
  unfold failSlot
  extract_lets hit pc u v
  have hv : PipeKept s v := PipeKept.trans (t := u) (.of_still rfl) (.foldl pipeKept_failReq h.reqs u)
  split
  · exact hv.trans (.foldl pipeKept_failBarrier h.chans v)
  · exact hv

theorem pipeKept_failUnserved (s : State) : PipeKept s (failUnserved s) := .foldl pipeKept_failSlot _ s

/-- CART_GONE as a departure registers it, with the duet's state (R97). -/
def noteDeparture (x : Slot) (n : BitVec 64) (s : State) : State :=
  raiseF (uCT x) cCART_GONE noCtx (BitVec.ofNat 4 s.duet.state.code) (BitVec.ofNat 32 x.num) (n.setWidth 32)
    ((n >>> 32).setWidth 32) s

theorem cancelFormat_none {x : Slot} {s : State} (h : s.duet.format = none) : cancelFormat x s = s := by
  simp [cancelFormat, h]

/-- The departure of a cartridge that does not serve ends its lines and requests, where no format has begun (R92). -/
theorem departure_spare {x : Slot} {n : BitVec 64} {s : State} (hf : s.duet.format = none) :
    PipeKept (noteDeparture x n s) (departure x n false s) := by
  have hd : PipeKept (noteDeparture x n s) (dropWrites x (noteDeparture x n s)) := pipeKept_dropWrites ..
  have hfu : (dropWrites x (noteDeparture x n s)).duet.format = none := by rw [hd.duet, noteDeparture, raiseF_duet, hf]
  have he : departure x n false s = failUnserved (if (dropWrites x (noteDeparture x n s)).duet.names x then
      dropWrites x (noteDeparture x n s) else dropHomes x (dropWrites x (noteDeparture x n s))) := by
    unfold departure
    rw [← noteDeparture]
    simp only [cancelFormat_none hfu, Bool.false_eq_true, if_false, hfu]
  rw [he]
  refine PipeKept.trans ?_ (pipeKept_failUnserved _)
  split
  · exact hd
  · exact hd.trans (pipeKept_dropHomes ..)

/-- What such a departure leaves: the slots and the duet as they stood, and CART_GONE. -/
theorem departure_spare_effect {x : Slot} {n : BitVec 64} {s : State} (hf : s.duet.format = none) (ho : s.ev.logOpen = true) :
    SlotsStand s (departure x n false s) ∧ (departure x n false s).duet = s.duet ∧
    ∃ e ∈ (departure x n false s).ev.intake, e.code = cCART_GONE ∧ e.unit = uCT x := by
  obtain ⟨-, hslots, hlog⟩ := departure_spare (x := x) (n := n) hf
  obtain ⟨e, he, hcode⟩ := raiseF_mem_intake (u := uCT x) (k := cCART_GONE) (c := noCtx) (f := BitVec.ofNat 4 s.duet.state.code)
    (d0 := BitVec.ofNat 32 x.num) (d1 := n.setWidth 32) (d2 := (n >>> 32).setWidth 32) ho
  refine ⟨fun y => ?_, (departure_spare hf).duet.trans (raiseF_duet ..), e, hlog.2 e he, hcode⟩
  have hy : (noteDeparture x n s).slot y = s.slot y := slot_congr s (raiseF_ct ..) y
  rw [← hy]
  exact hslots y

end Sys2Proof.Machine

namespace Sys2Proof.Machine

/-! ### The media link (R69, R70) -/

theorem flitError_replay {x : Slot} {s : State} (hl : (s.slot x).link = .active ∨ (s.slot x).link = .idle)
    (hf : (s.slot x).flitFails < 4) :
    flitError x s = modSlot x (fun t => { t with flitFails := t.flitFails + 1, replays := t.replays + 1 }) s := by
  simp [flitError, hl, hf]

theorem flitError_retrain {x : Slot} {s : State} (hl : (s.slot x).link = .active ∨ (s.slot x).link = .idle)
    (hf : 4 ≤ (s.slot x).flitFails) :
    flitError x s = modSlot x (fun t => { t with flitFails := 0, link := .retrain, retrains := t.retrains + 1 }) s := by
  simp [flitError, hl, Nat.not_lt.mpr hf]

/-- A slot whose link has trained again. -/
def linkedSlot (n : Nat) (t : CtSlot) : CtSlot :=
  { t with link := .active, width := if t.linkDegraded then 4 else 8, linkUse := n, flitFails := 0 }

/-- The retrains of the last second that failed, with the present one (R70). -/
def recentFails (x : Slot) (s : State) : List Nat :=
  ((s.slot x).failedRetrains.filter fun c => decide (s.now < c + sec)) ++ [s.now]

/-- A slot whose link is DOWN after a failed retrain, and one that has FAILED of it. -/
def lostSlot (l : List Nat) (t : CtSlot) : CtSlot := { t with link := .down, width := 0, failedRetrains := l }
def failedSlot (t : CtSlot) : CtSlot := { t with state := .failed, kept := false, insTests := [] }

/-- A failed retrain leaves the link DOWN. -/
def linkLost (x : Slot) (s : State) : State := modSlot x (lostSlot (recentFails x s)) s

/-- A slot whose link stays DOWN is FAILED. -/
def linkFailed (x : Slot) (s : State) : State := modSlot x failedSlot (linkLost x s)

/-- The end of a retrain (R70). -/
theorem retrainEnd_retrain {x : Slot} {up : Bool} {s : State} (hl : (s.slot x).link = .retrain) :
    retrainEnd x up s = if up then modSlot x (linkedSlot s.now) s else
      if 3 ≤ (recentFails x s).length then
        departure x (s.slot x).serial (s.slot x).serves (inhibitGone x (linkFailed x s))
      else linkLost x s := by
  simp only [retrainEnd, hl, reduceCtorEq, decide_false, Bool.false_and, Bool.false_eq_true, or_false, if_false]
  rfl

/-- Outside FIELD_HOLD an inhibit that ends with its cartridge changes the media unit alone (R130). -/
theorem inhibitGone_units {x : Slot} {s : State} (h : s.pw.state ≠ .fieldHold) :
    (inhibitGone x s).ct = s.ct ∧ (inhibitGone x s).duet = s.duet ∧ (inhibitGone x s).ev = s.ev ∧
    (inhibitGone x s).shelf = s.shelf ∧ (inhibitGone x s).ks = s.ks ∧ (inhibitGone x s).pw = s.pw := by
  obtain ⟨m, hm⟩ : ∃ m, inhibitGone x s = { s with md := m } := by
    cases x <;> exact ⟨_, if_neg fun h' => h h'.1⟩
  rw [hm]
  exact ⟨rfl, rfl, rfl, rfl, rfl, rfl⟩

theorem linkIdleTimeout_due {x : Slot} {s : State} (hl : (s.slot x).link = .active) (hn : (s.slot x).linkUse + 10000 ≤ s.now) :
    linkIdle x s = modSlot x (fun t => { t with link := .idle }) s := if_pos ⟨hl, hn⟩

theorem linkIdleTimeout_early {x : Slot} {s : State} (hn : s.now < (s.slot x).linkUse + 10000) : linkIdle x s = s :=
  if_neg fun h => absurd hn (Nat.not_lt.2 h.2)

/-- A retrain that fails before the third within a second leaves the link DOWN (R70). -/
theorem retrainEnd_lost_effect {x : Slot} {s : State} (hl : (s.slot x).link = .retrain)
    (hf : (s.slot x).failedRetrains.length < 2) :
    ((retrainEnd x false s).slot x).link = .down ∧ ((retrainEnd x false s).slot x).width = 0 ∧
    ((retrainEnd x false s).slot x).state = (s.slot x).state ∧ s.now ∈ ((retrainEnd x false s).slot x).failedRetrains ∧
    (retrainEnd x false s).ev = s.ev := by
  have hn : (recentFails x s).length < 3 := by
    have := List.length_filter_le (fun c => decide (s.now < c + sec)) (s.slot x).failedRetrains
    simp only [recentFails, List.length_append, List.length_singleton]
    omega
  rw [retrainEnd_retrain hl, if_neg Bool.false_ne_true, if_neg (Nat.not_le.2 hn), linkLost, modSlot_slot]
  exact ⟨rfl, rfl, rfl, List.mem_append_right _ List.mem_cons_self, modSlot_ev ..⟩

/-- The third retrain that fails within a second makes the slot FAILED, and a slot that does not serve leaves the duet alone (R70). -/
theorem retrainEnd_failed_effect {x : Slot} {a b : Nat} {s : State} (hl : (s.slot x).link = .retrain)
    (hf : (s.slot x).failedRetrains = [a, b]) (ha : s.now < a + sec) (hb : s.now < b + sec) (hs : (s.slot x).serves = false)
    (hd : s.duet.format = none) (ho : s.ev.logOpen = true) (hp : s.pw.state = .active) :
    ((retrainEnd x false s).slot x).state = .failed ∧ ((retrainEnd x false s).slot x).link = .down ∧
    (∃ e ∈ (retrainEnd x false s).ev.intake, e.code = cCART_GONE ∧ e.unit = uCT x) ∧ (retrainEnd x false s).duet = s.duet := by
  have hn : 3 ≤ (recentFails x s).length := by simp [recentFails, hf, ha, hb]
  rw [retrainEnd_retrain hl, if_neg Bool.false_ne_true, if_pos hn, hs]
  have hpw : (linkFailed x s).pw = s.pw := (modSlot_pw ..).trans (modSlot_pw ..)
  obtain ⟨hct, hduet, hev, -⟩ := inhibitGone_units (x := x) (s := linkFailed x s) (by rw [hpw, hp]; decide)
  have hslot := slot_congr _ hct x
  have hd0 : (inhibitGone x (linkFailed x s)).duet = s.duet := hduet.trans ((modSlot_duet ..).trans (modSlot_duet ..))
  have hopen : (inhibitGone x (linkFailed x s)).ev.logOpen = true :=
    (congrArg Ev.logOpen (hev.trans ((modSlot_ev ..).trans (modSlot_ev ..)))).trans ho
  have hx : (linkFailed x s).slot x = failedSlot (lostSlot (recentFails x s) (s.slot x)) :=
    (modSlot_slot ..).trans (congrArg failedSlot (modSlot_slot ..))
  obtain ⟨hstand, hd', he⟩ := departure_spare_effect (x := x) (n := (s.slot x).serial) (hd0 ▸ hd) hopen
  exact ⟨(hstand x).1.trans (congrArg CtSlot.state (hslot.trans hx)), (hstand x).2.trans (congrArg CtSlot.link (hslot.trans hx)),
    he, hd'.trans hd0⟩

/-- Settles O44: the equations of the link's work; what the third failure leaves is what a departure of a slot that does not serve
leaves, `departure_spare`. -/
theorem linksReplayIdleAndRetrain : Obligations.LinksReplayIdleAndRetrain :=
  ⟨fun s _ hl hf => congrArg Host.Outcome.next (flitError_replay (s := noOut s) hl hf),
    fun s _ hl hf => congrArg Host.Outcome.next (flitError_retrain (s := noOut s) hl hf),
    fun s _ hl hn => congrArg Host.Outcome.next (linkIdleTimeout_due (s := noOut s) hl hn),
    fun s _ hn => congrArg Host.Outcome.next (linkIdleTimeout_early (s := noOut s) hn),
    fun s _ hl => congrArg Host.Outcome.next (retrainEnd_retrain (up := true) (s := noOut s) hl),
    fun s _ hl hf => ⟨_, rfl, retrainEnd_lost_effect (s := noOut s) hl hf⟩,
    fun s _ _ _ hl hf ha hb hs hd ho hp => ⟨_, rfl, retrainEnd_failed_effect (s := noOut s) hl hf ha hb hs hd ho hp⟩⟩

end Sys2Proof.Machine

namespace Sys2Proof.Machine

/-! ### CT_CTRL (Table 3.11) -/

/-- A slot with a value in it, whatever it held. -/
def putSlot (x : Slot) (t : CtSlot) (s : State) : State := modSlot x (fun _ => t) s

theorem modSlot_put (x : Slot) (f : CtSlot → CtSlot) (s : State) : modSlot x f s = putSlot x (f (s.slot x)) s := by
  cases x <;> rfl

theorem modSlot_congr {x : Slot} {f g : CtSlot → CtSlot} {s : State} (h : f (s.slot x) = g (s.slot x)) :
    modSlot x f s = modSlot x g s := by
  rw [modSlot_put, modSlot_put, h]

theorem modSlot_same {x : Slot} {f : CtSlot → CtSlot} {s : State} (h : f (s.slot x) = s.slot x) : modSlot x f s = s := by
  rw [modSlot_put, h]
  cases x <;> rfl

/-- A command given with the word that CT_CTRL shows keeps the stored fields: RELEASE, REAUTH, or SV_SOFT set. -/
theorem ctCtrl_or (t : CtSlot) {k : Word} (hk : k = 1 ∨ k = 2 ∨ k = 8) :
    bit (ctCtrl t ||| k) 6 = t.selLevel ∧ fld (ctCtrl t ||| k) 4 2 = t.indicator.toNat ∧
    bit (ctCtrl t ||| k) 3 = (t.svSoft || bit k 3) ∧ bit (ctCtrl t ||| k) 0 = bit k 0 ∧ bit (ctCtrl t ||| k) 1 = bit k 1 := by
  unfold ctCtrl
  generalize t.selLevel = a, t.indicator = b, t.svSoft = c
  rcases hk with rfl | rfl | rfl <;> revert a b c <;> decide

/-- A slot with the fields that a write of CT_CTRL stores. -/
def withControl (l : Bool) (i : BitVec 2) (b : Bool) (n : Nat) (t : CtSlot) : CtSlot :=
  { t with selLevel := l, indicator := i, svSoft := b, softSince := n }

/-- A slot whose select software has, or has not. -/
def withSoft (b : Bool) (n : Nat) (t : CtSlot) : CtSlot := { t with svSoft := b, softSince := n }

/-- A write of CT_CTRL that keeps SEL_LEVEL and INDICATOR can change SV_SOFT alone. -/
theorem storeCtCtrl_soft {x : Slot} {w : Word} {s : State} (h6 : bit w 6 = (s.slot x).selLevel)
    (h4 : fld w 4 2 = (s.slot x).indicator.toNat) :
    storeCtCtrl x w s =
      modSlot x (withSoft (bit w 3) (if bit w 3 && !(s.slot x).svSoft then s.now else (s.slot x).softSince)) s := by
  refine (if_neg (by simp [h4])).trans (modSlot_congr ?_)
  show withControl (bit w 6) (BitVec.ofNat 2 (fld w 4 2)) (bit w 3) _ (s.slot x) = _
  rw [h6, h4, BitVec.ofNat_toNat, BitVec.setWidth_eq]
  rfl

/-- A write of CT_CTRL that keeps its stored fields stores nothing. -/
theorem storeCtCtrl_same {x : Slot} {w : Word} {s : State} (h6 : bit w 6 = (s.slot x).selLevel)
    (h4 : fld w 4 2 = (s.slot x).indicator.toNat) (h3 : bit w 3 = (s.slot x).svSoft) : storeCtCtrl x w s = s := by
  rw [storeCtCtrl_soft h6 h4, if_neg (by simp [h3]), h3]
  exact modSlot_same rfl

theorem blockOf_ctCtrl (x : Slot) : blockOf (slotBase x + 4) = some (.ct x) := by cases x <;> decide
theorem csMask_ctCtrl (x : Slot) : csMask (slotBase x + 4) = 0 := by cases x <;> rfl

/-- A write of CT_CTRL is taken where Table 3.9 takes the commands that it gives. -/
theorem judge_ctCtrl {ch : Chan} {c : Ctx} {x : Slot} {v : Word} {s : State} (ha : afterReplay s = true)
    (hone : (bit v 0 && bit v 1) = false) (hsoft : bit v 3 = false ∨ (s.slot x).svSoft = true ∨ notTest s = true)
    (hrel : bit v 0 = true → (releaseState s x && releaseOk s x) = true)
    (hre : bit v 1 = true → (notTest s && reauthOk s x) = true) :
    judgeWrite ch (.ct x) (slotBase x + 4) c allBytes v s = .taken
      (if bit v 1 then reauth x (if bit v 0 then beginRelease x (storeCtCtrl x v s) else storeCtCtrl x v s)
       else if bit v 0 then beginRelease x (storeCtCtrl x v s) else storeCtCtrl x v s) := by
  have h3 : inState (!bit v 3 || (s.slot x).svSoft || notTest s) = none := by rcases hsoft with h | h | h <;> simp [h]
  have h0 : inState (!bit v 0 || (releaseState s x && releaseOk s x)) = none := by
    by_cases h : bit v 0 = true
    · simp [hrel h]
    · simp [Bool.eq_false_iff.2 h]
  have h1 : inState (!bit v 1 || (notTest s && reauthOk s x)) = none := by
    by_cases h : bit v 1 = true
    · simp [hre h]
    · simp [Bool.eq_false_iff.2 h]
  simp [judgeWrite, writeCt, judge, hone, ha, h3, h0, h1]

/-- RELEASE of a SPARE slot that no format or copy has begun on (Table 3.9). -/
theorem judge_release {ch : Chan} {c : Ctx} {x : Slot} {s : State} (ha : afterReplay s = true) (hu : usualField s = true)
    (hs : (s.slot x).state = .spare) (hf : s.duet.format = none) :
    judgeWrite ch (.ct x) (slotBase x + 4) c allBytes (ctCtrl (s.slot x) ||| 1) s = .taken (beginRelease x s) := by
  obtain ⟨h6, h4, h3, h0, h1⟩ := ctCtrl_or (s.slot x) (k := 1) (by decide)
  have h3' : bit (ctCtrl (s.slot x) ||| 1) 3 = (s.slot x).svSoft := h3.trans (Bool.or_false _)
  rw [judge_ctCtrl ha (by rw [h1]; exact Bool.and_false _) (by rw [h3']; cases (s.slot x).svSoft <;> simp)
    (fun _ => by simp [releaseState, releaseOk, hu, hs, hf]) (by rw [h1]; exact fun h => absurd h (by decide)), h1, h0,
    storeCtCtrl_same h6 h4 h3']
  rfl

/-- REAUTH of a SPARE slot (Table 3.9). -/
theorem judge_reauth {ch : Chan} {c : Ctx} {x : Slot} {s : State} (ha : afterReplay s = true) (ht : notTest s = true)
    (hc : (s.slot x).cart.isSome = true) (hs : (s.slot x).state = .spare) :
    judgeWrite ch (.ct x) (slotBase x + 4) c allBytes (ctCtrl (s.slot x) ||| 2) s = .taken (reauth x s) := by
  obtain ⟨h6, h4, h3, h0, h1⟩ := ctCtrl_or (s.slot x) (k := 2) (by decide)
  have h3' : bit (ctCtrl (s.slot x) ||| 2) 3 = (s.slot x).svSoft := h3.trans (Bool.or_false _)
  rw [judge_ctCtrl ha (by rw [h0]; exact Bool.false_and _) (.inr (.inr ht)) (by rw [h0]; exact fun h => absurd h (by decide))
    (fun _ => by simp [reauthOk, ht, hc, hs]), h1, h0, storeCtCtrl_same h6 h4 h3']
  rfl

/-- SV_SOFT is set: software has the select from now on (R262). -/
theorem judge_svSoft {ch : Chan} {c : Ctx} {x : Slot} {s : State} (ha : afterReplay s = true) (ht : notTest s = true)
    (hs : (s.slot x).svSoft = false) :
    judgeWrite ch (.ct x) (slotBase x + 4) c allBytes (ctCtrl (s.slot x) ||| 8) s = .taken (modSlot x (withSoft true s.now) s) := by
  obtain ⟨h6, h4, h3, h0, h1⟩ := ctCtrl_or (s.slot x) (k := 8) (by decide)
  have h3' : bit (ctCtrl (s.slot x) ||| 8) 3 = true := h3.trans (Bool.or_true _)
  rw [judge_ctCtrl ha (by rw [h0]; exact Bool.false_and _) (.inr (.inr ht)) (by rw [h0]; exact fun h => absurd h (by decide))
    (by rw [h1]; exact fun h => absurd h (by decide)), h1, h0, storeCtCtrl_soft h6 h4, h3', hs]
  rfl

theorem ctCtrl_command {ch : Chan} {x : Slot} {v : Word} {s t : State} (h : MayWrite ch (slotBase x + 4) s)
    (hj : judgeWrite ch (.ct x) (slotBase x + 4) (tnIndex s ch) allBytes v (noOut s) = .taken t) :
    act (command ch (slotBase x + 4) v) s = .next t :=
  command_taken h (blockOf_ctCtrl x) (by cases x <;> decide) (stageOf_plain (csMask_ctCtrl x)) hj

/-! ### Release and removal (R91, R92) -/

/-- A cartridge whose supply is off (R91). -/
def unpowered (c : Cart) : Cart := { c with sv := { c.sv with vcart := false } }

/-- A slot that is powered off. -/
def offSlot (t : CtSlot) : CtSlot := { t with link := .down, width := 0, pwren := false, cart := t.cart.map unpowered }

/-- A slot that is SAFE_TO_REMOVE. -/
def safeSlot (t : CtSlot) : CtSlot := { t with state := .safeToRemove }

/-- A cartridge whose lamp says that it may be removed. -/
def lampSlot (t : CtSlot) : CtSlot := { t with cart := t.cart.map fun c => { c with sv := { c.sv with lamp := 1 } } }

/-- The slot at the end of its release (R91, steps 4 and 5). -/
def released (x : Slot) (s : State) : State := modSlot x lampSlot (modSlot x offSlot (modSlot x safeSlot s))

theorem releaseComplete_due {x : Slot} {c : Cart} {s : State} (hs : (s.slot x).state = .releasing) (hc : (s.slot x).cart = some c)
    (hw : slotClean s x = true) (hf : finalDone (s.slot x) = true) :
    releaseComplete x s = raiseSer x cCART_SAFE (s.slot x).serial (keepSlotWear x (released x s)) :=
  if_neg (by simp [hs, hc, hw, hf])

theorem dropOldest_shape (s : State) : dropOldest s = { s with ks := (dropOldest s).ks, ev := (dropOldest s).ev } := by
  unfold dropOldest
  split
  · split
    · rw [raise, raiseF_shape]
    · rfl
  · rfl

@[simp] theorem dropOldest_logOpen (s : State) : (dropOldest s).ev.logOpen = s.ev.logOpen := by
  unfold dropOldest
  split
  · split
    · exact raise_logOpen ..
    · rfl
  · rfl

theorem keepWear_shape (n : BitVec 64) (k : Nat) (s : State) :
    keepWear n k s = { s with ks := (keepWear n k s).ks, ev := (keepWear n k s).ev } := dropOldest_shape _

@[simp] theorem keepWear_slot (n : BitVec 64) (k : Nat) (s : State) (x : Slot) : (keepWear n k s).slot x = s.slot x :=
  slot_congr s (congrArg State.ct (keepWear_shape n k s) :) x
@[simp] theorem keepWear_logOpen (n : BitVec 64) (k : Nat) (s : State) : (keepWear n k s).ev.logOpen = s.ev.logOpen :=
  dropOldest_logOpen _

/-- A slot with another uncharged wear. -/
def wornSlot (n : Nat) (t : CtSlot) : CtSlot := { t with uncharged := n }

/-- Wear that is kept against the serial of a slot's cartridge is no longer the slot's; nothing else of the slots changes (R92). -/
theorem keepSlotWear_slots (x : Slot) (s : State) :
    (∃ n, (keepSlotWear x s).slot x = wornSlot n (s.slot x)) ∧ (keepSlotWear x s).slot x.other = s.slot x.other ∧
    (keepSlotWear x s).ev.logOpen = s.ev.logOpen := by
  unfold keepSlotWear
  extract_lets t
  split
  · exact ⟨⟨0, (keepWear_slot ..).trans (modSlot_slot ..)⟩, (keepWear_slot ..).trans (modSlot_slot_other ..),
      (keepWear_logOpen ..).trans (congrArg Ev.logOpen (modSlot_ev ..))⟩
  · exact ⟨⟨(s.slot x).uncharged, rfl⟩, rfl, rfl⟩

theorem keepSlotWear_none {x : Slot} {s : State} (h : (s.slot x).uncharged = 0) : keepSlotWear x s = s :=
  if_neg fun h' => h'.2 h

/-- What the end of a release leaves (R91). -/
theorem releaseComplete_effect {x : Slot} {c : Cart} {s : State} (hs : (s.slot x).state = .releasing) (hc : (s.slot x).cart = some c)
    (hw : slotClean s x = true) (hf : finalDone (s.slot x) = true) (hl : s.ev.logOpen = true) :
    ((releaseComplete x s).slot x).state = .safeToRemove ∧ ((releaseComplete x s).slot x).pwren = false ∧
    ((releaseComplete x s).slot x).link = .down ∧
    (∃ c', ((releaseComplete x s).slot x).cart = some c' ∧ c'.lines = c.lines ∧ c'.sv.vcart = false) ∧
    (∃ e ∈ (releaseComplete x s).ev.intake, e.code = cCART_SAFE ∧ e.unit = uCT x) ∧
    (releaseComplete x s).slot x.other = s.slot x.other := by
  have hx : (released x s).slot x = lampSlot (offSlot (safeSlot (s.slot x))) := by
    simp only [released, modSlot_slot]
  have ho : (released x s).slot x.other = s.slot x.other := by simp only [released, modSlot_slot_other]
  have hlog : (released x s).ev.logOpen = true := by simp only [released, modSlot_ev, hl]
  obtain ⟨⟨n, hn⟩, hno, hnl⟩ := keepSlotWear_slots x (released x s)
  have hcart : (lampSlot (offSlot (safeSlot (s.slot x)))).cart = ((some c).map unpowered).map fun c =>
      { c with sv := { c.sv with lamp := 1 } } := hc ▸ rfl
  rw [releaseComplete_due hs hc hw hf, raiseSer_slot, raiseSer_slot, hn, hx]
  exact ⟨rfl, rfl, rfl, ⟨_, hcart, rfl, rfl⟩, raiseSer_mem_intake (hnl.trans hlog), hno.trans ho⟩

/-- A slot with another wear in transit. -/
def inTransit (n : Nat) (t : CtSlot) : CtSlot := { t with intransit := n }

/-- The wear in transit to a slot's cartridge alone may differ in the slots (R86). -/
def TransitOnly (x : Slot) (s t : State) : Prop :=
  (∃ n, t.slot x = inTransit n (s.slot x)) ∧ t.slot x.other = s.slot x.other

theorem TransitOnly.refl (x : Slot) (s : State) : TransitOnly x s s := ⟨⟨(s.slot x).intransit, rfl⟩, rfl⟩
theorem TransitOnly.of_ct {x : Slot} {s t : State} (h : t.ct = s.ct) : TransitOnly x s t :=
  ⟨⟨(s.slot x).intransit, slot_congr s h x⟩, slot_congr s h x.other⟩
theorem TransitOnly.trans {x : Slot} {s t u : State} (h : TransitOnly x s t) (k : TransitOnly x t u) : TransitOnly x s u := by
  obtain ⟨⟨n, hn⟩, ho⟩ := h
  obtain ⟨⟨m, hm⟩, ko⟩ := k
  exact ⟨⟨m, by rw [hm, hn]; rfl⟩, ko.trans ho⟩

/-- A write that ends settles its price at its own slot. -/
theorem transitOnly_cancelWrite (w : LineWrite) (s : State) : TransitOnly w.slot s (cancelWrite w s) := by
  have hd : TransitOnly w.slot s (dropTag? w.tag s) := .of_ct (dropTagOpt_ct s w.tag)
  unfold cancelWrite
  split
  · refine hd.trans ⟨⟨((dropTag? w.tag s).slot w.slot).intransit - w.tempo.price, ?_⟩, ?_⟩
    · exact (slot_congr _ (count_ct _ _ _) _).trans (modSlot_slot ..)
    · exact (slot_congr _ (count_ct _ _ _) _).trans (modSlot_slot_other ..)
  · exact hd

theorem transitOnly_cancelWrites {x : Slot} : ∀ (l : List LineWrite) (s : State), (∀ w ∈ l, w.slot = x) →
    TransitOnly x s (l.foldl (fun s w => cancelWrite w s) s)
  | [], s, _ => .refl x s
  | w :: l, s, h => by
    have hw : TransitOnly x s (cancelWrite w s) := h w List.mem_cons_self ▸ transitOnly_cancelWrite w s
    exact hw.trans (transitOnly_cancelWrites l _ fun v hv => h v (List.mem_cons_of_mem _ hv))

/-- Line-writes to a slot that end without a result change no slot but for its wear in transit (Table 1.4). -/
theorem transitOnly_dropWrites (x : Slot) (s : State) : TransitOnly x s (dropWrites x s) := by
  unfold dropWrites
  extract_lets mine u rest back
  have hu : TransitOnly x s u := transitOnly_cancelWrites mine s fun w hw => by simpa using (List.mem_filter.1 hw).2
  exact hu.trans (.of_ct rfl)

/-- A slot without tests to run or to its name. -/
def untested (t : CtSlot) : CtSlot := { t with insTests := [], tested := false }

/-- Other tests wait. -/
def withTodo (l : List (Fin 16)) (s : State) : State := { s with bt := { s.bt with todo := l } }

/-- Where no test runs, the tests of a slot are dropped from what waits (chapter 11, Corners). -/
theorem skipSlot_idle {x : Slot} {s : State} (hr : s.bt.running = []) (hn : s.bt.run ≠ 2) :
    ∃ l, skipSlot x s = modSlot x untested (withTodo l s) := by
  refine ⟨s.bt.todo.filter fun i => decide (testSlot i ≠ some x) || (decide (testOf i = 6) && booting s), ?_⟩
  rw [skipSlot, hr]
  exact endRun_outside (by rw [modSlot_bt]; exact hn)

theorem dropSlotCauses_outside {x : Slot} {s : State} (h : s.pw.state ≠ .rest) :
    (dropSlotCauses x s).ct = s.ct ∧ (dropSlotCauses x s).shelf = s.shelf ∧ (dropSlotCauses x s).duet = s.duet ∧
    (dropSlotCauses x s).ks = s.ks := by
  have hd : dropSlotCauses x s = _ := if_neg fun h' => h h'.1
  rw [hd]
  exact ⟨rfl, rfl, rfl, rfl⟩

/-- The slot's tests, its inhibit and its causes of REST are cleared away (R92, R130, R304). -/
def clearedAway (x : Slot) (s : State) : State := dropSlotCauses x (inhibitGone x (skipSlot x s))

/-- What the engine clears away once the slot is empty. -/
theorem clearedAway_effect {x : Slot} {s : State} (hr : s.bt.running = []) (hn : s.bt.run ≠ 2) (hp : s.pw.state = .active) :
    (clearedAway x s).slot x = untested (s.slot x) ∧ (clearedAway x s).slot x.other = s.slot x.other ∧
    (clearedAway x s).shelf = s.shelf ∧ (clearedAway x s).duet = s.duet ∧ (clearedAway x s).ks = s.ks := by
  obtain ⟨l, hl⟩ := skipSlot_idle (x := x) hr hn
  have hpw : (modSlot x untested (withTodo l s)).pw = s.pw := modSlot_pw ..
  obtain ⟨ict, iduet, -, ishelf, iks, ipw⟩ := inhibitGone_units (x := x) (s := modSlot x untested (withTodo l s))
    (by rw [hpw, hp]; decide)
  obtain ⟨dct, dshelf, dduet, dks⟩ := dropSlotCauses_outside (x := x) (s := inhibitGone x (modSlot x untested (withTodo l s)))
    (by rw [ipw, hpw, hp]; decide)
  have hct (y : Slot) : (clearedAway x s).slot y = (modSlot x untested (withTodo l s)).slot y := by
    rw [clearedAway, hl]
    exact slot_congr _ (dct.trans ict) y
  refine ⟨(hct x).trans (modSlot_slot ..), (hct _).trans (modSlot_slot_other ..), ?_, ?_, ?_⟩ <;> rw [clearedAway, hl]
  · exact dshelf.trans (ishelf.trans (modSlot_shelf ..))
  · exact dduet.trans (iduet.trans (modSlot_duet ..))
  · exact dks.trans (iks.trans (modSlot_ks ..))

/-- The slot that a cartridge has left. -/
def leftSlot (t : CtSlot) : CtSlot := { emptySlot t with state := .empty }

/-- The cartridge is outside. -/
def shelved (c : Option Cart) (s : State) : State := { s with shelf := s.shelf ++ c.toList }

theorem leaveSlot_seated {x : Slot} {s : State} (h : (s.slot x).state ≠ .debounce) :
    leaveSlot x s = modSlot x leftSlot (shelved (s.slot x).cart s) := by
  simp only [leaveSlot, h, false_and, if_false]
  rfl

/-- A slot whose presence has opened. -/
def openedSlot (t : CtSlot) : CtSlot := { t with kept := false, state := if t.state = .inService then .releasing else t.state }

/-- The slot's supply is off and its writes have ended. -/
def stripped (x : Slot) (s : State) : State := dropWrites x (modSlot x openedSlot (modSlot x offSlot s))

/-- Presence opens on a SAFE_TO_REMOVE slot: its writes end, it leaves, and nothing of the duet changes (R92). -/
theorem presenceOpen_safe {x : Slot} {c : Cart} {s : State} (hs : (s.slot x).state = .safeToRemove) (hc : (s.slot x).cart = some c)
    (hu : (s.slot x).uncharged = 0) : presenceOpen x s = clearedAway x (leaveSlot x (stripped x s)) := by
  have hk : keepSlotWear x (powerOff x s) = modSlot x offSlot s :=
    keepSlotWear_none ((congrArg CtSlot.uncharged (modSlot_slot s x offSlot)).trans hu)
  rw [presenceOpen, hk]
  simp only [hs, hc, Option.isNone_some, reduceCtorEq, Bool.false_eq_true, if_false, decide_true, Bool.true_or, if_true]
  rfl

theorem stripped_effect (x : Slot) (s : State) :
    (∃ n, (stripped x s).slot x = inTransit n (openedSlot (offSlot (s.slot x)))) ∧
    (stripped x s).slot x.other = s.slot x.other ∧ PipeKept (modSlot x openedSlot (modSlot x offSlot s)) (stripped x s) := by
  obtain ⟨⟨n, hn⟩, ho⟩ := transitOnly_dropWrites x (modSlot x openedSlot (modSlot x offSlot s))
  exact ⟨⟨n, hn.trans (congrArg (inTransit n) ((modSlot_slot ..).trans (congrArg openedSlot (modSlot_slot ..))))⟩,
    ho.trans ((modSlot_slot_other ..).trans (modSlot_slot_other ..)), pipeKept_dropWrites ..⟩

theorem presenceOpen_safe_effect {x : Slot} {c : Cart} {s : State} (hs : (s.slot x).state = .safeToRemove)
    (hc : (s.slot x).cart = some c) (hu : (s.slot x).uncharged = 0) (hr : s.bt.running = []) (hn : s.bt.run = 0)
    (hp : s.pw.state = .active) :
    ((presenceOpen x s).slot x).state = .empty ∧ ((presenceOpen x s).slot x).cart = none ∧
    (∃ c', (presenceOpen x s).shelf = s.shelf ++ [c'] ∧ c'.serial = c.serial ∧ c'.lines = c.lines ∧ c'.header = c.header ∧
      c'.hold = c.hold) ∧
    (presenceOpen x s).duet = s.duet ∧ (presenceOpen x s).slot x.other = s.slot x.other ∧ (presenceOpen x s).ks = s.ks := by
  obtain ⟨⟨n, hx⟩, ho, hk⟩ := stripped_effect x s
  have hbt : (stripped x s).bt = s.bt := hk.bt.trans ((modSlot_bt ..).trans (modSlot_bt ..))
  have hpw : (stripped x s).pw = s.pw := hk.pw.trans ((modSlot_pw ..).trans (modSlot_pw ..))
  have hduet : (stripped x s).duet = s.duet := hk.duet.trans ((modSlot_duet ..).trans (modSlot_duet ..))
  have hks : (stripped x s).ks = s.ks := hk.ks.trans ((modSlot_ks ..).trans (modSlot_ks ..))
  have hshelf : (stripped x s).shelf = s.shelf := hk.shelf.trans ((modSlot_shelf ..).trans (modSlot_shelf ..))
  have hst : ((stripped x s).slot x).state ≠ .debounce := by
    rw [hx]
    show (if (s.slot x).state = .inService then SlotState.releasing else (s.slot x).state) ≠ _
    rw [hs]
    decide
  have hcart : ((stripped x s).slot x).cart = some (unpowered c) :=
    (congrArg CtSlot.cart hx).trans (congrArg (Option.map unpowered) hc)
  rw [presenceOpen_safe hs hc hu, leaveSlot_seated hst, hcart]
  obtain ⟨cx, co, csh, cd, ck⟩ := clearedAway_effect (x := x) (s := modSlot x leftSlot (shelved (some (unpowered c)) (stripped x s)))
    (by rw [modSlot_bt]; exact (congrArg Bt.running hbt).trans hr)
    (by rw [modSlot_bt]; exact fun h => absurd ((congrArg Bt.run hbt).symm.trans h) (by rw [hn]; decide))
    (by rw [modSlot_pw]; exact (congrArg Pw.state hpw).trans hp)
  rw [cx, modSlot_slot]
  refine ⟨rfl, rfl, ⟨unpowered c, csh.trans ((modSlot_shelf ..).trans ?_), rfl, rfl, rfl, rfl⟩, cd.trans ((modSlot_duet ..).trans hduet),
    co.trans ((modSlot_slot_other ..).trans ?_), ck.trans ((modSlot_ks ..).trans hks)⟩
  · exact congrArg (· ++ [unpowered c]) hshelf
  · exact ho

/-! ### Release and REAUTH given, and SV_SOFT (Tables 3.9, 3.11) -/

theorem beginRelease_effect {x : Slot} {s : State} :
    ((beginRelease x s).slot x).state = .releasing ∧ ((beginRelease x s).slot x).svDue = [4, 6, 11] ∧
    ((beginRelease x s).slot x).cart = (s.slot x).cart ∧ (beginRelease x s).slot x.other = s.slot x.other ∧
    (beginRelease x s).ev = s.ev ∧ (beginRelease x s).duet = s.duet := by
  rw [beginRelease, modSlot_slot]
  exact ⟨rfl, rfl, rfl, modSlot_slot_other .., modSlot_ev .., modSlot_duet ..⟩

/-- A slot whose authentication starts again (R79). -/
def reauthSlot (n : Nat) (t : CtSlot) : CtSlot :=
  { t with
    link := .down, width := 0, typeCode := 0xF, identified := false, bound := false, foreign := false, kept := false
    outstanding := none, svDue := [], authTries := 0, authStart := n, failedRetrains := [], linkDegraded := false, state := .auth }

/-- REAUTH of a SPARE slot starts authentication again, as step I4 does (R79). -/
theorem reauth_spare_effect {x : Slot} {s : State} (hs : (s.slot x).state = .spare) (hu : (s.slot x).uncharged = 0)
    (hr : s.bt.running = []) (hn : s.bt.run = 0) :
    ((reauth x s).slot x).state = .auth ∧ ((reauth x s).slot x).identified = false ∧ ((reauth x s).slot x).bound = false ∧
    ((reauth x s).slot x).link = .down ∧ ((reauth x s).slot x).authStart = s.now ∧
    ((reauth x s).slot x).cart = (s.slot x).cart ∧ (reauth x s).slot x.other = s.slot x.other := by
  obtain ⟨l, hl⟩ := skipSlot_idle (x := x) hr (by rw [hn]; decide)
  have he : reauth x s = modSlot x (reauthSlot (modSlot x untested (withTodo l s)).now) (modSlot x untested (withTodo l s)) := by
    rw [reauth, keepSlotWear_none hu, hl]
    exact if_neg fun h => absurd (hs.symm.trans h) (by decide)
  rw [he, modSlot_slot, modSlot_slot]
  exact ⟨rfl, rfl, rfl, rfl, modSlot_now .., rfl, (modSlot_slot_other ..).trans (modSlot_slot_other ..)⟩

theorem svSoft_effect (x : Slot) (s : State) :
    ((modSlot x (withSoft true s.now) s).slot x).svSoft = true ∧ ((modSlot x (withSoft true s.now) s).slot x).softSince = s.now ∧
    modSlot x (withSoft true s.now) s = modSlot x (fun _ => (modSlot x (withSoft true s.now) s).slot x) s := by
  rw [modSlot_slot]
  exact ⟨rfl, rfl, modSlot_put ..⟩

theorem softTimeout_due {x : Slot} {s : State} (hs : (s.slot x).svSoft = true) (hn : (s.slot x).softSince + 100 * ms ≤ s.now)
    (ht : s.sp1.txn = none) :
    softTimeout x s = raise (uCT x) cSV_SOFT_TIMEOUT noCtx (lo32 x.num) 0 0 (modSlot x (fun t => { t with svSoft := false }) s) :=
  if_pos ⟨hs, hn, by rw [ht]; rfl⟩

/-- What the end of software's select leaves (R262). -/
theorem softTimeout_effect {x : Slot} {s : State} (hs : (s.slot x).svSoft = true) (hn : (s.slot x).softSince + 100 * ms ≤ s.now)
    (ht : s.sp1.txn = none) (hl : s.ev.logOpen = true) :
    ((softTimeout x s).slot x).svSoft = false ∧
    (∃ e ∈ (softTimeout x s).ev.intake, e.code = cSV_SOFT_TIMEOUT ∧ e.unit = uCT x) ∧ (softTimeout x s).pc = s.pc ∧
    (softTimeout x s).duet = s.duet := by
  rw [softTimeout_due hs hn ht, raise_slot, modSlot_slot, raise_pc, modSlot_pc, raise_duet, modSlot_duet]
  exact ⟨rfl, raiseF_mem_intake ((congrArg Ev.logOpen (modSlot_ev ..)).trans hl), rfl, rfl⟩

/-- Settles O41: a write of CT_CTRL is taken by `judge_ctCtrl`, a removal leaves what `presenceOpen_safe_effect` says. -/
theorem releaseRemovalAndReauthentication : Obligations.ReleaseRemovalAndReauthentication :=
  ⟨fun s _ _ h hu hs hf _ => ⟨_, ctCtrl_command h (judge_release (s := noOut s) h.afterReplay hu hs hf), beginRelease_effect⟩,
    fun s _ _ hs hc hw hf hl => ⟨_, rfl, releaseComplete_effect (s := noOut s) hs hc hw hf hl⟩,
    fun s _ _ hs hc hu hr hn hp _ => ⟨_, rfl, presenceOpen_safe_effect (s := noOut s) hs hc hu hr hn hp⟩,
    fun s _ _ h ht hc hs hu _ hr hn => ⟨_, ctCtrl_command h (judge_reauth (s := noOut s) h.afterReplay ht hc hs),
      reauth_spare_effect (s := noOut s) hs hu hr hn⟩,
    fun s _ _ h ht hs => ⟨_, ctCtrl_command h (judge_svSoft (s := noOut s) h.afterReplay ht hs), svSoft_effect _ (noOut s)⟩,
    fun s _ hs hn ht hl => ⟨_, rfl, softTimeout_effect (s := noOut s) hs hn ht hl⟩⟩

end Sys2Proof.Machine

namespace Sys2Proof.Machine

/-! ### The wear of a line-write of the engine's own (R83, R84) -/

/-- A slot with another uncharged wear, and EOL_WARN as that makes it. -/
def spentSlot (n : Nat) (w : Bool) (t : CtSlot) : CtSlot := { t with uncharged := n, eolWarn := w }

/-- A charge is added to a slot's wear, and can set EOL_WARN; nothing else of the slots changes. -/
theorem chargeSlot_effect (x : Slot) (n : Nat) (s : State) :
    (∃ w, (chargeSlot x n s).slot x = spentSlot ((s.slot x).uncharged + n) w (s.slot x)) ∧
    (chargeSlot x n s).slot x.other = s.slot x.other ∧ Logged s (chargeSlot x n s) := by
  unfold chargeSlot
  extract_lets u t
  have hx : u.slot x = spentSlot ((s.slot x).uncharged + n) (s.slot x).eolWarn (s.slot x) := modSlot_slot ..
  have ho : u.slot x.other = s.slot x.other := modSlot_slot_other ..
  have hl : Logged s u := .of_ev (modSlot_ev ..)
  split
  · refine ⟨⟨true, (raiseSer_slot ..).trans ((modSlot_slot ..).trans ?_)⟩, (raiseSer_slot ..).trans ((modSlot_slot_other ..).trans ho),
      (hl.trans (.of_ev (modSlot_ev ..))).trans (logged_raiseF ..)⟩
    rw [hx]
    rfl
  · exact ⟨⟨(s.slot x).eolWarn, hx⟩, ho, hl⟩

@[simp] theorem count_slot (c : Ctx) (f : Counters → Counters) (s : State) (x : Slot) : (count c f s).slot x = s.slot x :=
  slot_congr s (count_ct s c f) x

theorem engineWrites_effect (x : Slot) (t : Tempo) (n : Nat) (s : State) :
    (∃ w, (engineWrites x t n s).slot x = spentSlot ((s.slot x).uncharged + n * t.price) w (s.slot x)) ∧
    Logged s (engineWrites x t n s) ∧ (engineWrites x t n s).lg.live[provider] = addWear t n s.lg.live[provider] := by
  obtain ⟨⟨w, hx⟩, -, hl⟩ := chargeSlot_effect x (n * t.price) s
  refine ⟨⟨w, (count_slot ..).trans hx⟩, hl.trans (.of_ev rfl), ?_⟩
  rw [engineWrites, count_live, chargeSlot_lg]

/-! ### Binding (R80, R82) -/

/-- A cartridge with the engine's binding tag of a generation (R82). -/
def tagged (gen : Nat) (c : Cart) : Cart := { c with header := true, tagEngine := engineId, tagGen := gen }

/-- A slot with other contents of its cartridge. -/
def withCart (f : Cart → Cart) (t : CtSlot) : CtSlot := { t with cart := t.cart.map f }

/-- The header's line passes its first try: it counts toward its bank's gap move. -/
theorem writeTag_eq (x : Slot) (s : State) : writeTag x s = modSlot x (withCart (tagged s.duet.gen))
    (bumpGap x ((s.slot x).cart.elim 0 fun c => headerBase c.big) 1 (engineWrites x .lento 1 s)) := rfl

/-- What a tag on a cartridge leaves of its slot and of the provider's wear. -/
theorem writeTag_effect (x : Slot) (s : State) :
    (∃ n w, (writeTag x s).slot x = withCart (tagged s.duet.gen) (spentSlot n w (s.slot x))) ∧
    (writeTag x s).lg.live[provider] = addWear .lento 1 s.lg.live[provider] := by
  obtain ⟨⟨w, hx⟩, -, hlg⟩ := engineWrites_effect x .lento 1 s
  have hb (n : Nat) : (bumpGap x n 1 (engineWrites x .lento 1 s)).slot x = (engineWrites x .lento 1 s).slot x := slot_congr _ rfl x
  rw [writeTag_eq]
  refine ⟨⟨_, w, (modSlot_slot ..).trans (congrArg _ ((hb _).trans hx))⟩, ?_⟩
  rw [modSlot_lg]
  exact hlg

/-- Work on the binding leaves the hold slots, the channels and what the duet does alone. -/
def BindKept (s t : State) : Prop :=
  t.pc = s.pc ∧ t.dm = s.dm ∧ t.duet.state = s.duet.state ∧ t.duet.format = s.duet.format ∧ t.duet.plan = s.duet.plan ∧
  t.duet.cutPending = s.duet.cutPending ∧ Logged s t

theorem BindKept.refl (s : State) : BindKept s s := ⟨rfl, rfl, rfl, rfl, rfl, rfl, .refl s⟩

theorem BindKept.trans {s t u : State} (h : BindKept s t) (k : BindKept t u) : BindKept s u := by
  obtain ⟨h1, h2, h3, h4, h5, h6, hl⟩ := h
  obtain ⟨k1, k2, k3, k4, k5, k6, kl⟩ := k
  exact ⟨k1.trans h1, k2.trans h2, k3.trans h3, k4.trans h4, k5.trans h5, k6.trans h6, hl.trans kl⟩

theorem writeTag_duet (x : Slot) (s : State) : (writeTag x s).duet = s.duet :=
  (modSlot_duet ..).trans (chargeSlot_duet ..)

theorem bindKept_writeTag (x : Slot) (s : State) : BindKept s (writeTag x s) := by
  have hd := writeTag_duet x s
  refine ⟨(modSlot_pc ..).trans (chargeSlot_pc ..), (modSlot_dm ..).trans (chargeSlot_dm ..), by rw [hd], by rw [hd], by rw [hd],
    by rw [hd], (engineWrites_effect x .lento 1 s).2.1.trans (.of_ev (modSlot_ev ..))⟩

theorem bindKept_formBinding (b : Binding) (s : State) : BindKept s (formBinding b s) :=
  ⟨rfl, rfl, rfl, rfl, rfl, rfl, .of_ev rfl⟩

theorem bindKept_writeTags : ∀ (l : List Slot) (s : State), BindKept s (l.foldl (fun s x => writeTag x s) s)
  | [], s => .refl s
  | x :: l, s => (bindKept_writeTag x s).trans (bindKept_writeTags l _)

/-- The duet of the next generation, with no binding due. -/
def nextDuet (d : DuetUnit) : DuetUnit := { d with bindDue := none, gen := (d.gen + 1) % 2 ^ 32 }

/-- The state in which a binding record is made: the generation has advanced (R82). -/
def nextGen (s : State) : State := { s with duet := nextDuet s.duet }

/-- A binding is made once every cartridge it names can take its tag. -/
theorem settleBind_due {code : Duet} {s : State} (h : s.duet.bindDue = some code) :
    settleBind s = if (nextBinding code s).1.all (fun x => tagReady s x) then
        let t := (nextBinding code (nextGen s)).1.foldl (fun s x => writeTag x s) (nextGen s)
        formBinding (nextBinding code t).2 t
      else s := by
  simp only [settleBind, h]
  rfl

theorem bindKept_settleBind (s : State) : BindKept s (settleBind s) := by
  cases h : s.duet.bindDue with
  | none =>
    simp only [settleBind, h]
    exact .refl s
  | some code =>
    rw [settleBind_due h]
    split
    · exact (BindKept.trans (t := nextGen s) ⟨rfl, rfl, rfl, rfl, rfl, rfl, .of_ev rfl⟩ (bindKept_writeTags _ _)).trans
        (bindKept_formBinding ..)
    · exact .refl s

/-- A binding is owed. -/
def askBinding (code : Duet) (s : State) : State := { s with duet := { s.duet with bindDue := some code } }

theorem bindKept_rebind (code : Duet) (s : State) : BindKept s (rebind code s) :=
  BindKept.trans (t := askBinding code s) ⟨rfl, rfl, rfl, rfl, rfl, rfl, .of_ev rfl⟩ (bindKept_settleBind _)

/-- The cartridges that the next binding names, by the duet's state and its present binding. -/
theorem nextBinding_slots (code : Duet) (s : State) : (nextBinding code s).1 =
    if s.duet.state = .migrateCut then [s.duet.source.other] else bothSlots.filter fun x => s.duet.names x := by
  unfold nextBinding
  split <;> rfl

/-- A binding that names one cartridge, which can take its tag, is made at once: what it leaves of the generation, the slots and the
provider's wear (R82). -/
theorem rebind_one {code : Duet} {x : Slot} {s : State} (hn : (nextBinding code s).1 = [x]) (hr : tagReady s x = true) :
    (rebind code s).duet = nextDuet s.duet ∧
    (∃ n w, (rebind code s).slot x = withCart (tagged ((s.duet.gen + 1) % 2 ^ 32)) (spentSlot n w (s.slot x))) ∧
    (rebind code s).lg.live[provider] = addWear .lento 1 s.lg.live[provider] := by
  have he : rebind code s = formBinding (nextBinding code (writeTag x (nextGen s))).2 (writeTag x (nextGen s)) := by
    rw [nextBinding_slots] at hn
    have hd : (nextBinding code (askBinding code s)).1 = [x] := (nextBinding_slots ..).trans hn
    have hg : (nextBinding code (nextGen (askBinding code s))).1 = [x] := (nextBinding_slots ..).trans hn
    have hr' : tagReady (askBinding code s) x = true := hr
    rw [show rebind code s = settleBind (askBinding code s) from rfl, settleBind_due (code := code) rfl, hd, hg]
    exact if_pos (by rw [List.all_cons, hr']; rfl)
  obtain ⟨⟨n, w, hx⟩, hl⟩ := writeTag_effect x (nextGen s)
  rw [he]
  exact ⟨writeTag_duet x (nextGen s), ⟨n, w, hx⟩, hl⟩

/-! ### SOLO (Table 3.8) -/

/-- The duet in another state. -/
def inDuet (d : Duet) (u : DuetUnit) : DuetUnit := { u with state := d }

theorem goDuet_duet (d : Duet) (s : State) : (goDuet d s).duet = inDuet d s.duet := by
  unfold goDuet
  split
  next h => exact h ▸ rfl
  next => exact congrArg (inDuet d) (trace_duet s _ _ _ _)

theorem logged_goDuet (d : Duet) (s : State) : Logged s (goDuet d s) := by
  unfold goDuet
  split
  · exact .refl s
  · exact (logged_trace ..).trans (.of_ev rfl)

/-- The other cartridge leaves service where it was in it. -/
def spareOther (x : Slot) (s : State) : State := if (s.slot x.other).state = .inService then toSpare x.other s else s

/-- The duet that names one slot alone in service. -/
def soloDuet (x : Slot) (m n : BitVec 64) (d : DuetUnit) : DuetUnit :=
  { d with inA := decide (x = .a), inB := decide (x = .b), serialA := m, serialB := n, holdB := decide (x = .b) }

theorem soloDuet_names (x : Slot) (m n : BitVec 64) (d : DuetUnit) :
    (soloDuet x m n d).names x = true ∧ (soloDuet x m n d).names x.other = false := by cases x <;> exact ⟨rfl, rfl⟩

/-- SOLO of a slot, before the binding is made. -/
def soloOn (x : Slot) (s : State) : State :=
  let s := bindSlots (decide (x = .a)) (decide (x = .b)) s
  { s with duet := { s.duet with holdB := decide (x = .b) } }

/-- The duet in SOLO of a slot, before the binding is made. -/
def soloBound (x : Slot) (s : State) : State := soloOn x (goDuet (soloOf x) (spareOther x s))

theorem becomeSolo_eq (x : Slot) (s : State) : becomeSolo x s = rebind (soloOf x) (soloBound x s) := rfl

theorem inhibited_congr {s t : State} (hn : t.now = s.now) (ha : t.md.inhA = s.md.inhA) (hb : t.md.inhB = s.md.inhB)
    (x : Slot) : inhibited t x = inhibited s x := by
  cases x
  · rw [inhibited, inhibited, hn, inhibitedAt, ha]
    rfl
  · rw [inhibited, inhibited, hn, inhibitedAt, hb]
    rfl

theorem other_other (x : Slot) : x.other.other = x := by cases x <;> rfl
theorem ne_other (x : Slot) : x ≠ x.other := by cases x <;> decide

/-- What SOLO changes of its own state is the duet and the other slot. -/
theorem spareOther_units (x : Slot) (s : State) :
    (spareOther x s).slot x = s.slot x ∧ (spareOther x s).now = s.now ∧ (spareOther x s).md = s.md ∧ (spareOther x s).lg = s.lg ∧
    (spareOther x s).pc = s.pc ∧ (spareOther x s).dm = s.dm ∧ (spareOther x s).duet = s.duet ∧ (spareOther x s).ev = s.ev := by
  unfold spareOther
  split
  · exact ⟨modSlot_slot_ne s x.other x _ (ne_other x), modSlot_now .., modSlot_md .., modSlot_lg .., modSlot_pc .., modSlot_dm ..,
      modSlot_duet .., modSlot_ev ..⟩
  · exact ⟨rfl, rfl, rfl, rfl, rfl, rfl, rfl, rfl⟩

theorem soloOn_units (x : Slot) (s : State) :
    (∃ m n, (soloOn x s).duet = soloDuet x m n s.duet) ∧ (soloOn x s).slot x = s.slot x ∧ (soloOn x s).now = s.now ∧
    (soloOn x s).md = s.md ∧ (soloOn x s).lg = s.lg ∧ (soloOn x s).pc = s.pc ∧ (soloOn x s).dm = s.dm ∧ (soloOn x s).ev = s.ev :=
  ⟨⟨_, _, rfl⟩, slot_congr s rfl x, rfl, rfl, rfl, rfl, rfl, rfl⟩

/-- SOLO leaves its slot as it is, and names it alone in service. -/
theorem soloBound_effect (x : Slot) (s : State) :
    (∃ m n, (soloBound x s).duet = soloDuet x m n (inDuet (soloOf x) s.duet)) ∧ (soloBound x s).slot x = s.slot x ∧
    (∀ y, inhibited (soloBound x s) y = inhibited s y) ∧ (soloBound x s).lg = s.lg ∧ (soloBound x s).pc = s.pc ∧
    (soloBound x s).dm = s.dm ∧ Logged s (soloBound x s) := by
  obtain ⟨hx, hnow, hmd, hlg, hpc, hdm, hd, hev⟩ := spareOther_units x s
  have gct := goDuet_ct (spareOther x s) (soloOf x)
  have gd := goDuet_duet (soloOf x) (spareOther x s)
  have gnow := goDuet_now (spareOther x s) (soloOf x)
  have gmd := goDuet_md (spareOther x s) (soloOf x)
  have glg := goDuet_lg (spareOther x s) (soloOf x)
  have gpc := goDuet_pc (spareOther x s) (soloOf x)
  have gdm := goDuet_dm (spareOther x s) (soloOf x)
  have gl := logged_goDuet (soloOf x) (spareOther x s)
  unfold soloBound
  generalize goDuet (soloOf x) (spareOther x s) = g at *
  obtain ⟨⟨m, n, od⟩, ox, onow, omd, olg, opc, odm, oev⟩ := soloOn_units x g
  have hmd' := omd.trans (gmd.trans hmd)
  exact ⟨⟨m, n, od.trans (congrArg (soloDuet x m n) (gd.trans (congrArg _ hd)))⟩, ox.trans ((slot_congr _ gct x).trans hx),
    inhibited_congr (onow.trans (gnow.trans hnow)) (congrArg Md.inhA hmd') (congrArg Md.inhB hmd'), olg.trans (glg.trans hlg),
    opc.trans (gpc.trans hpc), odm.trans (gdm.trans hdm), ((Logged.of_ev hev).trans gl).trans (.of_ev oev)⟩

/-- SOLO of a slot that can take its tag: the duet, the slot and the provider's wear that it leaves (Table 3.8, R82). -/
theorem becomeSolo_effect {x : Slot} {s : State} (hr : tagReady s x = true) :
    (∃ m n, (becomeSolo x s).duet = nextDuet (soloDuet x m n (inDuet (soloOf x) s.duet))) ∧
    (∃ n w, (becomeSolo x s).slot x = withCart (tagged ((s.duet.gen + 1) % 2 ^ 32)) (spentSlot n w (s.slot x))) ∧
    (becomeSolo x s).lg.live[provider] = addWear .lento 1 s.lg.live[provider] := by
  obtain ⟨⟨m, n, hd⟩, hx, hi, hlg, -⟩ := soloBound_effect x s
  have hr' : tagReady (soloBound x s) x = true := by rwa [tagReady, hx, hi]
  have hn : (nextBinding (soloOf x) (soloBound x s)).1 = [x] := by
    rw [nextBinding_slots, hd]
    cases x <;> rfl
  obtain ⟨hd', ⟨k, w, hk⟩, hl⟩ := rebind_one hn hr'
  rw [hx, hd] at hk
  rw [becomeSolo_eq]
  exact ⟨⟨m, n, hd'.trans (congrArg nextDuet hd)⟩, ⟨k, w, hk⟩, hl.trans (by rw [hlg])⟩

/-- What SOLO leaves of the units besides its slots and its binding. -/
theorem becomeSolo_kept (x : Slot) (s : State) :
    (becomeSolo x s).pc = s.pc ∧ (becomeSolo x s).dm = s.dm ∧ (becomeSolo x s).duet.state = soloOf x ∧
    (becomeSolo x s).duet.format = s.duet.format ∧ (becomeSolo x s).duet.plan = s.duet.plan ∧ Logged s (becomeSolo x s) := by
  obtain ⟨⟨m, n, hd⟩, -, -, -, hpc, hdm, hl⟩ := soloBound_effect x s
  obtain ⟨k1, k2, k3, k4, k5, -, kl⟩ := bindKept_rebind (soloOf x) (soloBound x s)
  rw [hd] at k3 k4 k5
  exact ⟨k1.trans hpc, k2.trans hdm, k3, k4, k5, hl.trans kl⟩

/-! ### A full format (R96, R388) -/

/-- A format that is over. -/
def formatOver (s : State) : State := { s with duet := { s.duet with format := none } }

theorem bumpBanks_units (x : Slot) (n : Nat) (s : State) :
    (bumpBanks x n s).ct = s.ct ∧ (bumpBanks x n s).now = s.now ∧ (bumpBanks x n s).md.inhA = s.md.inhA ∧
    (bumpBanks x n s).md.inhB = s.md.inhB ∧ (bumpBanks x n s).duet = s.duet ∧ (bumpBanks x n s).lg = s.lg := by
  unfold bumpBanks
  extract_lets count
  exact ⟨rfl, rfl, rfl, rfl, rfl, rfl⟩

/-- A format without failed lines writes the cartridge's contents, and its line-writes are charged to the provider (R388). -/
theorem formatCart_effect (full : Bool) (x : Slot) (s : State) :
    (∃ n w, (formatCart full [] x s).slot x = withCart (formatted full) (spentSlot n w (s.slot x))) ∧
    (formatCart full [] x s).duet = s.duet ∧ (∀ y, inhibited (formatCart full [] x s) y = inhibited s y) ∧
    (formatCart full [] x s).lg.live[provider] = addWear .moderato (formatLines full) s.lg.live[provider] := by
  obtain ⟨⟨w, hx⟩, -, hlg⟩ := engineWrites_effect x .moderato (formatLines full) s
  have hnow : (engineWrites x .moderato (formatLines full) s).now = s.now := chargeSlot_now ..
  have hmd : (engineWrites x .moderato (formatLines full) s).md = s.md := chargeSlot_md ..
  have hduet : (engineWrites x .moderato (formatLines full) s).duet = s.duet := chargeSlot_duet ..
  have he : formatCart full [] x s = modSlot x (withCart (formatted full))
      (bumpBanks x (formatLines full / 128) (engineWrites x .moderato (formatLines full) s)) := rfl
  generalize engineWrites x .moderato (formatLines full) s = u at *
  obtain ⟨bct, bnow, ba, bb, bd, bl⟩ := bumpBanks_units x (formatLines full / 128) u
  rw [he]
  refine ⟨⟨_, w, (modSlot_slot ..).trans (congrArg _ ((slot_congr _ bct x).trans hx))⟩, (modSlot_duet ..).trans (bd.trans hduet),
    fun y => ?_, ?_⟩
  · exact inhibited_congr ((modSlot_now ..).trans (bnow.trans hnow)) (by rw [modSlot_md, ba, hmd]) (by rw [modSlot_md, bb, hmd]) y
  · rw [modSlot_lg, bl, hlg]

/-- A slot whose cartridge is BOUND. -/
def servingSlot (t : CtSlot) : CtSlot := { t with state := .inService, bound := true, foreign := false }

/-- A seated cartridge that enters service is BOUND; the duet notes the MiB that it takes (R96). -/
theorem toService_effect {x : Slot} {s : State} (hc : (s.slot x).cart.isSome = true) :
    (toService x s).slot x = servingSlot (s.slot x) ∧ (toService x s).duet.format = s.duet.format ∧
    (toService x s).duet.gen = s.duet.gen ∧ (∀ y, inhibited (toService x s) y = inhibited s y) ∧ (toService x s).lg = s.lg := by
  have hn (u : State) : (noteMib x u).slot x = u.slot x ∧ (noteMib x u).duet.format = u.duet.format ∧
      (noteMib x u).duet.gen = u.duet.gen ∧ (noteMib x u).now = u.now ∧ (noteMib x u).md = u.md ∧ (noteMib x u).lg = u.lg := by
    cases x <;> exact ⟨rfl, rfl, rfl, rfl, rfl, rfl⟩
  obtain ⟨h1, h2, h3, h4, h5, h6⟩ := hn (modSlot x (fun t => if t.cart.isSome then servingSlot t else t) s)
  rw [modSlot_now] at h4
  rw [modSlot_md] at h5
  rw [modSlot_duet] at h2 h3
  exact ⟨h1.trans ((modSlot_slot ..).trans (if_pos hc)), h2, h3,
    inhibited_congr h4 (congrArg Md.inhA h5) (congrArg Md.inhB h5), h6.trans (modSlot_lg ..)⟩

theorem addWear_wear (t u : Tempo) (m n : Nat) (k : Counters) :
    (addWear u n (addWear t m k)).wear = k.wear + BitVec.ofNat 40 (m * t.price + n * u.price) := by
  have h (v : Tempo) (i : Nat) (j : Counters) : (addWear v i j).wear = j.wear + BitVec.ofNat 40 (i * v.price) := by
    cases v <;> rfl
  rw [h, h, BitVec.add_assoc, ← BitVec.ofNat_add]

/-- The slot whose cartridge was formatted, as it enters service. -/
def formattedSlot (n : Nat) (w : Bool) (t : CtSlot) : CtSlot := servingSlot (withCart (formatted true) (spentSlot n w t))

/-- The format's end up to SOLO. -/
def formatEntered (x : Slot) (s : State) : State := toService x (formatCart true [] x (formatOver s))

/-- The formatted cartridge enters service (R96, R388). -/
theorem formatEntered_effect {x : Slot} {s : State} (hc : (s.slot x).cart.isSome = true) :
    (∃ n w, (formatEntered x s).slot x = formattedSlot n w (s.slot x)) ∧ (formatEntered x s).duet.format = none ∧
    (formatEntered x s).duet.gen = s.duet.gen ∧ (∀ y, inhibited (formatEntered x s) y = inhibited s y) ∧
    (formatEntered x s).lg.live[provider] = addWear .moderato 245760 s.lg.live[provider] := by
  obtain ⟨⟨n, w, hx⟩, hd, hin, hl⟩ := formatCart_effect true x (formatOver s)
  rw [slot_congr s (t := formatOver s) rfl x] at hx
  have hcart : ((formatCart true [] x (formatOver s)).slot x).cart.isSome = true := by
    rw [hx]
    exact Option.isSome_map.trans hc
  obtain ⟨hx', hfm, hgen, hin', hl'⟩ := toService_effect hcart
  exact ⟨⟨n, w, hx'.trans (congrArg servingSlot hx)⟩, hfm.trans (congrArg DuetUnit.format hd), hgen.trans ((congrArg DuetUnit.gen hd).trans rfl),
    fun y => (hin' y).trans (hin y), by rw [formatEntered, hl']; exact hl⟩

/-- The format of a slot whose cartridge is still SPARE ends in SOLO of that slot. -/
theorem formatDone_solo {x : Slot} {s : State} (hf : s.duet.format = some (.solo x)) (hs : (s.slot x).state = .spare)
    (hi : inhibited s x = false) :
    formatDone [] s = becomeSolo x (formatEntered x s) := by
  rw [formatDone, hf]
  exact if_neg (by simp [AfterFormat.slots, hs, hi])

/-- What a full format of a slot's cartridge leaves: SOLO of the slot, under the next generation of the binding (R96, R388). -/
def FormattedSolo (x : Slot) (c : Cart) (s t : State) : Prop :=
  t.duet.state = soloOf x ∧ t.duet.format = none ∧ (t.slot x).state = .inService ∧ (t.slot x).bound = true ∧
  (∃ c', (t.slot x).cart = some c' ∧ c'.header = true ∧ c'.hold = {} ∧ c'.quarantine = [] ∧ c'.trace = [] ∧ c'.serial = c.serial) ∧
  t.duet.names x = true ∧ t.duet.names x.other = false ∧ t.duet.gen = (s.duet.gen + 1) % 2 ^ 32 ∧
  t.lg.live[provider].wear = s.lg.live[provider].wear + BitVec.ofNat 40 (245760 * Tempo.moderato.price + Tempo.lento.price)

/-- SOLO of a slot whose cartridge was formatted. -/
theorem formattedSolo_becomeSolo {x : Slot} {c : Cart} {n : Nat} {w : Bool} {s u : State}
    (hx : u.slot x = formattedSlot n w (s.slot x)) (hc : (s.slot x).cart = some c) (ht : (s.slot x).tested = true)
    (hi : inhibited u x = false) (hf : u.duet.format = none) (hg : u.duet.gen = s.duet.gen)
    (hl : u.lg.live[provider] = addWear .moderato 245760 s.lg.live[provider]) : FormattedSolo x c s (becomeSolo x u) := by
  have hcart : (formattedSlot n w (s.slot x)).cart = some (formatted true c) := congrArg (Option.map _) hc
  have hr : tagReady u x = true := by
    rw [tagReady, hi, hx, CtSlot.serves, hcart, show (formattedSlot n w (s.slot x)).tested = true from ht]
    rfl
  obtain ⟨⟨i, j, hd⟩, ⟨k, v, hk⟩, hw⟩ := becomeSolo_effect hr
  obtain ⟨hna, hnb⟩ := soloDuet_names x i j (inDuet (soloOf x) u.duet)
  rw [hx] at hk
  rw [hl] at hw
  rw [FormattedSolo, hd, hk, hw, ← hg]
  exact ⟨rfl, hf, rfl, rfl, ⟨_, congrArg (Option.map _) hcart, rfl, rfl, rfl, rfl, rfl⟩, hna, hnb, rfl, addWear_wear ..⟩

/-- A full format leaves its cartridge in service, as SOLO (R96, R388). -/
theorem formatDone_solo_effect {x : Slot} {c : Cart} {s : State} (hf : s.duet.format = some (.solo x))
    (hc : (s.slot x).cart = some c) (ht : (s.slot x).tested = true) (hs : (s.slot x).state = .spare) (hi : inhibited s x = false) :
    FormattedSolo x c s (formatDone [] s) := by
  obtain ⟨⟨n, w, hx⟩, hfm, hgen, hin, hl⟩ := formatEntered_effect (x := x) (s := s) (by rw [hc]; rfl)
  rw [formatDone_solo hf hs hi]
  exact formattedSolo_becomeSolo hx hc ht ((hin x).trans hi) hfm hgen hl

/-! ### The end of a copy (R98, Table 3.8) -/

theorem mapV_get {α β : Type} {n : Nat} (v : Vector α n) (f : α → β) (i : Fin n) : (mapV v f)[i] = f v[i] := by
  simp [mapV]

theorem stopped_copy (now : Nat) (c : DmaCh) : (DmaCh.stopped now c).copy = false := by
  unfold DmaCh.stopped
  split
  · rfl
  next h => exact Bool.eq_false_iff.2 h

/-- The duet without a copy's plan. -/
def noPlan (d : DuetUnit) : DuetUnit := { d with plan := [], ringCopy := none }

/-- The end of a copy leaves no channel and no plan of it. -/
theorem stopCopy_effect (s : State) :
    (stopCopy s).duet = noPlan s.duet ∧
    (∀ n : Fin 32, (stopCopy s).dm.ch[n].copy = false) ∧ Logged s (stopCopy s) := by
  unfold stopCopy
  extract_lets tags u v
  have hu : PipeKept s u := .foldl (fun _ _ => .of_still rfl) tags s
  have hv : PipeKept s v := hu.trans (.foldl (fun s w => pipeKept_cancelWrite w s) _ u)
  refine ⟨?_, fun n => ?_, hv.2.2.trans (.of_ev rfl)⟩
  · exact congrArg noPlan hv.duet
  · exact (congrArg DmaCh.copy (mapV_get v.dm.ch (DmaCh.stopped v.now) n)).trans (stopped_copy ..)

theorem retire_units (id : Nat) (s : State) : (retire id s).pc = s.pc ∧ (retire id s).dm = s.dm := by
  unfold retire
  split
  · exact ⟨rfl, rfl⟩
  next r _ =>
    extract_lets u gl v
    have hv : v.pc = s.pc ∧ v.dm = s.dm := ⟨dropTagOpt_pc s r.tag, dropTagOpt_dm s r.tag⟩
    split
    · rwa [send_pc, send_dm]
    · exact hv

theorem lineVerified_units (id : Nat) (s : State) : (lineVerified id s).pc = s.pc ∧ (lineVerified id s).dm = s.dm := by
  unfold lineVerified
  extract_lets u
  have hu : u.pc = s.pc ∧ u.dm = s.dm := ⟨rfl, rfl⟩
  split
  · split
    · exact ⟨(retire_units id u).1.trans hu.1, (retire_units id u).2.trans hu.2⟩
    · exact hu
  · exact hu

/-- A slot that is done leaves the hold area's other slots, and every channel. -/
theorem slotDone_units (id : Nat) (s : State) :
    (∀ h ∈ (slotDone id s).pc.slots, h ∈ s.pc.slots) ∧ (slotDone id s).dm = s.dm := by
  unfold slotDone
  split
  · exact ⟨fun _ h => h, rfl⟩
  next h _ =>
    extract_lets rel pc u
    have hf := foldl_keeps (fun t : State => (t.pc, t.dm)) (fun s r => lineVerified r s)
      (fun t r => Prod.ext (lineVerified_units r t).1 (lineVerified_units r t).2) h.reqs u
    obtain ⟨hp, hm⟩ := Prod.ext_iff.1 hf
    refine ⟨fun g hg => ?_, hm⟩
    rw [show (List.foldl _ u h.reqs).pc = u.pc from hp] at hg
    exact (List.mem_filter.1 hg).1

theorem markResync_units (x : Slot) (l : Nat) (s : State) : (markResync x l s).pc = s.pc ∧ (markResync x l s).dm = s.dm := by
  unfold markResync
  extract_lets r
  split
  · exact ⟨modCart_pc .., modCart_dm ..⟩
  · exact ⟨rfl, rfl⟩

/-- A slot is freed once no home of its line is left. -/
def freeIfClean (s : State) (h : HoldSlot) : State :=
  match s.pc.slots.find? fun g => g.id = h.id with
  | some g => if g.left.isEmpty then slotDone g.id s else s
  | none => s

theorem freeIfClean_units (h : HoldSlot) (s : State) :
    (∀ g ∈ (freeIfClean s h).pc.slots, g ∈ s.pc.slots) ∧ (freeIfClean s h).dm = s.dm := by
  unfold freeIfClean
  split
  · split
    · exact slotDone_units ..
    · exact ⟨fun _ hg => hg, rfl⟩
  · exact ⟨fun _ hg => hg, rfl⟩

theorem freeIfCleans_units : ∀ (l : List HoldSlot) (s : State),
    (∀ g ∈ (l.foldl freeIfClean s).pc.slots, g ∈ s.pc.slots) ∧ (l.foldl freeIfClean s).dm = s.dm
  | [], _ => ⟨fun _ hg => hg, rfl⟩
  | h :: l, s => by
    obtain ⟨hs, hd⟩ := freeIfCleans_units l (freeIfClean s h)
    obtain ⟨ks, kd⟩ := freeIfClean_units h s
    exact ⟨fun g hg => ks g (hs g hg), hd.trans kd⟩

/-- No dirty line waits for a slot whose homes are dropped. -/
theorem dropHomes_units (x : Slot) (s : State) :
    (∀ h ∈ (dropHomes x s).pc.slots, ∀ l ∈ h.left, l.1 ≠ x) ∧ (dropHomes x s).dm = s.dm := by
  unfold dropHomes
  extract_lets hit u pc v
  have hu := foldl_keeps State.dm (fun s h => markResync x.other h.media s) (fun t h => (markResync_units x.other h.media t).2) hit s
  obtain ⟨hs, hd⟩ := freeIfCleans_units hit v
  refine ⟨fun h hh l hl => ?_, hd.trans hu⟩
  obtain ⟨g, -, rfl⟩ := List.mem_map.1 (hs h hh)
  simpa using (List.mem_filter.1 hl).2

/-- A migration that formats nothing and awaits no cut-over. -/
def noCopy (s : State) : State := { s with duet := { s.duet with format := none, cutPending := false } }

/-- The copy of a migration, at its end. -/
def copyStopped (s : State) : State := stopCopy (noCopy s)

/-- Every dirty line whose first home was the destination goes to the source. -/
def sourceHomes (dst : Slot) (s : State) : State :=
  { s with pc := { s.pc with slots := s.pc.slots.map fun h =>
    if h.first = dst then { h with left := [(dst.other, h.media)] } else h } }

/-- The homes on the destination are dropped. -/
def homesBack (s : State) : State := dropHomes s.duet.source.other (sourceHomes s.duet.source.other (copyStopped s))

/-- The duet's note that its cartridge is missing. -/
def withMissing (b : Bool) (s : State) : State := { s with duet := { s.duet with missing := b } }

theorem abortMigration_eq (why : Nat) (s : State) : abortMigration why s =
    let t := becomeSolo s.duet.source.other.other (homesBack s)
    raise (uCT s.duet.source.other) cMIG_ABORT noCtx (lo32 s.duet.ptr) (lo32 why) 0
      (withMissing (!(t.slot s.duet.source.other.other).serves) t) := rfl

theorem homesBack_effect (s : State) :
    (homesBack s).duet = noPlan (noCopy s).duet ∧
    (∀ h ∈ (homesBack s).pc.slots, ∀ l ∈ h.left, l.1 = s.duet.source) ∧
    (∀ n : Fin 32, (homesBack s).dm.ch[n].copy = false) ∧ Logged s (homesBack s) := by
  obtain ⟨hd, hn, hl⟩ := stopCopy_effect (noCopy s)
  have hk : PipeKept (sourceHomes s.duet.source.other (copyStopped s)) (homesBack s) := pipeKept_dropHomes ..
  obtain ⟨hs, hm⟩ := dropHomes_units s.duet.source.other (sourceHomes s.duet.source.other (copyStopped s))
  have hm : (homesBack s).dm = (copyStopped s).dm := hm
  refine ⟨hk.duet.trans hd, fun h hh l hl => ?_, fun n => ?_, ?_⟩
  · have hne := hs h hh l hl
    revert hne
    cases l.1 <;> cases s.duet.source <;> decide
  · rw [hm]
    exact hn n
  · exact (((Logged.of_ev rfl).trans hl).trans (.of_ev rfl)).trans hk.2.2

/-- A migration that is aborted ends in SOLO of its source, to which alone the dirty lines go (R98). -/
theorem abortMigration_effect (why : Nat) {s : State} (ho : s.ev.logOpen = true) :
    (abortMigration why s).duet.state = soloOf s.duet.source ∧ (abortMigration why s).duet.format = none ∧
    (abortMigration why s).duet.plan = [] ∧
    (∀ h ∈ (abortMigration why s).pc.slots, ∀ l ∈ h.left, l.1 = s.duet.source) ∧
    (∀ n : Fin 32, (abortMigration why s).dm.ch[n].copy = false) ∧
    ∃ e ∈ (abortMigration why s).ev.intake, e.code = cMIG_ABORT := by
  obtain ⟨hd, hs, hn, hl⟩ := homesBack_effect s
  rw [abortMigration_eq, other_other]
  obtain ⟨hpc, hdm, hst, hfm, hpl, hlog⟩ := becomeSolo_kept s.duet.source (homesBack s)
  generalize becomeSolo s.duet.source (homesBack s) = t at hpc hdm hst hfm hpl hlog ⊢
  obtain ⟨e, he, hcode, -⟩ := raise_mem_intake (u := uCT s.duet.source.other) (k := cMIG_ABORT) (c := noCtx) (d0 := lo32 s.duet.ptr)
    (d1 := lo32 why) (d2 := 0) (s := withMissing (!(t.slot s.duet.source).serves) t) ((hl.trans hlog).1.trans ho)
  rw [raise_duet, raise_pc, raise_dm]
  rw [← hdm] at hn
  exact ⟨hst, hfm.trans (congrArg DuetUnit.format hd), hpl.trans (congrArg DuetUnit.plan hd),
    fun h hh => hs h (hpc ▸ hh), hn, e, he, hcode⟩

/-! ### CT_DUET_CTRL (Table 3.18) -/

/-- A command of CT_DUET_CTRL stages nothing, whatever code stands beside it. -/
theorem stageOf_duetCommand {s : State} {mgmt : Bool} {c : Ctx} {v : Word} (h : bit v 8 = true ∨ bit v 9 = true) :
    stageOf s mgmt 0x0D04 c v allBytes = .nothing := by
  have hv : v &&& 0x300#32 ≠ 0#32 := by
    intro h0
    have h8 := congrArg (bit · 8) h0
    have h9 := congrArg (bit · 9) h0
    simp only [bit, BitVec.getLsbD_and] at h h8 h9
    rcases h with h | h
    · rw [h] at h8
      exact absurd h8 (by decide)
    · rw [h] at h9
      exact absurd h9 (by decide)
  simp only [stageOf, byteMask_all]
  rw [if_pos (by simp [hv])]

/-- ABORT alone. -/
theorem judge_duetAbort {ch : Chan} {c : Ctx} {v : Word} {s : State} (hu : usualField s = true) (hd : s.duet.state = .migrateCopy)
    (hn : s.duet.noAbort = false) (h9 : bit v 9 = false) :
    judgeWrite ch .duet 0x0D04 c allBytes (v ||| 0x100) s = .taken (abortMigration 1 s) := by
  have h8 : bit (v ||| 0x100#32) 8 = true := (bit_or ..).trans (Bool.or_true _)
  have h9' : bit (v ||| 0x100#32) 9 = false := (bit_or ..).trans (by rw [h9]; rfl)
  simp [judgeWrite, writeDuet, judge, h8, h9', abortOk, hu, hd, hn]

/-- CUT alone. -/
theorem judge_cut {ch : Chan} {c : Ctx} {v : Word} {s : State} (hu : usual s = true) (hd : s.duet.state = .migrateCopy)
    (h8 : bit v 8 = false) :
    judgeWrite ch .duet 0x0D04 c allBytes (v ||| 0x200) s = .taken (giveCut s) := by
  have h8' : bit (v ||| 0x200#32) 8 = false := (bit_or ..).trans (by rw [h8]; rfl)
  have h9 : bit (v ||| 0x200#32) 9 = true := (bit_or ..).trans (Bool.or_true _)
  simp [judgeWrite, writeDuet, judge, h8', h9, cutOk, hu, hd]

/-- The duet whose copy is over and waits for no CUT. -/
def cutBegun (s : State) : State := { s with duet := { s.duet with cutPending := false } }

theorem enterCut_eq (s : State) : enterCut s = rebind (soloOf s.duet.source.other) (goDuet .migrateCut (cutBegun s)) := rfl

/-- A cut-over advances the binding to the destination, and leaves the hold area (R100). -/
theorem enterCut_effect {s : State} (hr : tagReady s s.duet.source.other = true) :
    (enterCut s).duet.state = .migrateCut ∧ (enterCut s).duet.cutPending = false ∧
    (enterCut s).duet.gen = (s.duet.gen + 1) % 2 ^ 32 ∧ (enterCut s).pc = s.pc := by
  have hd := goDuet_duet .migrateCut (cutBegun s)
  have hct := goDuet_ct (cutBegun s) .migrateCut
  have hnow := goDuet_now (cutBegun s) .migrateCut
  have hmd := goDuet_md (cutBegun s) .migrateCut
  have hpc := goDuet_pc (cutBegun s) .migrateCut
  rw [enterCut_eq]
  generalize goDuet .migrateCut (cutBegun s) = g at *
  have hn : (nextBinding (soloOf s.duet.source.other) g).1 = [s.duet.source.other] := by
    rw [nextBinding_slots, hd]
    rfl
  have hr' : tagReady g s.duet.source.other = true := by
    have hi := inhibited_congr (s := s) hnow (congrArg Md.inhA hmd) (congrArg Md.inhB hmd) s.duet.source.other
    have hs : g.slot s.duet.source.other = s.slot s.duet.source.other := slot_congr s hct _
    rwa [tagReady, hi, hs]
  obtain ⟨hb, -, -⟩ := rebind_one hn hr'
  obtain ⟨hk, -⟩ := bindKept_rebind (soloOf s.duet.source.other) g
  rw [hb, hd]
  exact ⟨rfl, rfl, rfl, hk.trans hpc⟩

/-- CUT is given: a migration's copy need not wait for it. -/
def cutOwed (s : State) : State := { s with duet := { s.duet with cutGiven := true } }

theorem giveCut_waits {s : State} (hp : s.duet.cutPending = false) : giveCut s = cutOwed s :=
  if_neg (Bool.eq_false_iff.1 hp)

/-- CUT of a migration whose copy waits for it begins the cut-over (Table 3.8). -/
theorem giveCut_effect {s : State} (hp : s.duet.cutPending = true) (hr : tagReady s s.duet.source.other = true) :
    (giveCut s).duet.state = .migrateCut ∧ (giveCut s).duet.cutPending = false ∧
    (giveCut s).duet.gen = (s.duet.gen + 1) % 2 ^ 32 ∧ (giveCut s).pc.slots = s.pc.slots := by
  have he : giveCut s = enterCut (cutOwed s) := if_pos hp
  have hs : (cutOwed s).slot s.duet.source.other = s.slot s.duet.source.other := slot_congr s rfl _
  have hi : inhibited (cutOwed s) s.duet.source.other = inhibited s s.duet.source.other := inhibited_congr rfl rfl rfl _
  obtain ⟨hst, hcp, hgen, hpc⟩ := enterCut_effect (s := cutOwed s) (by
    show tagReady (cutOwed s) s.duet.source.other = true
    rwa [tagReady, hs, hi])
  rw [he]
  exact ⟨hst, hcp, hgen, congrArg Pc.slots hpc⟩

/-! ### The pacer (R102) -/

/-- The pacer grants a request of a copy. -/
def requestGranted (s : State) : State := { s with
  duet := { s.duet with pacerAt := s.now }, dm := { s.dm with migCount := min 4 (s.dm.migCount + 1) } }

theorem pace_due {s : State} {n : Fin 32} (hc : s.dm.ch[n].copy = true) (hp : s.duet.pacerAt + s.duet.period.toNat ≤ s.now) :
    pace s = requestGranted s := by
  have ha : (s.dm.ch.toList.any fun c => c.copy) = true :=
    List.any_eq_true.2 ⟨s.dm.ch[n], by simp, hc⟩
  simp [pace, ha, Nat.not_lt.2 hp, requestGranted]

theorem pace_early {s : State} (hp : s.now < s.duet.pacerAt + s.duet.period.toNat) : pace s = s := by
  simp [pace, hp]

theorem migratePacer_due {s : State} {n : Fin 32} (hc : s.dm.ch[n].copy = true)
    (hp : s.duet.pacerAt + s.duet.period.toNat ≤ s.now) :
    (pace s).dm.migCount = min 4 (s.dm.migCount + 1) ∧ (pace s).duet.pacerAt = s.now ∧ (pace s).dm.ch = s.dm.ch ∧
    (pace s).pc = s.pc := by
  rw [pace_due hc hp]
  exact ⟨rfl, rfl, rfl, rfl⟩

theorem duet_command {s : State} {ch : Chan} {w : Word} {t : State} (h : MayWrite ch 0x0D04 s) (hb : bit w 8 = true ∨ bit w 9 = true)
    (hj : judgeWrite ch .duet 0x0D04 (tnIndex s ch) allBytes w (noOut s) = .taken t) :
    act (command ch 0x0D04 w) s = .next t :=
  command_taken h (b := .duet) (by decide) (by decide) (stageOf_duetCommand hb) hj

theorem bit_abort (v : Word) : bit (v ||| 0x100) 8 = true := (bit_or ..).trans (Bool.or_true _)
theorem bit_cut (v : Word) : bit (v ||| 0x200) 9 = true := (bit_or ..).trans (Bool.or_true _)

/-- Settles O45: a write of CT_DUET_CTRL is taken by `judge_duetAbort` or `judge_cut`, and leaves what the effect lemmas say. -/
theorem duetFormatsCopiesAbortsAndCuts : Obligations.DuetFormatsCopiesAbortsAndCuts :=
  ⟨fun s _ _ hf hc ht hs hi => ⟨_, rfl, formatDone_solo_effect (s := noOut s) hf hc ht hs hi⟩,
    fun s _ hc hp => ⟨_, rfl, migratePacer_due (s := noOut s) hc hp⟩,
    fun s hp => congrArg Host.Outcome.next (pace_early (s := noOut s) hp),
    fun s _ v h hu hd hn h9 ho => ⟨_, duet_command h (.inl (bit_abort v)) (judge_duetAbort (s := noOut s) hu hd hn h9),
      abortMigration_effect 1 (s := noOut s) ho⟩,
    fun s _ v h hu hd hp h8 => duet_command h (.inr (bit_cut v))
      ((judge_cut (s := noOut s) hu hd h8).trans (congrArg _ (giveCut_waits (s := noOut s) hp))),
    fun s _ v h hu hd hp h8 hr => ⟨_, duet_command h (.inr (bit_cut v)) (judge_cut (s := noOut s) hu hd h8),
      giveCut_effect (s := noOut s) hp hr⟩⟩

end Sys2Proof.Machine

namespace Sys2Proof.Machine

/-! ### Frames (R74, R75) -/

/-- A supervisor accepts the frame of a request as it was sent. -/
theorem frameFault_requestFrame {o : SvOut} (h : o.payload.length < 256) : frameFault (requestFrame o) = none := by
  have hlen : (requestFrame o).length = ((requestFrame o).getD 1 0).toNat + 3 := by
    simp [requestFrame, Nat.mod_eq_of_lt h]
  have hcrc : BitVec.ofNat 8 (crc8 (requestFrame o).dropLast) = (requestFrame o).getLastD 0 := by
    simp only [requestFrame, List.dropLast_concat, List.getLastD_concat]
  rw [frameFault, if_neg (not_not.2 hlen), if_neg (not_not.2 hcrc)]

/-- The engine reads in the frame of an answer what the supervisor put into it. -/
theorem readFrame_responseFrame {o : SvOut} {res : BitVec 8} {b : List Byte} (h : b.length < 256) :
    readFrame o (responseFrame o.opc res b) = some (res, b) := by
  have hn : ((responseFrame o.opc res b).getD 2 0).toNat = b.length := (BitVec.toNat_ofNat ..).trans (Nat.mod_eq_of_lt h)
  have hcrc : BitVec.ofNat 8 (crc8 (responseFrame o.opc res b).dropLast) = (responseFrame o.opc res b).getLastD 0 := by
    simp only [responseFrame, List.dropLast_concat, List.getLastD_concat]
  have hlen : (responseFrame o.opc res b).length = b.length + 4 := by simp [responseFrame]
  have htake : ((responseFrame o.opc res b).drop 3).take b.length = b := List.take_left' rfl
  rw [readFrame, hn, if_pos ⟨hlen, rfl, hcrc⟩, htake]
  rfl

/-! ### A request and its answer (R75, R76) -/

/-- A new request of the engine's own. -/
def ownRequest (x : Slot) (opc : BitVec 7) (req extra : List Byte) (s : State) : SvOut :=
  { opc := opc, payload := req, toggle := !(s.slot x).toggle, repeats := 0, cycle := s.now, extra := extra, soft := false }

/-- A cartridge whose supervisor has executed a request and saved its answer. -/
def servedCart (o : SvOut) (c : Cart) (v : Sv) (b : List Byte) : Cart :=
  { c with sv := { v with done := some ⟨o.toggle, o.opc, o.payload, cOK :: b⟩, rejected := none } }

/-- A slot that waits for the answer to a request. -/
def askedSlot (o : SvOut) (t : CtSlot) : CtSlot := { t with outstanding := some o, toggle := o.toggle }

/-- A slot with another cartridge's state in it. -/
def holding (c : Option Cart) (t : CtSlot) : CtSlot := { t with cart := c }

/-- A slot that waits for no answer. -/
def settledSlot (f : Bool) (t : CtSlot) : CtSlot := { t with outstanding := none, svFault := f }

/-- A slot whose supervisor has answered a request. -/
def answeredSlot (o : SvOut) (c : Cart) (v : Sv) (b : List Byte) (t : CtSlot) : CtSlot :=
  { t with outstanding := none, svFault := false, toggle := o.toggle, cart := some (servedCart o c v b) }

/-- The frame of a request on the wire. -/
def sent (o : SvOut) : Out := .sdo .p1 ((requestFrame o).flatMap byteBits)

/-- The answer has arrived, and is not yet judged. -/
def answered (x : Slot) (o : SvOut) (c : Cart) (v : Sv) (b : List Byte) (s : State) : State :=
  emit (.supervisor x cOK b) (modSlot x (answeredSlot o c v b) (emit (sent o) s))

theorem answered_slot (x : Slot) (o : SvOut) (c : Cart) (v : Sv) (b : List Byte) (s : State) :
    (answered x o c v b s).slot x = answeredSlot o c v b (s.slot x) :=
  (emit_slot ..).trans ((modSlot_slot ..).trans (congrArg _ (emit_slot ..)))

theorem answered_slot_other (x : Slot) (o : SvOut) (c : Cart) (v : Sv) (b : List Byte) (s : State) :
    (answered x o c v b s).slot x.other = s.slot x.other :=
  (emit_slot ..).trans ((modSlot_slot_other ..).trans (emit_slot ..))

theorem answered_out (x : Slot) (o : SvOut) (c : Cart) (v : Sv) (b : List Byte) (s : State) :
    (answered x o c v b s).out = s.out ++ [sent o] ++ [.supervisor x cOK b] := congrArg (· ++ _) (modSlot_out ..)

theorem savedFor_served (o : SvOut) (c : Cart) (v : Sv) (b : List Byte) : savedFor (servedCart o c v b) o = some (cOK :: b) :=
  if_pos ⟨rfl, rfl, rfl⟩

/-- A supervisor that executed a request last under the other toggle has no answer to this one. -/
theorem savedFor_toggled {o : SvOut} {c : Cart} (h : ∀ d, c.sv.done = some d → d.toggle ≠ o.toggle) : savedFor c o = none := by
  unfold savedFor
  cases hd : c.sv.done with
  | none => rfl
  | some d => exact if_neg fun k => h d hd k.1

theorem modSlot_comp (x : Slot) (f g : CtSlot → CtSlot) (s : State) : modSlot x f (modSlot x g s) = modSlot x (f ∘ g) s := by
  cases x <;> rfl

theorem emit_modSlot (x : Slot) (f : CtSlot → CtSlot) (o : Out) (s : State) :
    emit o (modSlot x f s) = modSlot x f (emit o s) := by
  cases x <;> rfl

/-- What a supervisor makes of a frame, by its fault, by the answer saved for it, and by what its execution gives (R75). -/
def received (o : SvOut) (f : Option (BitVec 8)) (w : Option (List Byte)) (r : Sv × BitVec 8 × List Byte) (c : Cart) : Cart :=
  match f, w with
  | some code, _ => { c with sv := { c.sv with rejected := some code } }
  | none, some _ => { c with sv := { c.sv with rejected := none } }
  | none, none => { c with sv := { r.1 with done := some ⟨o.toggle, o.opc, o.payload, r.2.1 :: r.2.2⟩, rejected := none } }

theorem svReceive_received (x : Slot) (o : SvOut) (f : List Byte) (s : State) : svReceive x o f s =
    modCart x (fun c => received o (frameFault f) (savedFor c o) (svExecute c o.opc o.payload o.extra) c) s := by
  refine congrArg (modCart x · s) (funext fun c => ?_)
  cases frameFault f <;> cases savedFor c o <;> rfl

/-- A supervisor that has not this request's answer saved executes it (R75). -/
theorem svReceive_executes {x : Slot} {o : SvOut} {c : Cart} {v : Sv} {b : List Byte} {s : State}
    (hc : (s.slot x).cart = some c) (hs : savedFor c o = none) (hx : svExecute c o.opc o.payload o.extra = (v, cOK, b))
    (hl : o.payload.length < 256) :
    svReceive x o (requestFrame o) s = modSlot x (holding (some (servedCart o c v b))) s := by
  rw [svReceive_received]
  refine modSlot_congr (congrArg (holding · (s.slot x)) ?_)
  rw [hc, frameFault_requestFrame hl, Option.map_some, hs, hx]
  rfl

theorem sendRequest_answered {x : Slot} {o : SvOut} {s : State} (hm : s.sp1.master = true) :
    sendRequest x o .answered s = svReceive x o (requestFrame o) (emit (sent o) s) := by
  rw [sendRequest, hm]
  rfl

/-- A poll finds the answer that the supervisor has saved. -/
theorem svCollect_served {x : Slot} {o : SvOut} {c : Cart} {v : Sv} {b : List Byte} {s : State}
    (hc : (s.slot x).cart = some (servedCart o c v b)) (hb : b.length < 256) : svCollect x o s = svAnswer x o cOK b s := by
  have hp : polled s x o = some (responseFrame o.opc cOK b) := by
    rw [polled, hc, Option.bind_some, show (servedCart o c v b).sv.rejected = none from rfl, savedFor_served]
  rw [svCollect, hp, hc, Option.bind_some, readFrame_responseFrame hb]
  rfl

theorem svAnswer_own {x : Slot} {o : SvOut} {b : List Byte} {s : State} (ho : o.soft = false) : svAnswer x o cOK b s =
    noteExposed x (svEffect x o b (emit (.supervisor x cOK b) (modSlot x (settledSlot false) s))) := by
  have hs : modSlot x (fun t => settledSlot (t.svFault && decide (cOK ≠ cOK)) t) s = modSlot x (settledSlot false) s :=
    modSlot_congr (congrArg (settledSlot · (s.slot x)) (Bool.and_false _))
  rw [← hs, svAnswer, ho]
  rfl

/-- The slot's part of an exchange: asked, served and answered. -/
theorem exchange_slot (x : Slot) (o : SvOut) (c : Cart) (v : Sv) (b : List Byte) (q : Out) (s : State) :
    modSlot x (settledSlot false) (modSlot x (holding (some (servedCart o c v b))) (emit q (modSlot x (askedSlot o) s))) =
      modSlot x (answeredSlot o c v b) (emit q s) := by
  rw [emit_modSlot, modSlot_comp, modSlot_comp]
  rfl

/-- A request that is sent is executed and answered, and the engine makes of the answer what it makes of it. -/
theorem svCollect_sent {x : Slot} {o : SvOut} {c : Cart} {v : Sv} {b : List Byte} {s : State} (hc : (s.slot x).cart = some c)
    (hm : s.sp1.master = true) (hs : savedFor c o = none) (hx : svExecute c o.opc o.payload o.extra = (v, cOK, b))
    (hl : o.payload.length < 256) (hb : b.length < 256) (ho : o.soft = false) :
    svCollect x o (sendRequest x o .answered (modSlot x (askedSlot o) s)) = noteExposed x (svEffect x o b (answered x o c v b s)) := by
  have hcart : ((emit (sent o) (modSlot x (askedSlot o) s)).slot x).cart = some c := by
    rw [emit_slot, modSlot_slot]
    exact hc
  have hserved (u : State) : ((modSlot x (holding (some (servedCart o c v b))) u).slot x).cart = some (servedCart o c v b) :=
    congrArg CtSlot.cart (modSlot_slot ..)
  rw [sendRequest_answered ((congrArg Sp.master (modSlot_sp1 ..)).trans hm), svReceive_executes hcart hs hx hl,
    svCollect_served (hserved _) hb, svAnswer_own ho, exchange_slot]
  rfl

theorem exchange_asks {x : Slot} {opc : BitVec 7} {req extra : List Byte} {s : State} (ho : (s.slot x).outstanding = none)
    (hp : (s.slot x).passthrough = none) : exchange x opc req extra .answered s =
      svCollect x (ownRequest x opc req extra s) (sendRequest x (ownRequest x opc req extra s) .answered
        (modSlot x (askedSlot (ownRequest x opc req extra s)) s)) := by
  unfold exchange
  dsimp only
  rw [ho, hp]
  rfl

theorem noteExposed_known {x : Slot} {s : State}
    (h : (s.slot x).exposed = true ∨ ((s.slot x).cart.elim false fun c => c.sv.exposed) = false) : noteExposed x s = s := by
  unfold noteExposed
  rcases h with h | h <;> simp [h]

/-! ### What an answer leaves (R76) -/

/-- A slot's cartridge, its toggle, its fault and its exposure stand, and no request of it becomes outstanding. -/
def SlotKept (t u : CtSlot) : Prop :=
  u.cart = t.cart ∧ u.toggle = t.toggle ∧ u.svFault = t.svFault ∧ u.exposed = t.exposed ∧
  (t.outstanding = none → u.outstanding = none)

/-- What the engine makes of an answer: neither the other slot nor the ports, the hold slots or the duet change. -/
def AnswerKept (x : Slot) (s t : State) : Prop :=
  SlotKept (s.slot x) (t.slot x) ∧ t.slot x.other = s.slot x.other ∧ t.out = s.out ∧ t.pc = s.pc ∧ t.duet = s.duet

theorem SlotKept.refl (t : CtSlot) : SlotKept t t := ⟨rfl, rfl, rfl, rfl, id⟩

theorem AnswerKept.trans {x : Slot} {s t u : State} (h : AnswerKept x s t) (k : AnswerKept x t u) : AnswerKept x s u := by
  obtain ⟨⟨hc, ht, hf, he, hn⟩, ho, hout, hp, hd⟩ := h
  obtain ⟨⟨kc, kt, kf, ke, kn⟩, ko, kout, kp, kd⟩ := k
  exact ⟨⟨kc.trans hc, kt.trans ht, kf.trans hf, ke.trans he, kn ∘ hn⟩, ko.trans ho, kout.trans hout, kp.trans hp, kd.trans hd⟩

theorem answerKept_modSlot {x : Slot} {f : CtSlot → CtSlot} (hf : ∀ t, SlotKept t (f t)) (s : State) : AnswerKept x s (modSlot x f s) :=
  ⟨(modSlot_slot s x f).symm ▸ hf _, modSlot_slot_other .., modSlot_out .., modSlot_pc .., modSlot_duet ..⟩

theorem answerKept_of_ct {x : Slot} {s t : State} (hc : t.ct = s.ct) (ho : t.out = s.out) (hp : t.pc = s.pc) (hd : t.duet = s.duet) :
    AnswerKept x s t :=
  ⟨slot_congr s hc x ▸ .refl _, slot_congr s hc _, ho, hp, hd⟩

theorem answerKept_raiseSer (x y : Slot) (k : BitVec 8) (n : BitVec 64) (s : State) : AnswerKept x s (raiseSer y k n s) :=
  answerKept_of_ct (raise_ct ..) (raise_out ..) (raise_pc ..) (raise_duet ..)

theorem slotKept_spent (n : Nat) (w : Bool) (t : CtSlot) : SlotKept t (spentSlot n w t) := ⟨rfl, rfl, rfl, rfl, id⟩

theorem answerKept_chargeSlot (x : Slot) (n : Nat) (s : State) : AnswerKept x s (chargeSlot x n s) := by
  obtain ⟨⟨w, hx⟩, ho, -⟩ := chargeSlot_effect x n s
  exact ⟨hx ▸ slotKept_spent .., ho, chargeSlot_out .., chargeSlot_pc .., chargeSlot_duet ..⟩

/-- A slot that no longer owes a command. -/
def paidSlot (opc : BitVec 7) (t : CtSlot) : CtSlot := { t with svDue := t.svDue.filter fun o => decide (o ≠ opc) }

theorem paid_slot (x : Slot) (opc : BitVec 7) (s : State) : (paid x opc s).slot x = paidSlot opc (s.slot x) :=
  modSlot_slot s x (paidSlot opc)

theorem slotKept_paid (opc : BitVec 7) (t : CtSlot) : SlotKept t (paidSlot opc t) := ⟨rfl, rfl, rfl, rfl, id⟩

theorem answerKept_paid (x : Slot) (opc : BitVec 7) (s : State) : AnswerKept x s (paid x opc s) := answerKept_modSlot (slotKept_paid opc) s

/-- An answer that is noted in the slot alone. -/
theorem answerKept_noted {x : Slot} {f : CtSlot → CtSlot} (hf : ∀ t, SlotKept t (f t)) (opc : BitVec 7) (s : State) :
    AnswerKept x s (modSlot x f (paid x opc s)) :=
  (answerKept_paid x opc s).trans (answerKept_modSlot hf _)

/-- The slot whose command has been answered, before the answer is judged. -/
theorem paid_answered_slot (x : Slot) (opc : BitVec 7) (o : SvOut) (c : Cart) (v : Sv) (b : List Byte) (s : State) :
    (paid x opc (answered x o c v b s)).slot x = paidSlot opc (answeredSlot o c v b (s.slot x)) :=
  (paid_slot ..).trans (congrArg _ (answered_slot ..))

theorem paid_units (x : Slot) (opc : BitVec 7) (s : State) :
    (paid x opc s).ks = s.ks ∧ (paid x opc s).bt = s.bt ∧ (paid x opc s).now = s.now :=
  ⟨modSlot_ks s x (paidSlot opc), modSlot_bt s x (paidSlot opc), modSlot_now s x (paidSlot opc)⟩

/-- The units that an answer leaves alone, before it is judged. -/
theorem arrived_units (x : Slot) (opc : BitVec 7) (o : SvOut) (c : Cart) (v : Sv) (b : List Byte) (s : State) :
    (paid x opc (answered x o c v b s)).ks = s.ks ∧ (paid x opc (answered x o c v b s)).bt = s.bt ∧
    (paid x opc (answered x o c v b s)).now = s.now := by
  obtain ⟨hk, hb, hn⟩ := paid_units x opc (answered x o c v b s)
  exact ⟨hk.trans (modSlot_ks ..), hb.trans (modSlot_bt ..), hn.trans (modSlot_now ..)⟩

theorem arrived_fields (opc : BitVec 7) (o : SvOut) (c : Cart) (v : Sv) (b : List Byte) (t : CtSlot) :
    (paidSlot opc (answeredSlot o c v b t)).state = t.state ∧ (paidSlot opc (answeredSlot o c v b t)).authTries = t.authTries ∧
    (paidSlot opc (answeredSlot o c v b t)).idType = t.idType ∧ (paidSlot opc (answeredSlot o c v b t)).serial = t.serial ∧
    (paidSlot opc (answeredSlot o c v b t)).nonce = t.nonce ∧ (paidSlot opc (answeredSlot o c v b t)).uncharged = t.uncharged :=
  ⟨rfl, rfl, rfl, rfl, rfl, rfl⟩

/-! ### A command that is asked and answered -/

/-- The frames of a request and of its answer, and the slot that they leave, where the engine makes no more of the answer than
`AnswerKept` allows. -/
theorem answerTaken_of_kept {x : Slot} {c : Cart} {v : Sv} {opc : BitVec 7} {req extra b : List Byte} {s t : State} (hs : s.out = [])
    (hk : AnswerKept x (answered x (ownRequest x opc req extra s) c v b s) t) : AnswerTaken s t x opc req b := by
  obtain ⟨⟨-, htog, hf, -, hn⟩, ho, hout, hp, hd⟩ := hk
  rw [answered_slot] at htog hf hn
  rw [answered_out, hs] at hout
  exact ⟨hout, hn rfl, hf, htog, ho.trans (answered_slot_other ..), hp.trans (modSlot_pc ..), hd.trans (modSlot_duet ..)⟩

/-- A command whose cause stands, or that is owed, is asked and answered: the frames, and the cartridge as its supervisor leaves it. -/
theorem exchangeIf_answered {x : Slot} {c : Cart} {p : Bool} {opc : BitVec 7} {req extra b : List Byte} {v : Sv} {s t : State}
    (hs : s.out = []) (h : CanAsk s x c) (hp : p = true ∨ svOwed s x opc = true) (hx : svExecute c opc req extra = (v, cOK, b))
    (hv : v.exposed = c.sv.exposed) (hl : req.length < 256) (hb : b.length < 256)
    (hk : AnswerKept x (answered x (ownRequest x opc req extra s) c v b s) t)
    (ht : svEffect x (ownRequest x opc req extra s) b (answered x (ownRequest x opc req extra s) c v b s) = t) :
    exchangeIf p x opc req extra .answered s = t ∧ AnswerTaken s t x opc req b ∧
    (t.slot x).cart = some (servedCart (ownRequest x opc req extra s) c v b) := by
  obtain ⟨hfree, hc, hout, hpass, hm, hdone, hex⟩ := h
  have htaken := answerTaken_of_kept hs hk
  obtain ⟨⟨kc, -, -, ke, -⟩, -⟩ := hk
  rw [answered_slot] at kc ke
  have hsv : savedFor c (ownRequest x opc req extra s) = none := savedFor_toggled fun d hd h => Bool.not_ne_self _ (h.symm.trans (hdone d hd))
  refine ⟨?_, htaken, kc⟩
  rw [exchangeIf, hfree, Bool.or_eq_true_iff.2 hp, hout]
  refine (exchange_asks hout hpass).trans ((svCollect_sent hc hm hsv hx hl hb rfl).trans ?_)
  rw [ht]
  refine noteExposed_known ?_
  rw [kc, ke]
  exact hex.imp id fun hn => hv.trans hn

end Sys2Proof.Machine

namespace Sys2Proof.Machine

theorem ofLe_leBytes_lt {k n : Nat} (h : n < 256 ^ k) : ofLe (leBytes k n) = n := by
  rw [ofLe_leBytes, Nat.mod_eq_of_lt h]

/-! ### Authentication (R78, R79) -/

theorem expectedTag_congr {s t : State} {a b : CtSlot} (hb : t.bt = s.bt) (hn : b.serial = a.serial) (hi : b.idType = a.idType)
    (hc : b.nonce = a.nonce) : expectedTag t b = expectedTag s a := by
  rw [expectedTag, expectedTag, hb, hn, hi, hc]

/-- A slot that trains its link, its cartridge's type known (R79, R80). -/
def trainingSlot (t : CtSlot) : CtSlot :=
  { t with state := .training, typeCode := BitVec.ofNat 4 t.idType.toNat, insTests := if t.lbFail then [6] else [] }

/-- A slot with its link in another state. -/
def withLink (l : LinkState) (t : CtSlot) : CtSlot := { t with link := l }

/-- A slot that passed authentication owes its wear and its clock. -/
def passedSlot (l : LinkState) (t : CtSlot) : CtSlot := owedTo 6 (owedTo 3 (withLink l (trainingSlot t)))

theorem slotKept_training (t : CtSlot) : SlotKept t (trainingSlot t) := ⟨rfl, rfl, rfl, rfl, id⟩
theorem slotKept_withLink (l : LinkState) (t : CtSlot) : SlotKept t (withLink l t) := ⟨rfl, rfl, rfl, rfl, id⟩
theorem slotKept_owedTo (opc : BitVec 7) (t : CtSlot) : SlotKept t (owedTo opc t) := by
  unfold owedTo
  split
  · exact .refl t
  · exact ⟨rfl, rfl, rfl, rfl, id⟩

theorem answerKept_wantSv (x : Slot) (opc : BitVec 7) (s : State) : AnswerKept x s (wantSv x opc s) :=
  answerKept_modSlot (slotKept_owedTo opc) s

/-- The slots as authentication passes; the wear that is not yet charged is owed too. -/
def passed (x : Slot) (s : State) : State :=
  wantSv x 6 (wantSv x 3 (modSlot x (withLink (if loopBackFirst (modSlot x trainingSlot s) x then .down else .train))
    (modSlot x trainingSlot s)))

theorem authPass_eq (x : Slot) (s : State) :
    authPass x s = if ((passed x s).slot x).uncharged = 0 then passed x s else wantSv x 4 (passed x s) := rfl

theorem answerKept_passed (x : Slot) (s : State) : AnswerKept x s (passed x s) :=
  (((answerKept_modSlot slotKept_training s).trans (answerKept_modSlot (slotKept_withLink _) _)).trans (answerKept_wantSv ..)).trans
    (answerKept_wantSv ..)

theorem answerKept_authPass (x : Slot) (s : State) : AnswerKept x s (authPass x s) := by
  rw [authPass_eq]
  split
  · exact answerKept_passed x s
  · exact (answerKept_passed x s).trans (answerKept_wantSv ..)

theorem passed_slot (x : Slot) (s : State) : ∃ l, (passed x s).slot x = passedSlot l (s.slot x) :=
  ⟨_, (modSlot_slot ..).trans (congrArg (owedTo 6) ((modSlot_slot ..).trans (congrArg (owedTo 3)
    ((modSlot_slot ..).trans (congrArg (withLink _) (modSlot_slot ..))))))⟩

theorem owedTo_typeCode (opc : BitVec 7) (t : CtSlot) : (owedTo opc t).typeCode = t.typeCode := by
  rw [owedTo_shape]

/-- A cartridge that has authenticated has a type and a training to come, and owes its wear and its clock (R79, R80). -/
theorem authPass_effect (x : Slot) (s : State) :
    ((authPass x s).slot x).state = .training ∧
    ((authPass x s).slot x).typeCode = BitVec.ofNat 4 (s.slot x).idType.toNat ∧
    (3 : BitVec 7) ∈ ((authPass x s).slot x).svDue ∧ (6 : BitVec 7) ∈ ((authPass x s).slot x).svDue := by
  obtain ⟨l, hl⟩ := passed_slot x s
  have hr : (authPass x s).slot x = passedSlot l (s.slot x) ∨ (authPass x s).slot x = owedTo 4 (passedSlot l (s.slot x)) := by
    rw [authPass_eq]
    split
    · exact .inl hl
    · exact .inr ((modSlot_slot ..).trans (congrArg (owedTo 4) hl))
  have hs : (passedSlot l (s.slot x)).state = .training := (owedTo_state ..).trans (owedTo_state ..)
  have ht : (passedSlot l (s.slot x)).typeCode = BitVec.ofNat 4 (s.slot x).idType.toNat :=
    (owedTo_typeCode ..).trans (owedTo_typeCode ..)
  have h3 : (3 : BitVec 7) ∈ (passedSlot l (s.slot x)).svDue := mem_owedTo.2 (.inl (mem_owedTo.2 (.inr rfl)))
  have h6 : (6 : BitVec 7) ∈ (passedSlot l (s.slot x)).svDue := mem_owedTo.2 (.inr rfl)
  rcases hr with hr | hr <;> rw [hr]
  · exact ⟨hs, ht, h3, h6⟩
  · exact ⟨(owedTo_state ..).trans hs, (owedTo_typeCode ..).trans ht, mem_owedTo.2 (.inl h3), mem_owedTo.2 (.inl h6)⟩

theorem judgeTag_right {x : Slot} {tag : List Byte} {s : State} (hs : (s.slot x).state = .auth)
    (ht : tag = expectedTag s (s.slot x)) : judgeTag x tag s = authPass x s :=
  (if_neg (not_not.2 hs)).trans (if_pos ht)

/-- A slot whose authentication has failed. -/
def refusedSlot (t : CtSlot) : CtSlot := { t with state := .authFailed, outstanding := none, svDue := [], link := .down, insTests := [] }

theorem authFail_slot (x : Slot) (s : State) : (authFail x s).slot x = refusedSlot (s.slot x) :=
  (raiseSer_slot ..).trans (modSlot_slot s x refusedSlot)

theorem slotKept_refused (t : CtSlot) : SlotKept t (refusedSlot t) := ⟨rfl, rfl, rfl, rfl, fun _ => rfl⟩

theorem answerKept_authFail (x : Slot) (s : State) : AnswerKept x s (authFail x s) :=
  (answerKept_modSlot slotKept_refused s).trans (answerKept_raiseSer ..)

/-- A slot with the next attempt's nonce. -/
def withNonce (r : BitVec 128) (t : CtSlot) : CtSlot := { t with nonce := r }

theorem drawNonce_slot (x : Slot) (s : State) : (drawNonce x s).slot x = withNonce (freeOf 128 s) (s.slot x) :=
  (nextFree_slot _ x).trans (modSlot_slot s x (withNonce _))

theorem slotKept_withNonce (r : BitVec 128) (t : CtSlot) : SlotKept t (withNonce r t) := ⟨rfl, rfl, rfl, rfl, id⟩

theorem answerKept_drawNonce (x : Slot) (s : State) : AnswerKept x s (drawNonce x s) :=
  (answerKept_modSlot (slotKept_withNonce _) s).trans (answerKept_of_ct rfl rfl rfl rfl)

/-- A slot whose cartridge gave a wrong tag. -/
def missedSlot (t : CtSlot) : CtSlot := { t with authTries := t.authTries + 1 }

theorem slotKept_missed (t : CtSlot) : SlotKept t (missedSlot t) := ⟨rfl, rfl, rfl, rfl, id⟩

/-- The state after a wrong tag, with the next attempt's nonce. -/
def missed (x : Slot) (s : State) : State := drawNonce x (modSlot x missedSlot s)

theorem missed_slot (x : Slot) (s : State) : ∃ r, (missed x s).slot x = withNonce r (missedSlot (s.slot x)) :=
  ⟨_, (drawNonce_slot ..).trans (congrArg _ (modSlot_slot ..))⟩

theorem answerKept_missed (x : Slot) (s : State) : AnswerKept x s (missed x s) :=
  (answerKept_modSlot slotKept_missed s).trans (answerKept_drawNonce ..)

/-- A wrong tag is counted, and the third fails the slot (R79). -/
theorem judgeTag_wrong {x : Slot} {tag : List Byte} {s : State} (hs : (s.slot x).state = .auth) (ht : tag ≠ expectedTag s (s.slot x)) :
    judgeTag x tag s = if 2 ≤ (s.slot x).authTries then authFail x (missed x s) else missed x s := by
  have he : judgeTag x tag s = if 3 ≤ ((missed x s).slot x).authTries then authFail x (missed x s) else missed x s :=
    (if_neg (not_not.2 hs)).trans (if_neg ht)
  obtain ⟨r, hr⟩ := missed_slot x s
  have htries : ((missed x s).slot x).authTries = (s.slot x).authTries + 1 := by rw [hr]; rfl
  rw [he, htries]
  exact if_congr Nat.succ_le_succ_iff rfl rfl

theorem judgeTag_wrong_effect {x : Slot} {tag : List Byte} {s : State} (hs : (s.slot x).state = .auth)
    (ht : tag ≠ expectedTag s (s.slot x)) : AnswerKept x s (judgeTag x tag s) ∧
      ((judgeTag x tag s).slot x).authTries = (s.slot x).authTries + 1 ∧
      ((judgeTag x tag s).slot x).state = if 2 ≤ (s.slot x).authTries then .authFailed else .auth := by
  obtain ⟨r, hr⟩ := missed_slot x s
  rw [judgeTag_wrong hs ht]
  split
  · rw [authFail_slot, hr]
    exact ⟨(answerKept_missed x s).trans (answerKept_authFail ..), rfl, rfl⟩
  · rw [hr]
    exact ⟨answerKept_missed x s, rfl, hs⟩

/-! ### The identity record (R78, Table 3.5) -/

theorem crc32Bit_lt {c : Nat} (h : c < 2 ^ 32) : crc32Bit c < 2 ^ 32 := by
  have hd : c / 2 < 2 ^ 32 := (Nat.div_le_self ..).trans_lt h
  unfold crc32Bit
  split
  · exact Nat.xor_lt_two_pow hd (by decide)
  · exact hd

theorem crc32Byte_lt {c : Nat} (b : Byte) (h : c < 2 ^ 32) : crc32Byte c b < 2 ^ 32 := by
  have hx : c ^^^ b.toNat < 2 ^ 32 := Nat.xor_lt_two_pow h (b.isLt.trans (by decide))
  unfold crc32Byte
  repeat refine crc32Bit_lt ?_
  exact hx

theorem crc32_lt (l : List Byte) : crc32 l < 2 ^ 32 := by
  have h : ∀ (l : List Byte) (c : Nat), c < 2 ^ 32 → l.foldl crc32Byte c < 2 ^ 32 := by
    intro l
    induction l with
    | nil => exact fun _ h => h
    | cons b l ih => exact fun c h => ih _ (crc32Byte_lt b h)
  exact Nat.xor_lt_two_pow (h l _ (by decide)) (by decide)

/-- The identity record without its CRC. -/
def identityBody (c : Cart) : List Byte :=
  leBytes 8 c.serial.toNat ++ [if c.big then 2 else 1, c.proto] ++ leBytes 2 (if c.big then 32 else 16)
    ++ leBytes 4 c.made.toNat ++ leBytes 8 (lifeBudget c.big) ++ leBytes 4 (userMib c.big)

theorem identityBody_length (c : Cart) : (identityBody c).length = 28 := by
  simp [identityBody]

theorem identityRecord_ok {c : Cart} (h : c.identOk = true) : identityRecord c = identityBody c ++ leBytes 4 (crc32 (identityBody c)) := by
  rw [identityRecord, h]
  rfl

/-- The CRC of an undamaged record passes. -/
theorem identityRecord_crc {c : Cart} (h : c.identOk = true) :
    ofLe ((identityRecord c).drop 28) = crc32 ((identityRecord c).take 28) := by
  rw [identityRecord_ok h, List.drop_left' (identityBody_length c), List.take_left' (identityBody_length c),
    ofLe_leBytes_lt (crc32_lt _)]

/-- A field that the engine reads in a record. -/
def recordField (b : List Byte) (lo len : Nat) : Nat := ofLe ((b.drop lo).take len)

/-- The fields that the engine reads in an undamaged record. -/
theorem identityRecord_fields {c : Cart} (h : c.identOk = true) :
    recordField (identityRecord c) 0 8 = ofLe (leBytes 8 c.serial.toNat) ∧
    recordField (identityRecord c) 8 1 = ofLe [if c.big then 2 else 1] ∧ recordField (identityRecord c) 9 1 = ofLe [c.proto] ∧
    recordField (identityRecord c) 16 8 = ofLe (leBytes 8 (lifeBudget c.big)) := by
  rw [identityRecord_ok h, identityBody]
  generalize leBytes 4 (crc32 _) = crc
  refine ⟨congrArg ofLe ?_, congrArg ofLe ?_, congrArg ofLe ?_, congrArg ofLe ?_⟩ <;>
    simp [List.drop_append, List.take_append, List.drop_of_length_le]

/-- A slot that the engine knows by its cartridge's record, and the wear kept against its serial. -/
def namedSlot (b : List Byte) (k : Nat) (t : CtSlot) : CtSlot :=
  { t with
      identified := true, serial := BitVec.ofNat 64 (recordField b 0 8), idType := BitVec.ofNat 8 (recordField b 8 1)
      proto := BitVec.ofNat 8 (recordField b 9 1), userGib := BitVec.ofNat 16 (recordField b 24 4 / 1024)
      budget := recordField b 16 8, uncharged := k }

theorem slotKept_named (b : List Byte) (k : Nat) (t : CtSlot) : SlotKept t (namedSlot b k t) := ⟨rfl, rfl, rfl, rfl, id⟩

/-- The wear kept against a serial is taken into its slot. -/
def takeKept (n : BitVec 64) (s : State) : State := { s with ks := { s.ks with wear := dropKey n s.ks.wear } }

/-- A record with its CRC, of protocol 1 and of a known type, names the cartridge. -/
theorem identify_good {x : Slot} {b : List Byte} {s : State} (hc : ofLe (b.drop 28) = crc32 (b.take 28)) (hp : recordField b 9 1 = 1)
    (ht : recordField b 8 1 = 1 ∨ recordField b 8 1 = 2) : identify x b s =
      drawNonce x (modSlot x (namedSlot b ((look (BitVec.ofNat 64 (recordField b 0 8)) s.ks.wear).getD 0))
        (takeKept (BitVec.ofNat 64 (recordField b 0 8)) s)) := by
  refine if_neg ?_
  rw [decide_eq_true hc, decide_eq_true (p := ofLe ((b.drop 9).take 1) = 1) hp,
    decide_eq_true (p := ofLe ((b.drop 8).take 1) = 1 ∨ ofLe ((b.drop 8).take 1) = 2) ht]
  decide

/-- A slot that holds a cartridge's record, and an uncharged wear. -/
def Identified (c : Cart) (n : Nat) (t : CtSlot) : Prop :=
  t.identified = true ∧ t.serial = c.serial ∧ t.budget = lifeBudget c.big ∧ t.idType = (if c.big then 2 else 1) ∧ t.uncharged = n

/-- An undamaged record of protocol 1 names the cartridge, and the wear kept against its serial is the slot's (R78). -/
theorem identify_effect {x : Slot} {c : Cart} {s : State} (h : c.identOk = true) (hp : c.proto = 1) :
    AnswerKept x s (identify x (identityRecord c) s) ∧
    Identified c ((look c.serial s.ks.wear).getD 0) ((identify x (identityRecord c) s).slot x) := by
  obtain ⟨h0, h8, h9, h16⟩ := identityRecord_fields h
  have hserial : BitVec.ofNat 64 (recordField (identityRecord c) 0 8) = c.serial := by
    rw [h0, ofLe_leBytes_lt (c.serial.isLt.trans_le (by decide)), BitVec.ofNat_toNat, BitVec.setWidth_eq]
  have hlife : recordField (identityRecord c) 16 8 = lifeBudget c.big :=
    h16.trans (ofLe_leBytes_lt (by cases c.big <;> decide))
  have htype : BitVec.ofNat 8 (recordField (identityRecord c) 8 1) = if c.big then 2 else 1 := by
    rw [h8]
    cases c.big <;> rfl
  have hgood := identify_good (x := x) (s := s) (identityRecord_crc h) (h9.trans (by rw [hp]; rfl))
    (by rw [h8]; cases c.big <;> decide)
  have hk : AnswerKept x s (takeKept (BitVec.ofNat 64 (recordField (identityRecord c) 0 8)) s) := answerKept_of_ct rfl rfl rfl rfl
  have hx : (takeKept (BitVec.ofNat 64 (recordField (identityRecord c) 0 8)) s).slot x = s.slot x := slot_congr s rfl x
  rw [hgood, drawNonce_slot, modSlot_slot, hx]
  exact ⟨(hk.trans (answerKept_modSlot (slotKept_named _ _) _)).trans (answerKept_drawNonce ..), rfl, hserial, hlife, htype,
    congrArg (fun n => (look n s.ks.wear).getD 0) hserial⟩

end Sys2Proof.Machine

namespace Sys2Proof.Machine

/-! ### What a supervisor executes (Table 3.4) -/

theorem syncClock_slews {v : Sv} {t : Nat} (hn : v.clockMs ≠ t) (h1 : v.clockMs ≤ t + 250) (h2 : t ≤ v.clockMs + 250) :
    syncClock v t = ({ v with slewMs := (t : Int) - v.clockMs }, 1) := by
  unfold syncClock
  extract_lets d
  rw [if_neg (by omega), if_pos (by omega)]

/-- A supervisor whose clock stepped: the exposure interval is closed, and the step recorded (R89). -/
def steppedSv (v : Sv) (t : Nat) : Sv :=
  { v with
    steps := lastN 8 (v.steps ++ [(v.clockMs, t)]), closed := v.closed ++ [(v.openMs, v.clockMs, true)], openMs := t
    clockMs := t, slewMs := 0 }

theorem syncClock_steps {v : Sv} {t : Nat} (h : v.clockMs + 250 < t) : syncClock v t = (steppedSv v t, 2) := by
  unfold syncClock
  extract_lets d
  rw [if_neg (by omega), if_neg (by omega)]
  rfl

/-- A page of EXPO_READ fits an answer. -/
theorem expoPage_length {v : Sv} {page : Nat} {b : List Byte} (h : expoPage v page = some b) : b.length ≤ 64 := by
  unfold expoPage at h
  split at h
  · obtain rfl := Option.some.inj h
    simp
  · split at h
    · obtain rfl := Option.some.inj h
      simp
    · split at h
      · obtain rfl := Option.some.inj h
        split <;> simp
      · exact absurd h (by simp)

/-- A supervisor that is charged a wear (R83). -/
def chargedSv (v : Sv) (n : Nat) : Sv := { v with spent := v.spent + n }

theorem svExecute_wearCharge {c : Cart} {n : Nat} (h : n < 256 ^ 8) :
    svExecute c 4 (leBytes 8 n) [] = (chargedSv c.sv n, cOK, leBytes 8 (c.sv.spent + n)) := by
  have he (m : Nat) (hm : ofLe (leBytes 8 n) = m) :
      svExecute c 4 (leBytes 8 n) [] = (chargedSv c.sv m, cOK, leBytes 8 (c.sv.spent + m)) := hm ▸ rfl
  exact he n (ofLe_leBytes_lt h)

theorem svExecute_expoRead {c : Cart} {page : Byte} {b : List Byte} (h : expoPage c.sv page.toNat = some b) :
    svExecute c 5 [page] [] = (c.sv, cOK, b) := by
  have he : svExecute c 5 [page] [] = (expoPage c.sv page.toNat).elim (c.sv, cRANGE, []) fun b => (c.sv, cOK, b) := by
    show (match expoPage c.sv page.toNat with | some b => (c.sv, cOK, b) | none => (c.sv, cRANGE, [])) = _
    cases expoPage c.sv page.toNat <;> rfl
  rw [he, h]
  rfl

theorem svExecute_clockSync {c : Cart} {n k : Nat} {v : Sv} (hn : n < 2 ^ 64) (h : syncClock c.sv n = (v, k)) :
    svExecute c 6 (leBytes 8 n) [] = (v, cOK, leBytes 8 c.sv.clockMs ++ leBytes 1 k) := by
  have he (r : Sv × Nat) (hr : syncClock c.sv (ofLe (leBytes 8 n)) = r) :
      svExecute c 6 (leBytes 8 n) [] = (r.1, cOK, leBytes 8 c.sv.clockMs ++ leBytes 1 r.2) := hr ▸ rfl
  exact he (v, k) (by rw [ofLe_leBytes_lt (by omega), h])

/-- The lamp's mode and the notice, as the byte that brings them. -/
theorem lamp_byte : ∀ m : Fin 3, BitVec.ofNat 2 ((leBytes 1 m.val).headD 0).toNat = BitVec.ofNat 2 m.val := by decide
theorem notice_byte : ∀ on : Bool, decide (([if on then 1 else 0] : List Byte).headD 0 ≠ 0) = on := by decide

/-! ### Identity and authentication (R78, R79) -/

/-- The slot whose cartridge's record has arrived, before it is judged. -/
def recordArrived (x : Slot) (c : Cart) (s : State) : State :=
  paid x 1 (answered x (ownRequest x 1 [] [] s) c c.sv (identityRecord c) s)

theorem idRead_answered {s : State} {x : Slot} {c : Cart} (hs : s.out = []) (h : CanAsk s x c) (ht : authTurn s x = true)
    (hi : (s.slot x).identified = false) (hok : c.identOk = true) (hp : c.proto = 1) :
    ∃ t, exchangeIf (authTurn s x && !(s.slot x).identified) x 1 [] [] .answered s = t ∧
      AnswerTaken s t x 1 [] (identityRecord c) ∧ (t.slot x).identified = true ∧ (t.slot x).serial = c.serial ∧
      (t.slot x).budget = lifeBudget c.big ∧ (t.slot x).idType = (if c.big then 2 else 1) ∧
      (t.slot x).uncharged = (look c.serial s.ks.wear).getD 0 := by
  have hl : (identityRecord c).length < 256 := by
    rw [identityRecord_ok hok, List.length_append, identityBody_length, leBytes_length]
    decide
  obtain ⟨hk, hid⟩ := identify_effect (x := x) (s := recordArrived x c s) hok hp
  obtain ⟨he, hta, -⟩ := exchangeIf_answered (p := authTurn s x && !(s.slot x).identified) hs h
    (.inl (by rw [ht, hi]; rfl)) rfl rfl (by decide) hl ((answerKept_paid ..).trans hk) rfl
  obtain ⟨hks, -⟩ : (recordArrived x c s).ks = s.ks ∧ _ := arrived_units ..
  rw [hks] at hid
  exact ⟨_, he, hta, hid⟩

theorem authTurn_state {s : State} {x : Slot} (h : authTurn s x = true) : (s.slot x).state = .auth :=
  of_decide_eq_true (Bool.and_eq_true_iff.1 h).1

/-- The slot whose tag has arrived, before it is judged. -/
def tagArrived (x : Slot) (c : Cart) (tag : List Byte) (s : State) : State :=
  paid x 2 (answered x (ownRequest x 2 (leBytes 16 (s.slot x).nonce.toNat) tag s) c c.sv tag s)

theorem tagArrived_slot (x : Slot) (c : Cart) (tag : List Byte) (s : State) : (tagArrived x c tag s).slot x =
    paidSlot 2 (answeredSlot (ownRequest x 2 (leBytes 16 (s.slot x).nonce.toNat) tag s) c c.sv tag (s.slot x)) :=
  paid_answered_slot ..

/-- What is judged of a slot stands as its tag arrives. -/
theorem tagArrived_fields (x : Slot) (c : Cart) (tag : List Byte) (s : State) :
    ((tagArrived x c tag s).slot x).state = (s.slot x).state ∧ ((tagArrived x c tag s).slot x).authTries = (s.slot x).authTries ∧
    ((tagArrived x c tag s).slot x).idType = (s.slot x).idType ∧
    expectedTag (tagArrived x c tag s) ((tagArrived x c tag s).slot x) = expectedTag s (s.slot x) := by
  obtain ⟨-, hbt, -⟩ : _ ∧ (tagArrived x c tag s).bt = s.bt ∧ _ := arrived_units ..
  rw [tagArrived_slot]
  obtain ⟨hst, htr, hid, hser, hno, -⟩ := arrived_fields 2 (ownRequest x 2 (leBytes 16 (s.slot x).nonce.toNat) tag s) c c.sv tag (s.slot x)
  exact ⟨hst, htr, hid, expectedTag_congr hbt hser hid hno⟩

/-- A tag that a cartridge whose turn it is gives is judged (R79). -/
theorem auth_answered {s : State} {x : Slot} {c : Cart} {tag : BitVec 128} (hs : s.out = []) (h : CanAsk s x c)
    (ht : authTurn s x = true) (hi : (s.slot x).identified = true)
    (hk : AnswerKept x (tagArrived x c (leBytes 16 tag.toNat) s)
      (judgeTag x (leBytes 16 tag.toNat) (tagArrived x c (leBytes 16 tag.toNat) s))) :
    exchangeIf (authTurn s x && (s.slot x).identified) x 2 (leBytes 16 (s.slot x).nonce.toNat) (leBytes 16 tag.toNat) .answered s =
      judgeTag x (leBytes 16 tag.toNat) (tagArrived x c (leBytes 16 tag.toNat) s) ∧
    AnswerTaken s (judgeTag x (leBytes 16 tag.toNat) (tagArrived x c (leBytes 16 tag.toNat) s)) x 2
      (leBytes 16 (s.slot x).nonce.toNat) (leBytes 16 tag.toNat) := by
  obtain ⟨he, hta, -⟩ := exchangeIf_answered (p := authTurn s x && (s.slot x).identified) hs h
    (.inl (by rw [ht, hi]; rfl)) rfl rfl (by rw [leBytes_length]; decide)
    (by rw [leBytes_length]; decide) ((answerKept_paid ..).trans hk) rfl
  exact ⟨he, hta⟩

theorem auth_right {s : State} {x : Slot} {c : Cart} {tag : BitVec 128} (hs : s.out = []) (h : CanAsk s x c)
    (ht : authTurn s x = true) (hi : (s.slot x).identified = true) (htag : leBytes 16 tag.toNat = expectedTag s (s.slot x)) :
    ∃ t, exchangeIf (authTurn s x && (s.slot x).identified) x 2 (leBytes 16 (s.slot x).nonce.toNat) (leBytes 16 tag.toNat) .answered s
        = t ∧
      AnswerTaken s t x 2 (leBytes 16 (s.slot x).nonce.toNat) (leBytes 16 tag.toNat) ∧ (t.slot x).state = .training ∧
      (t.slot x).typeCode = BitVec.ofNat 4 (s.slot x).idType.toNat ∧ (3 : BitVec 7) ∈ (t.slot x).svDue ∧
      (6 : BitVec 7) ∈ (t.slot x).svDue := by
  obtain ⟨hst, -, hid, hexp⟩ := tagArrived_fields x c (leBytes 16 tag.toNat) s
  have hj : judgeTag x (leBytes 16 tag.toNat) (tagArrived x c (leBytes 16 tag.toNat) s) =
      authPass x (tagArrived x c (leBytes 16 tag.toNat) s) :=
    judgeTag_right (hst.trans (authTurn_state ht)) (htag.trans hexp.symm)
  obtain ⟨he, hta⟩ := auth_answered hs h ht hi (hj ▸ answerKept_authPass ..)
  obtain ⟨h1, h2, h3, h4⟩ := authPass_effect x (tagArrived x c (leBytes 16 tag.toNat) s)
  rw [hid] at h2
  rw [hj] at he hta
  exact ⟨_, he, hta, h1, h2, h3, h4⟩

theorem auth_wrong {s : State} {x : Slot} {c : Cart} {tag : BitVec 128} (hs : s.out = []) (h : CanAsk s x c)
    (ht : authTurn s x = true) (hi : (s.slot x).identified = true) (htag : leBytes 16 tag.toNat ≠ expectedTag s (s.slot x)) :
    ∃ t, exchangeIf (authTurn s x && (s.slot x).identified) x 2 (leBytes 16 (s.slot x).nonce.toNat) (leBytes 16 tag.toNat) .answered s
        = t ∧
      AnswerTaken s t x 2 (leBytes 16 (s.slot x).nonce.toNat) (leBytes 16 tag.toNat) ∧
      (t.slot x).authTries = (s.slot x).authTries + 1 ∧
      (t.slot x).state = (if 2 ≤ (s.slot x).authTries then .authFailed else .auth) := by
  obtain ⟨hst, htr, -, hexp⟩ := tagArrived_fields x c (leBytes 16 tag.toNat) s
  obtain ⟨hk, h1, h2⟩ := judgeTag_wrong_effect (hst.trans (authTurn_state ht)) fun e => htag (e.trans hexp)
  obtain ⟨he, hta⟩ := auth_answered hs h ht hi hk
  rw [htr] at h1 h2
  exact ⟨_, he, hta, h1, h2⟩

/-! ### Wear (R77, R83) -/

/-- A slot in which a spent wear is noted. -/
def spentSeen (n : Nat) (t : CtSlot) : CtSlot := { t with svSpent := n }

theorem slotKept_spentSeen (n : Nat) (t : CtSlot) : SlotKept t (spentSeen n t) := ⟨rfl, rfl, rfl, rfl, id⟩

theorem wearRead_answered {s : State} {x : Slot} {c : Cart} (hs : s.out = []) (h : CanAsk s x c) (hw : svOwed s x 3 = true)
    (hlt : c.sv.spent < 2 ^ 64) : ∃ t, exchangeIf false x 3 [] [] .answered s = t ∧
      AnswerTaken s t x 3 [] (leBytes 8 c.sv.spent ++ leBytes 8 (lifeBudget c.big)) ∧ (t.slot x).svSpent = c.sv.spent ∧
      (t.slot x).uncharged = (s.slot x).uncharged := by
  have hn : ofLe ((leBytes 8 c.sv.spent ++ leBytes 8 (lifeBudget c.big)).take 8) = c.sv.spent := by
    rw [List.take_left' (leBytes_length ..), ofLe_leBytes_lt hlt]
  obtain ⟨he, hta, -⟩ := exchangeIf_answered (p := false) (req := []) (extra := [])
    (b := leBytes 8 c.sv.spent ++ leBytes 8 (lifeBudget c.big)) hs h (.inr hw) rfl rfl (by decide)
    (by rw [List.length_append, leBytes_length, leBytes_length]; decide)
    ((answerKept_noted (slotKept_spentSeen _) 3 _).trans (answerKept_chargeSlot x 0 _)) rfl
  refine ⟨_, he, hta, ?_⟩
  obtain ⟨⟨w, hx⟩, -⟩ := chargeSlot_effect x 0 (modSlot x
    (spentSeen (ofLe ((leBytes 8 c.sv.spent ++ leBytes 8 (lifeBudget c.big)).take 8)))
    (paid x 3 (answered x (ownRequest x 3 [] [] s) c c.sv (leBytes 8 c.sv.spent ++ leBytes 8 (lifeBudget c.big)) s)))
  rw [hx, modSlot_slot, paid_answered_slot]
  exact ⟨hn, rfl⟩

/-- A slot whose uncharged wear has been charged. -/
def chargedTo (n m : Nat) (t : CtSlot) : CtSlot := { t with uncharged := t.uncharged - n, svSpent := m }

theorem slotKept_chargedTo (n m : Nat) (t : CtSlot) : SlotKept t (chargedTo n m t) := ⟨rfl, rfl, rfl, rfl, id⟩

theorem wearCharge_answered {s : State} {x : Slot} {c : Cart} (hs : s.out = []) (h : CanAsk s x c) (hw : svOwed s x 4 = true)
    (hlt : c.sv.spent + (s.slot x).uncharged < 2 ^ 64) :
    ∃ t, exchangeIf false x 4 (leBytes 8 (s.slot x).uncharged) [] .answered s = t ∧
      AnswerTaken s t x 4 (leBytes 8 (s.slot x).uncharged) (leBytes 8 (c.sv.spent + (s.slot x).uncharged)) ∧
      (t.slot x).uncharged = 0 ∧ (t.slot x).svSpent = c.sv.spent + (s.slot x).uncharged ∧
      ∃ c', (t.slot x).cart = some c' ∧ c'.sv.spent = c.sv.spent + (s.slot x).uncharged := by
  have hu : (s.slot x).uncharged < 256 ^ 8 := (Nat.le_add_left ..).trans_lt hlt
  obtain ⟨he, hta, hc⟩ := exchangeIf_answered (p := false) hs h (.inr hw) (svExecute_wearCharge hu) rfl (by rw [leBytes_length]; decide)
    (by rw [leBytes_length]; decide) (answerKept_noted (slotKept_chargedTo _ _) 4 _) rfl
  refine ⟨_, he, hta, ?_, ?_, _, hc, rfl⟩
  · rw [modSlot_slot, paid_answered_slot]
    exact (congrArg ((s.slot x).uncharged - ·) (ofLe_leBytes_lt hu)).trans (Nat.sub_self _)
  · rw [modSlot_slot]
    exact ofLe_leBytes_lt hlt

/-! ### Exposure and the clock (R87, R89) -/

theorem expoRead_answered {s : State} {x : Slot} {c : Cart} {page : Byte} {b : List Byte} (hs : s.out = []) (h : CanAsk s x c)
    (hw : svOwed s x 5 = true) (hb : expoPage c.sv page.toNat = some b) :
    ∃ t, exchangeIf false x 5 [page] [] .answered s = t ∧ AnswerTaken s t x 5 [page] b := by
  obtain ⟨he, hta, -⟩ := exchangeIf_answered (p := false) hs h (.inr hw) (svExecute_expoRead hb) rfl
    (Nat.one_lt_ofNat : [page].length < 256) ((expoPage_length hb).trans_lt (by decide)) (answerKept_paid x 5 _) rfl
  exact ⟨_, he, hta⟩

/-- A slot whose supervisor's clock was set. -/
def syncedSlot (n : Nat) (t : CtSlot) : CtSlot := { t with lastSync := n }

theorem slotKept_synced (n : Nat) (t : CtSlot) : SlotKept t (syncedSlot n t) := ⟨rfl, rfl, rfl, rfl, id⟩

/-- CLOCK_SYNC, asked where it is due: the supervisor answers with its clock and with what it does to it (R89). -/
theorem clockSync_answered {s : State} {x : Slot} {c : Cart} {v : Sv} {k : Nat} (hs : s.out = []) (h : CanAsk s x c)
    (hd : syncDue s x = true) (hl : lgtMs s.lg.lgt < 2 ^ 64) (hv : syncClock c.sv (lgtMs s.lg.lgt) = (v, k))
    (hx : v.exposed = c.sv.exposed) :
    ∃ t, exchangeIf (syncDue s x) x 6 (syncPayload s) [] .answered s = t ∧
      AnswerTaken s t x 6 (syncPayload s) (leBytes 8 c.sv.clockMs ++ leBytes 1 k) ∧ (t.slot x).lastSync = s.now ∧
      ∃ o b, (t.slot x).cart = some (servedCart o c v b) := by
  obtain ⟨he, hta, hc⟩ := exchangeIf_answered (p := syncDue s x) hs h (.inl hd) (svExecute_clockSync hl hv) hx
    (by rw [leBytes_length]; decide) (by rw [List.length_append, leBytes_length, leBytes_length]; decide)
    (answerKept_noted (slotKept_synced _) 6 _) rfl
  refine ⟨_, he, hta, ?_, _, _, hc⟩
  rw [modSlot_slot]
  exact (arrived_units ..).2.2

theorem clockSync_slews {s : State} {x : Slot} {c : Cart} (hs : s.out = []) (h : CanAsk s x c)
    (hd : syncDue s x = true) (hl : lgtMs s.lg.lgt < 2 ^ 64) (hn : c.sv.clockMs ≠ lgtMs s.lg.lgt)
    (h1 : c.sv.clockMs ≤ lgtMs s.lg.lgt + 250) (h2 : lgtMs s.lg.lgt ≤ c.sv.clockMs + 250) :
    ∃ t, exchangeIf (syncDue s x) x 6 (syncPayload s) [] .answered s = t ∧
      AnswerTaken s t x 6 (syncPayload s) (leBytes 8 c.sv.clockMs ++ [1]) ∧ (t.slot x).lastSync = s.now ∧
      ∃ c', (t.slot x).cart = some c' ∧ c'.sv.clockMs = c.sv.clockMs ∧ c'.sv.slewMs = (lgtMs s.lg.lgt : Int) - c.sv.clockMs := by
  obtain ⟨t, he, hta, hls, o, b, hc⟩ := clockSync_answered hs h hd hl (syncClock_slews hn h1 h2) rfl
  exact ⟨t, he, hta, hls, _, hc, rfl, rfl⟩

theorem clockSync_steps {s : State} {x : Slot} {c : Cart} (hs : s.out = []) (h : CanAsk s x c)
    (hd : syncDue s x = true) (hl : lgtMs s.lg.lgt < 2 ^ 64) (h1 : c.sv.clockMs + 250 < lgtMs s.lg.lgt) :
    ∃ t, exchangeIf (syncDue s x) x 6 (syncPayload s) [] .answered s = t ∧
      AnswerTaken s t x 6 (syncPayload s) (leBytes 8 c.sv.clockMs ++ [2]) ∧
      ∃ c', (t.slot x).cart = some c' ∧ c'.sv.clockMs = lgtMs s.lg.lgt ∧ c'.sv.slewMs = 0 ∧
        c'.sv.steps = lastN 8 (c.sv.steps ++ [(c.sv.clockMs, lgtMs s.lg.lgt)]) := by
  obtain ⟨t, he, hta, -, o, b, hc⟩ := clockSync_answered hs h hd hl (syncClock_steps h1) rfl
  exact ⟨t, he, hta, _, hc, rfl, rfl, rfl⟩

/-! ### Sensors, lamp, alerts, tests and notices (R77) -/

/-- A slot whose sensors were read. -/
def sensedSlot (n : BitVec 8) (m : BitVec 16) (t : CtSlot) : CtSlot := { t with envHot := n, envField := m }

theorem slotKept_sensed (n : BitVec 8) (m : BitVec 16) (t : CtSlot) : SlotKept t (sensedSlot n m t) := ⟨rfl, rfl, rfl, rfl, id⟩

theorem sensorRead_answered {s : State} {x : Slot} {c : Cart} (hs : s.out = []) (h : CanAsk s x c) (ha : authed (s.slot x) = true) :
    ∃ t, exchangeIf (authed (s.slot x)) x 7 [] [] .answered s = t ∧
      AnswerTaken s t x 7 [] (c.sv.temps.toList ++ leBytes 2 c.sv.field.toNat) ∧ (t.slot x).envField = c.sv.field ∧
      (t.slot x).envHot = hottestOf c.sv.temps.toList := by
  have ht : c.sv.temps.toList.length = 4 := c.sv.temps.length_toList
  have hf : BitVec.ofNat 16 (ofLe ((c.sv.temps.toList ++ leBytes 2 c.sv.field.toNat).drop 4)) = c.sv.field := by
    rw [List.drop_left' ht, ofLe_leBytes_lt c.sv.field.isLt, BitVec.ofNat_toNat, BitVec.setWidth_eq]
  obtain ⟨he, hta, -⟩ := exchangeIf_answered (p := authed (s.slot x)) (opc := 7) (req := []) (extra := [])
    (b := c.sv.temps.toList ++ leBytes 2 c.sv.field.toNat) hs h (.inl ha) rfl rfl (by decide)
    (by rw [List.length_append, ht, leBytes_length]; decide) (answerKept_noted (slotKept_sensed _ _) 7 _) rfl
  refine ⟨_, he, hta, ?_⟩
  rw [modSlot_slot]
  exact ⟨hf, congrArg hottestOf (List.take_left' ht)⟩

theorem indicator_answered {s : State} {x : Slot} {c : Cart} {m : Fin 3} (hs : s.out = []) (h : CanAsk s x c)
    (ha : authed (s.slot x) = true) (hm : wantLamp (s.slot x) = BitVec.ofNat 2 m.val) :
    ∃ t, exchangeIf (authed (s.slot x) && decide (wantLamp (s.slot x) = BitVec.ofNat 2 m.val)) x 8 (leBytes 1 m.val) [] .answered s
        = t ∧
      AnswerTaken s t x 8 (leBytes 1 m.val) [] ∧ ∃ c', (t.slot x).cart = some c' ∧ c'.sv.lamp = BitVec.ofNat 2 m.val := by
  obtain ⟨he, hta, hc⟩ := exchangeIf_answered
    (p := authed (s.slot x) && decide (wantLamp (s.slot x) = BitVec.ofNat 2 m.val)) (opc := 8) (req := leBytes 1 m.val) (extra := [])
    (b := []) hs h (.inl (by rw [ha, decide_eq_true hm]; rfl)) rfl rfl
    (by rw [leBytes_length]; decide) (by decide) (answerKept_paid x 8 _) rfl
  exact ⟨_, he, hta, _, hc, lamp_byte m⟩

/-- A slot whose alerts were read. -/
def alertsRead (t : CtSlot) : CtSlot := { t with alertPending := false }

theorem slotKept_alertsRead (t : CtSlot) : SlotKept t (alertsRead t) := ⟨rfl, rfl, rfl, rfl, id⟩

theorem alertRead_answered {s : State} {x : Slot} {c : Cart} (hs : s.out = []) (h : CanAsk s x c)
    (ha : (s.slot x).alertPending = true) (hb : booting s = false) :
    ∃ t, exchangeIf ((s.slot x).alertPending && !booting s) x 9 [] [] .answered s = t ∧
      AnswerTaken s t x 9 [] (leBytes 2 c.sv.alerts.toNat) ∧ (t.slot x).alertPending = false ∧
      ∃ c', (t.slot x).cart = some c' ∧ c'.sv.alerts = 0 := by
  obtain ⟨he, hta, hc⟩ := exchangeIf_answered (p := (s.slot x).alertPending && !booting s) (opc := 9) (req := [])
    (extra := []) (b := leBytes 2 c.sv.alerts.toNat) hs h (.inl (by rw [ha, hb]; rfl)) rfl rfl (by decide) (by rw [leBytes_length]; decide)
    (answerKept_noted slotKept_alertsRead 9 _) rfl
  exact ⟨_, he, hta, congrArg CtSlot.alertPending (modSlot_slot ..), _, hc, rfl⟩

theorem fieldTest_answered {s : State} {x : Slot} {c : Cart} {p : Byte} {r : BitVec 64} (hs : s.out = []) (h : CanAsk s x c)
    (hr : testBit 9 x ∈ s.bt.running) :
    ∃ t, exchangeIf (s.bt.running.any fun i => decide (i = testBit 9 x)) x 10 [p] (leBytes 8 r.toNat) .answered s = t ∧
      AnswerTaken s t x 10 [p] (leBytes 8 r.toNat) := by
  have hrun : (s.bt.running.any fun i => decide (i = testBit 9 x)) = true := List.any_eq_true.2 ⟨_, hr, decide_eq_true rfl⟩
  obtain ⟨he, hta, -⟩ := exchangeIf_answered (opc := 10) (req := [p]) (extra := leBytes 8 r.toNat) (v := c.sv) hs h (.inl hrun) rfl rfl
    (Nat.one_lt_ofNat : [p].length < 256)     (by rw [leBytes_length]; decide) (answerKept_paid x 10 _) rfl
  exact ⟨_, he, hta⟩

theorem powerNotice_answered {s : State} {x : Slot} {c : Cart} {on : Bool} (hs : s.out = []) (h : CanAsk s x c)
    (hw : svOwed s x 11 = true) (hf : noticeFits s x on = true) :
    ∃ t, (if noticeFits s x on then exchangeIf false x 11 [if on then 1 else 0] [] .answered s else s) = t ∧
      AnswerTaken s t x 11 [if on then 1 else 0] [] ∧ ∃ c', (t.slot x).cart = some c' ∧ c'.sv.vcart = on := by
  obtain ⟨he, hta, hc⟩ := exchangeIf_answered (p := false) (opc := 11) (req := [if on then 1 else 0]) (extra := []) (b := [])
    hs h (.inr hw) rfl rfl Nat.one_lt_ofNat (by decide)
    (answerKept_paid x 11 _) rfl
  exact ⟨_, (if_pos hf).trans he, hta, _, hc, notice_byte on⟩

/-- An outcome is the next state that an equation gives. -/
theorem next_of_eq {e : State} {p : State → Prop} (h : ∃ t, e = t ∧ p t) :
    ∃ t, (.next e : Host.Outcome State Fault Refusal) = .next t ∧ p t :=
  h.imp fun _ ⟨he, hp⟩ => ⟨congrArg _ he, hp⟩

/-- Settles O42: `exchangeIf_answered` gives the frames of each exchange, and the lemma of each command what its answer leaves. -/
theorem supervisorCommandsAreAnswered : Obligations.SupervisorCommandsAreAnswered :=
  ⟨fun s _ _ h ht hi hok hp => next_of_eq (idRead_answered (s := noOut s) rfl h ht hi hok hp),
    fun s _ _ _ h ht hi htag => next_of_eq (auth_right (s := noOut s) rfl h ht hi htag),
    fun s _ _ _ h ht hi htag => next_of_eq (auth_wrong (s := noOut s) rfl h ht hi htag),
    fun s _ _ h hw hlt => next_of_eq (wearRead_answered (s := noOut s) rfl h hw hlt),
    fun s _ _ h hw hlt => next_of_eq (wearCharge_answered (s := noOut s) rfl h hw hlt),
    fun s _ _ _ _ h hw hb => next_of_eq (expoRead_answered (s := noOut s) rfl h hw hb),
    fun s _ _ h hd hl hn h1 h2 => next_of_eq (clockSync_slews (s := noOut s) rfl h hd hl hn h1 h2),
    fun s _ _ h hd hl h1 => next_of_eq (clockSync_steps (s := noOut s) rfl h hd hl h1),
    fun s _ _ h ha => next_of_eq (sensorRead_answered (s := noOut s) rfl h ha),
    fun s _ _ _ h ha hm => next_of_eq (indicator_answered (s := noOut s) rfl h ha hm),
    fun s _ _ h ha hb => next_of_eq (alertRead_answered (s := noOut s) rfl h ha hb),
    fun s _ _ _ _ h hr => next_of_eq (fieldTest_answered (s := noOut s) rfl h hr),
    fun s _ _ _ h hw hf => next_of_eq (powerNotice_answered (s := noOut s) rfl h hw hf)⟩

end Sys2Proof.Machine

namespace Sys2Proof.Machine

/-! ### The magnetic field (R127 to R130, R64) -/

theorem ite_related {r : State → State → Prop} {p : Prop} [Decidable p] {s t u : State} (ht : r s t) (hu : r s u) :
    r s (if p then t else u) := iteInduction (fun _h => ht) fun _h => hu

/-- A command that acts gives what its action's next state has. -/
theorem gives_of {c : Instr} {s t : State} {P : State → Prop} (f : State → State) (he : exec c s = .next (f (noOut s)))
    (h : f (noOut s) = t) (hp : P t) : Gives c s P := ⟨t, he.trans (congrArg Host.Outcome.next h), hp⟩

/-- The power unit; the inhibits of a slot and of the other, the slot's FLDINH_N, and the other slot; the line-writes; and the units
that a change of the field leaves alone. -/
def fieldView (x : Slot) (s : State) : Pw × Option Nat × Option Nat × Bool × CtSlot × List LineWrite × Pc × Ks × DuetUnit :=
  (s.pw, inhibitedAt s x, inhibitedAt s x.other, (s.slot x).fldLow, s.slot x.other, s.md.writes, s.pc, s.ks, s.duet)

/-- A slot with its FLDINH_N at a level. -/
def withFldinh (x : Slot) (low : Bool) : State → State := modSlot x fun t => { t with fldLow := low }

/-- A slot's line-writes are set back: they are on its re-verify list, with no sense to come (R128). -/
def setBack (x : Slot) (s : State) : State :=
  { s with md := { s.md with writes := s.md.writes.map fun w => if w.slot = x then { w with held := true, fired := false } else w } }

/-- A slot's inhibit has its start (R127). -/
def withInhibit (x : Slot) (n : Nat) (s : State) : State :=
  match x with
  | .a => { s with md := { s.md with inhA := some n, inhibitsA := s.md.inhibitsA + 1 } }
  | .b => { s with md := { s.md with inhB := some n, inhibitsB := s.md.inhibitsB + 1 } }

theorem registerInhibit_taken {x : Slot} {n : Nat} {s : State} (hi : inhibitedAt s x = none) (hc : (s.slot x).cart.isSome = true)
    (hk : s.pw.state.clocked = true) : registerInhibit x n s = withInhibit x n (setBack x s) :=
  if_neg (e := withInhibit x n (setBack x s)) (not_or.2 ⟨Option.not_isSome_iff_eq_none.2 hi, not_or.2
    ⟨fun h => Option.ne_none_iff_isSome.2 hc (Option.isNone_iff_eq_none.1 h), ne_true_of_eq_false (congrArg not hk)⟩⟩)

theorem inhibit_taken {s : State} {x : Slot} (hc : (s.slot x).cart.isSome = true) (hk : s.pw.state.clocked = true)
    (hi : inhibitedAt s x = none) : inhibit x s = withInhibit x s.now (setBack x (withFldinh x true s)) :=
  registerInhibit_taken (s := withFldinh x true s) ((inhibitedAt_congr (modSlot_md ..) x).trans hi)
    ((congrArg (fun t : CtSlot => t.cart.isSome) (modSlot_slot ..)).trans hc)
    ((congrArg (fun p : Pw => p.state.clocked) (modSlot_pw ..)).trans hk)

theorem fieldView_inhibited (x : Slot) (s : State) :
    let t := withInhibit x s.now (setBack x (withFldinh x true s))
    (fieldView x t, t.ev, t.gl) = ((s.pw, some s.now, inhibitedAt s x.other, true, s.slot x.other, (setBack x s).md.writes, s.pc, s.ks,
      s.duet), s.ev, s.gl) := by
  cases x
  · rfl
  · rfl

/-- The slot's inhibit has ended, and its FLDINH_N is high (Table 4.20). -/
def eased (x : Slot) (n : Nat) (s : State) : State := endInhibit x n (withFldinh x false s)

theorem fieldView_eased (x : Slot) (n : Nat) (s : State) : fieldView x (eased x n s) =
    (s.pw, none, inhibitedAt s x.other, false, s.slot x.other, s.md.writes, s.pc, s.ks, s.duet) := by
  cases x
  · rfl
  · rfl

/-- A clear with its reports: it is logged, unless it is the coil's own (R129), and the last one is requested of the channels. -/
def cleared (x : Slot) (p : BitVec 16) (n : Nat) (s : State) : State :=
  let u := withFldinh x false s
  let v := eased x ((u.now - n) / ms) s
  let v := if coilOnly u x p then v else raise uMD cFIELD_INHIBIT noCtx (lo32 x.num) (lo32 ((u.now - n) / ms)) (p.setWidth 32) v
  if (u.slot x).serves && (heldSlots v).isEmpty then pulseLine 6 1 v else v

/-- The last clear takes the engine out of FIELD_HOLD (R130). -/
def afterClear (s : State) : State :=
  if s.pw.state = .fieldHold ∧ (heldSlots s).isEmpty then goState (activeOrQuiet s) 0 s else s

/-- A clear, with a change of the binding record that waited for it. -/
def clearedAt (x : Slot) (p : BitVec 16) (s : State) : Option Nat → State
  | none => withFldinh x false s
  | some n => settleBind (afterClear (cleared x p n s))

theorem settleBind_none {s : State} (h : s.duet.bindDue = none) : settleBind s = s := by rw [settleBind, h]

theorem fieldView_logged (x : Slot) (dm : Dm) (ev : Ev) (s : State) : fieldView x { s with dm := dm, ev := ev } = fieldView x s := rfl

theorem fieldView_raise (x : Slot) (u : BitVec 5) (k c : BitVec 8) (d0 d1 d2 : Word) (s : State) :
    fieldView x (raise u k c d0 d1 d2 s) = fieldView x s := (congrArg (fieldView x) (raiseF_shape ..)).trans (fieldView_logged ..)

/-- A change of the engine's state is the power unit's and the log's alone. -/
theorem fieldView_goState (x : Slot) (p : Power) (w : BitVec 8) (s : State) : (fieldView x (goState p w s)).2 = (fieldView x s).2 :=
  iteInduction (motive := fun t => (fieldView x t).2 = (fieldView x s).2) (fun _h => rfl)
    fun _h => (congrArg (fun t => (fieldView x t).2) (trace_shape 0x02 (BitVec.ofNat 8 p.code) (lo32 s.pw.state.code) (w.setWidth 32) s) :)

theorem fieldView_pulseLine (x : Slot) (l n : Nat) (s : State) : fieldView x (pulseLine l n s) = fieldView x s :=
  fieldView_logged ..

theorem fieldView_cleared (x : Slot) (p : BitVec 16) (n : Nat) (s : State) : fieldView x (cleared x p n s) =
    (s.pw, none, inhibitedAt s x.other, false, s.slot x.other, s.md.writes, s.pc, s.ks, s.duet) :=
  have h := @ite_related fun s t => fieldView x t = fieldView x s
  (h (fieldView_pulseLine ..) rfl).trans ((h rfl (fieldView_raise ..)).trans (fieldView_eased ..))

theorem fieldView_afterClear (x : Slot) (s : State) : (fieldView x (afterClear s)).2 = (fieldView x s).2 :=
  ite_related (r := fun s t => (fieldView x t).2 = (fieldView x s).2) (fieldView_goState ..) rfl

theorem clearInhibit_eq {x : Slot} {p : BitVec 16} {n : Nat} {s : State} (hi : inhibitedAt s x = some n)
    (hb : s.duet.bindDue = none) : clearInhibit x p s = afterClear (cleared x p n s) :=
  (congrArg (clearedAt x p s) ((inhibitedAt_congr (modSlot_md ..) x).trans hi)).trans
    (settleBind_none ((congrArg (fun v : _ × _ × _ × _ × _ × _ × _ × DuetUnit => v.2.2.2.2.2.2.2.bindDue) ((fieldView_afterClear x _).trans
      (congrArg Prod.snd (fieldView_cleared ..)))).trans hb))

theorem Slot.eq_or_other : ∀ x y : Slot, y = x ∨ y = x.other := by
  rintro (_ | _) (_ | _) <;> decide

/-- With the other slot out of service, an inhibit that ended was the last. -/
theorem heldSlots_nil {x : Slot} {s : State} (hx : inhibitedAt s x = none) (ho : (s.slot x.other).serves = false) :
    heldSlots s = [] :=
  List.filter_eq_nil_iff.2 fun y _h k => (Slot.eq_or_other x y).elim
    (fun h => Bool.false_ne_true ((congrArg (fun o => o.elim false fun c => decide (c ≤ s.now)) hx).symm.trans (h ▸ Bool.and_elim_right k)))
    fun h => Bool.false_ne_true (ho.symm.trans (h ▸ Bool.and_elim_left k))

theorem afterClear_state {x : Slot} {s : State} (hp : s.pw.state = .fieldHold) (hx : inhibitedAt s x = none)
    (ho : (s.slot x.other).serves = false) : (afterClear s).pw.state = activeOrQuiet s :=
  (congrArg (fun t : State => t.pw.state) (if_pos ⟨hp, congrArg List.isEmpty (heldSlots_nil hx ho)⟩)).trans (goState_state ..)

/-- What an inhibit's clear leaves. -/
theorem afterClear_effect {x : Slot} {s u : State} (hv : fieldView x u =
    (s.pw, none, inhibitedAt s x.other, false, s.slot x.other, s.md.writes, s.pc, s.ks, s.duet)) :
    inhibitedAt (afterClear u) x = none ∧ inhibitedAt (afterClear u) x.other = inhibitedAt s x.other ∧
    ((afterClear u).slot x).fldLow = false ∧ (afterClear u).md.writes = s.md.writes ∧
    (s.pw.state = .fieldHold → (s.slot x.other).serves = false → (afterClear u).pw.state = (if s.pw.quietEn then .quiet else .active)) ∧
    (afterClear u).pc = s.pc ∧ (afterClear u).ks = s.ks :=
  have hr := (fieldView_afterClear x u).trans (congrArg Prod.snd hv)
  have hw : u.pw = s.pw := congrArg Prod.fst hv
  ⟨congrArg (fun v => v.1) hr, congrArg (fun v => v.2.1) hr, congrArg (fun v => v.2.2.1) hr, congrArg (fun v => v.2.2.2.2.1) hr,
    fun hp ho => (afterClear_state ((congrArg Pw.state hw).trans hp) (congrArg (fun v => v.2.1) hv)
      ((congrArg (fun v => v.2.2.2.2.1.serves) hv).trans ho)).trans (congrArg (fun p : Pw => if p.quietEn then Power.quiet else .active) hw),
    congrArg (fun v => v.2.2.2.2.2.1) hr, congrArg (fun v => v.2.2.2.2.2.2.1) hr⟩

/-! ### FIELD_HOLD -/

theorem dropArm_armed (s : State) : (dropArm s).pw.armed = none ∧ (dropArm s).now = s.now :=
  iteInduction (motive := fun t : State => t.pw.armed = none ∧ t.now = s.now) (fun _h => ⟨rfl, rfl⟩)
    fun h => ⟨Option.not_isSome_iff_eq_none.1 h, rfl⟩

theorem logField_effect (f : BitVec 4) (s : State) : (logField f s).gl.stall = s.gl.stall ∧
    (logField f s).md = { s.md with lastField := s.now } ∧ (logField f s).pw = s.pw ∧ (logField f s).pc = s.pc :=
  ⟨congrArg Gl.stall (raiseF_gl ..), raiseF_md .., raiseF_pw .., raiseF_pc ..⟩

theorem logField_hold (s : State) :
    let t := logField 0 (dropArm (goState .fieldHold cFIELD s))
    t.pw.state = .fieldHold ∧ t.pw.armed = none ∧ t.md.lastField = s.now ∧ t.pc = s.pc :=
  have h := logField_effect 0 (dropArm (goState .fieldHold cFIELD s))
  ⟨(congrArg Pw.state h.2.2.1).trans ((dropArm_state _).1.trans (goState_state ..)), (congrArg Pw.armed h.2.2.1).trans (dropArm_armed _).1,
    (congrArg Md.lastField h.2.1).trans ((dropArm_armed _).2.trans (goState_now ..)), h.2.2.2.trans ((dropArm_state _).2.trans (goState_pc ..))⟩

theorem elim_of_some {o : Option Nat} {n : Nat} {p : Nat → Bool} (h : o = some n) (hp : p n = true) : o.elim false p = true := by
  rw [h]
  exact hp

theorem mem_bothSlots (x : Slot) : x ∈ bothSlots := by cases x <;> decide

/-- An inhibit in service that is 50 ms old puts an ACTIVE or QUIET engine in FIELD_HOLD (R130, R320). -/
theorem fieldHold_enters {x : Slot} {n : Nat} {s : State} (hu : usual s = true) (hd : s.pc.drain = none)
    (hs : (s.slot x).serves = true) (hi : inhibitedAt s x = some n) (hn : n + 50 * ms ≤ s.now) :
    fieldHold s = logField 0 (dropArm (goState .fieldHold cFIELD s)) :=
  if_pos ⟨((Bool.or_eq_true ..).mp hu).imp of_decide_eq_true of_decide_eq_true, List.any_eq_true.2
    ⟨x, List.mem_filter.2 ⟨mem_bothSlots x, (Bool.and_eq_true ..).mpr ⟨hs, elim_of_some hi
      (decide_eq_true (Nat.le_of_add_right_le hn))⟩⟩, elim_of_some hi (decide_eq_true hn)⟩, congrArg Option.isNone hd⟩

/-- FIELD_HOLD that has lasted for a minute since FIELD was logged (Table 2.9, row 4). -/
def persisting (s : State) : State := { s with gl := { s.gl with stall := { s.gl.stall with fieldPersist := true } } }

theorem fieldRepeat_due {s : State} (hp : s.pw.state = .fieldHold) (hn : s.md.lastField + 60 * sec ≤ s.now) :
    fieldRepeat s = logField 1 (persisting s) := if_pos ⟨hp, hn⟩

theorem inhibited_effect (x : Slot) (s : State) :
    let t := withInhibit x s.now (setBack x (withFldinh x true s))
    inhibitedAt t x = some s.now ∧ inhibitedAt t x.other = inhibitedAt s x.other ∧ (t.slot x).fldLow = true ∧
    t.md.writes = (setBack x s).md.writes ∧ t.pc = s.pc ∧ t.pw = s.pw ∧ t.ev = s.ev ∧ t.gl = s.gl :=
  have h := fieldView_inhibited x s
  ⟨congrArg (fun v => v.1.2.1) h, congrArg (fun v => v.1.2.2.1) h, congrArg (fun v => v.1.2.2.2.1) h, congrArg (fun v => v.1.2.2.2.2.2.1) h,
    congrArg (fun v => v.1.2.2.2.2.2.2.1) h, congrArg (fun v => v.1.1) h, congrArg (fun v => v.2.1) h, congrArg (fun v => v.2.2) h⟩

/-- Settles O36: the inhibit's registration and clear are written out as states, and the entry to FIELD_HOLD and its repeat are
what `logField` leaves. -/
theorem fieldInhibitsAndHolds : Obligations.FieldInhibitsAndHolds :=
  ⟨fun s x hc hk hi => gives_of (inhibit x) rfl (inhibit_taken (s := noOut s) hc hk hi) (inhibited_effect x (noOut s)),
    fun s x _n p hi hb => gives_of (clearInhibit x p) rfl (clearInhibit_eq (s := noOut s) hi hb)
      (afterClear_effect (s := noOut s) (fieldView_cleared x p _ (noOut s))),
    fun s _x _n hu hd hs hi hn => gives_of fieldHold rfl (fieldHold_enters (s := noOut s) hu hd hs hi hn) (logField_hold (noOut s)),
    fun s hp hn => gives_of fieldRepeat rfl (fieldRepeat_due (s := noOut s) hp hn) (logField_effect 1 (persisting (noOut s)))⟩

end Sys2Proof.Machine

namespace Sys2Proof.Machine

/-! ### What stands on a cartridge line -/

/-- A cartridge with another line at one address. -/
def withLine (n : Nat) (l : StoredLine) (c : Cart) : Cart := { c with lines := insertKey n l c.lines }

theorem lineOn_eq {s : State} {x : Slot} {c : Cart} (h : (s.slot x).cart = some c) (n : Nat) : lineOn s x n = lineAt c n := by
  delta lineOn
  rw [h]

/-- A stored line stands at its own address, and no other line changes. -/
theorem lineOn_stored {s t : State} {x : Slot} {n : Nat} {l : StoredLine} (h : (s.slot x).cart.isSome = true)
    (ht : (t.slot x).cart = (s.slot x).cart.map (withLine n l)) :
    lineOn t x n = l ∧ ∀ m, m ≠ n → lineOn t x m = lineOn s x m :=
  (Option.isSome_iff_exists.1 h).elim fun c hc =>
    have hm := ht.trans (congrArg (Option.map (withLine n l)) hc)
    ⟨(lineOn_eq hm n).trans (lineAt_stored ..), fun m hn => (lineOn_eq hm m).trans ((lineAt_other c l hn).trans (lineOn_eq hc m).symm)⟩

theorem writeLine_unarmed {s : State} (h : s.md.injArmed = false) (x : Slot) (n : Nat) (l : StoredLine) :
    writeLine x n l s = storeLine x n l s :=
  congrArg (fun p : State × StoredLine => storeLine x n p.2 p.1)
    (if_neg (e := (s, l)) fun k => Bool.false_ne_true (h.symm.trans (Bool.and_elim_left (Bool.and_elim_left k))))

/-! ### What a line-write of the engine's own leaves alone -/

/-- A slot's cartridge, a context's ERR_HARD, and what is beside them that the media's line-writes may change. -/
abbrev MediaView := (Pc × Tn × DuetUnit) × Option Cart × Ks × List Req × List LineWrite × List Rewrite × Nat × Bool × BitVec 32

def viewOf (p : Pc) (n : Tn) (u : DuetUnit) (c : Option Cart) (k : Ks) (g : Gl) (m : Md) (e : BitVec 32) : MediaView :=
  ((p, n, u), c, k, g.ingress, m.writes, m.rewrites, m.tFailed, m.injArmed, e)

def mediaView (x : Slot) (d : Ctx) (s : State) : MediaView := viewOf s.pc s.tn s.duet (s.slot x).cart s.ks s.gl s.md s.lg.live[d].errHard

/-- A view with another cartridge. -/
def MediaView.onCart (f : Cart → Cart) (v : MediaView) : MediaView := (v.1, v.2.1.map f, v.2.2)

section
variable (x : Slot) (d : Ctx)

theorem mediaView_modCart (f : Cart → Cart) (s : State) :
    mediaView x d (modCart x f s) = (mediaView x d s).onCart f := by
  cases x
  · rfl
  · rfl

theorem mediaView_md (m : Md) (s : State) : mediaView x d { s with md := m } =
    viewOf s.pc s.tn s.duet (s.slot x).cart s.ks s.gl m s.lg.live[d].errHard := rfl

theorem mediaView_noteTries (n : Nat) (s : State) : mediaView x d (noteTries n s) = mediaView x d s :=
  have h := @ite_related fun s t => mediaView x d t = mediaView x d s
  h rfl (h rfl (h rfl rfl))

theorem mediaView_touchBank (n : Nat) (s : State) : mediaView x d (touchBank x n s) = mediaView x d s := by
  cases x
  · rfl
  · rfl

theorem addWear_errHard (t : Tempo) (n : Nat) (k : Counters) : (addWear t n k).errHard = k.errHard := by cases t <;> rfl

/-- A counter that leaves ERR_HARD alone leaves it to every context (Table 6.1). -/
theorem count_errHard {f : Counters → Counters} (hf : ∀ k, (f k).errHard = k.errHard) (c d : Ctx) (s : State) :
    (count c f s).lg.live[d].errHard = s.lg.live[d].errHard :=
  (eq_or_ne c.val d.val).elim (fun e => Fin.ext e ▸ (congrArg Counters.errHard (count_live c f s)).trans (hf _))
    fun e => congrArg Counters.errHard (Vector.getElem_set_ne c.isLt d.isLt e)

theorem mediaView_engineWrites (t : Tempo) (n : Nat) (s : State) : mediaView x d (engineWrites x t n s) = mediaView x d s :=
  (congr (congr (congr (congr (congr (congr (congr (congrArg viewOf (engineWrites_pc s x t n)) (engineWrites_tn s x t n)) (engineWrites_duet s x t n))
    ((cartKept_engineWrites x t n s).2 x)) (engineWrites_ks s x t n)) (engineWrites_gl s x t n)) (engineWrites_md s x t n))
    ((count_errHard (addWear_errHard t n) provider d _).trans (congrArg (fun g : Lg => g.live[d].errHard) (chargeSlot_lg s x (n * t.price)))) :)

end

/-- A line-write of the engine's own, paid for by the provider, whose try passes (R38, R109). -/
def written (x : Slot) (n : Nat) (k : Fin 8) (s : State) : State := (tryLine x n [some k] (engineWrites x .lento 1 s)).1

theorem mediaView_written (x : Slot) (d : Ctx) (n : Nat) (k : Fin 8) (s : State) : mediaView x d (written x n k s) = mediaView x d s :=
  (mediaView_noteTries x d (k.val + 1) (bumpGap x n 1 (engineWrites x .lento 1 s))).trans (mediaView_engineWrites x d .lento 1 s)

/-! ### Rewrites (R117) -/

theorem takesWrite_cart {s : State} {x : Slot} {n : Nat} (h : takesWrite s x n = true) : (s.slot x).cart.isSome = true :=
  ((Bool.or_eq_true _ _).mp (Bool.and_elim_left (Bool.and_elim_left (Bool.and_elim_left (Bool.and_elim_left (Bool.and_elim_left h)))))).elim
    Bool.and_elim_left fun k => Bool.and_elim_left (Bool.and_elim_left k)

theorem nextRewrite_cart {s : State} {p : Bool} {r : Rewrite} (h : nextRewrite s p = some r) : (s.slot r.slot).cart.isSome = true :=
  takesWrite_cart (Bool.and_elim_right (Bool.and_elim_left (List.find?_some (p := fun r : Rewrite =>
    decide (r.poison = p) && takesWrite s r.slot r.cline && decide (s.pw.state ≠ .rest)) h)))

/-- The rewrite has left the queue, with its tag (R53), and its line is read again (R117). -/
def reread (r : Rewrite) (s : State) : State :=
  touchBank r.slot r.cline (touchTag { s with md := { s.md with rewrites := s.md.rewrites.erase r } })

/-- What a reading of the line comes to, with no injection armed (R112, R117). -/
def rewriteRead (r : Rewrite) (e : Sense) (k : Fin 8) (s : State) : Reading → State
  | .good n wrong =>
    if n = 0 ∨ n < (reread r s).md.rewrite then reread r s
    else writeLine r.slot r.cline { (lineOn s r.slot r.cline).seen wrong with
      poison := ((lineOn s r.slot r.cline).seen wrong).poison || false } (written r.slot r.cline k (reread r s))
  | .bad _ => writeLine r.slot r.cline ((lineOn s r.slot r.cline).poisoned ((lineOn s r.slot r.cline).err ^^^ e.again))
      (written r.slot r.cline k (reread r s))

/-- The state with no injection armed. -/
def unarmed (s : State) : State := { s with md := { s.md with injArmed := false } }

theorem rewriteLine_unarmed {s : State} {p : Bool} {r : Rewrite} (e : Sense) (k : Fin 8) (w : Tries)
    (hn : nextRewrite (unarmed s) p = some r) (ht : tagFree (unarmed s) .wbk provider = true) :
    rewriteLine p e (some k :: w) (unarmed s) = rewriteRead r e k (unarmed s) (readLineCells (lineOn (unarmed s) r.slot r.cline) e) :=
  (congrArg (fun o => match o with
    | none => unarmed s
    | some r => if !tagFree (unarmed s) .wbk provider then unarmed s
      else rewriteRead r e k (unarmed s) (readLineCells (lineOn (unarmed s) r.slot r.cline) e)) hn).trans
    (if_neg (ne_true_of_eq_false (congrArg not ht)))

theorem rewriteLine_reads {s : State} {p : Bool} {r : Rewrite} (e : Sense) (k : Fin 8) (w : Tries) (hn : nextRewrite s p = some r)
    (ht : tagFree s .wbk provider = true) (hj : s.md.injArmed = false) :
    rewriteLine p e (some k :: w) s = rewriteRead r e k s (readLineCells (lineOn s r.slot r.cline) e) := by
  rw [← (congrArg (fun b => { s with md := { s.md with injArmed := b } }) hj.symm : unarmed s = s)] at hn ht ⊢
  exact rewriteLine_unarmed e k w hn ht

/-- The state after a rewrite that stores a line. -/
def rewritten (r : Rewrite) (l : StoredLine) (k : Fin 8) (s : State) : State :=
  storeLine r.slot r.cline l (written r.slot r.cline k (reread r s))

theorem mediaView_reread (r : Rewrite) (s : State) : mediaView r.slot provider (reread r s) =
    viewOf s.pc s.tn s.duet (s.slot r.slot).cart s.ks s.gl { s.md with rewrites := s.md.rewrites.erase r } s.lg.live[provider].errHard :=
  (mediaView_touchBank ..).trans (mediaView_md ..)

theorem touchBank_units (x : Slot) (n : Nat) (s : State) : (touchBank x n s).md = s.md ∧ (touchBank x n s).lg = s.lg := by
  cases x
  · exact ⟨rfl, rfl⟩
  · exact ⟨rfl, rfl⟩

theorem reread_rewrite (r : Rewrite) (s : State) : (reread r s).md.rewrite = s.md.rewrite := (congrArg Md.rewrite (touchBank_units ..).1 :)

theorem noteTries_lg (n : Nat) (s : State) : (noteTries n s).lg = s.lg := (congrArg State.lg (noteTries_md n s).1 :)

theorem mediaView_rewritten (r : Rewrite) (l : StoredLine) (k : Fin 8) (s : State) : mediaView r.slot provider (rewritten r l k s) =
    ((s.pc, s.tn, s.duet), (s.slot r.slot).cart.map (withLine r.cline l), s.ks, s.gl.ingress, s.md.writes, s.md.rewrites.erase r, s.md.tFailed,
      s.md.injArmed, s.lg.live[provider].errHard) :=
  (mediaView_modCart ..).trans (congrArg (MediaView.onCart (withLine r.cline l)) ((mediaView_written ..).trans (mediaView_reread r s)))

/-- The wear of a rewrite is the provider's (R38). -/
theorem rewritten_wear (r : Rewrite) (l : StoredLine) (k : Fin 8) (s : State) :
    (rewritten r l k s).lg.live[provider].wear = s.lg.live[provider].wear + 1 :=
  (congrArg (fun g : Lg => g.live[provider].wear) ((storeLine_lg ..).trans (noteTries_lg ..))).trans
    ((congrArg Counters.wear (engineWrites_effect r.slot .lento 1 (reread r s)).2.2).trans
      (congrArg (fun g : Lg => g.live[provider].wear + 1) (touchBank_units ..).2))

section
variable {s : State} {r : Rewrite} (l : StoredLine) (k : Fin 8) (hc : (s.slot r.slot).cart.isSome = true)
include hc

theorem rewritten_repairs : lineOn (rewritten r l k s) r.slot r.cline = l ∧ (rewritten r l k s).md.rewrites = s.md.rewrites.erase r ∧
    (rewritten r l k s).lg.live[provider].wear = s.lg.live[provider].wear + 1 ∧ (rewritten r l k s).pc = s.pc ∧
    (rewritten r l k s).tn = s.tn :=
  have hv := mediaView_rewritten r l k s
  ⟨(lineOn_stored hc (congrArg (fun v => v.2.1) hv)).1, congrArg (fun v => v.2.2.2.2.2.1) hv, rewritten_wear .., congrArg (fun v => v.1.1) hv,
    congrArg (fun v => v.1.2.1) hv⟩

theorem rewritten_poisons (hl : l.poison = true) : (lineOn (rewritten r l k s) r.slot r.cline).poison = true ∧
    (∀ m, m ≠ r.cline → lineOn (rewritten r l k s) r.slot m = lineOn s r.slot m) ∧
    (rewritten r l k s).md.rewrites = s.md.rewrites.erase r ∧
    (rewritten r l k s).lg.live[provider].wear = s.lg.live[provider].wear + 1 ∧ (rewritten r l k s).pc = s.pc :=
  have hv := mediaView_rewritten r l k s
  have h := lineOn_stored hc (congrArg (fun v => v.2.1) hv)
  ⟨(congrArg StoredLine.poison h.1).trans hl, h.2, congrArg (fun v => v.2.2.2.2.2.1) hv, rewritten_wear .., congrArg (fun v => v.1.1) hv⟩

end

theorem writeLine_written {r : Rewrite} {s : State} (k : Fin 8) (l : StoredLine) (hj : s.md.injArmed = false) :
    writeLine r.slot r.cline l (written r.slot r.cline k (reread r s)) = rewritten r l k s :=
  writeLine_unarmed ((congrArg (fun v : MediaView => v.2.2.2.2.2.2.2.1) ((mediaView_written ..).trans (mediaView_reread r s))).trans hj) ..

/-- A line that decodes without a wrong data bit. -/
theorem seen_right (l : StoredLine) : { l.seen 0 with poison := (l.seen 0).poison || false } = { l with err := 0 } :=
  (congrArg (fun m : StoredLine => { m with poison := m.poison || false }) (if_pos rfl : l.seen 0 = { l with err := 0 })).trans
    (congrArg (fun b => { l with err := 0, poison := b }) (Bool.or_false l.poison))

section
variable {s : State} {r : Rewrite} {p : Bool} {e : Sense} (k : Fin 8) (w : Tries) (hn : nextRewrite s p = some r)
  (ht : tagFree s .wbk provider = true) (hj : s.md.injArmed = false)
include hn ht hj

/-- A line that decodes with enough wrong bits is written again as it decodes (R117, Table 4.19). -/
theorem rewriteLine_corrects {n : Nat} (h0 : 0 < n) (hr : s.md.rewrite ≤ n)
    (hl : readLineCells (lineOn s r.slot r.cline) e = .good n 0) :
    rewriteLine p e (some k :: w) s = rewritten r { lineOn s r.slot r.cline with err := 0 } k s :=
  (rewriteLine_reads e k w hn ht hj).trans ((congrArg (rewriteRead r e k s) hl).trans ((if_neg (not_or.2 ⟨h0.ne',
    fun h => hr.not_gt (lt_of_lt_of_eq h (reread_rewrite r s))⟩)).trans ((writeLine_written k _ hj).trans
      (congrArg (fun l => rewritten r l k s) (seen_right _)))))

/-- A line that decodes no more is poisoned (R112, R117). -/
theorem rewriteLine_poisons {code : BitVec 8} (hl : readLineCells (lineOn s r.slot r.cline) e = .bad code) :
    rewriteLine p e (some k :: w) s =
      rewritten r ((lineOn s r.slot r.cline).poisoned ((lineOn s r.slot r.cline).err ^^^ e.again)) k s :=
  (rewriteLine_reads e k w hn ht hj).trans ((congrArg (rewriteRead r e k s) hl).trans (writeLine_written k _ hj))

end

/-- Settles O34: the rewrite's line-write and the poison write pass their first try. -/
theorem rewritesRepairOrPoison : Obligations.RewritesRepairOrPoison :=
  ⟨fun s _r e _n k w hn ht hj h0 hr hl => gives_of (rewriteLine false e (some k :: w)) rfl
      (rewriteLine_corrects (s := noOut s) k w hn ht hj h0 hr hl) (rewritten_repairs (s := noOut s) _ k (nextRewrite_cart hn)),
    fun s _r e _code k w hn ht hj hl => gives_of (rewriteLine true e (some k :: w)) rfl
      (rewriteLine_poisons (s := noOut s) k w hn ht hj hl) (rewritten_poisons (s := noOut s) _ k (nextRewrite_cart hn) rfl)⟩

end Sys2Proof.Machine

namespace Sys2Proof.Machine

/-! ### A bank's line-write (R105, R109) -/

theorem or_false_of {a b : Bool} (ha : a = false) (hb : b = false) : (a || b) = false := by rw [ha, hb]; rfl

/-- What a pulse does with its bank's line-write. -/
def pulseOf (x : Slot) (b : Fin 128) (s : State) : Option LineWrite → State
  | some w =>
    if w.fired || w.held || inhibited s x || decide (8 ≤ w.used) || !writesRun s then s
    else modWrite x b (fun w => { w with fired := true, used := w.used + 1 }) s
  | none => s

/-- A try has failed (Table 4.17). -/
def tryFailed (s : State) : State := { s with md := { s.md with tFailed := s.md.tFailed + 1 } }

/-- What the eighth failed try comes to, by its relocation (R110). -/
def afterLastTry (x : Slot) (b : Fin 128) (w : LineWrite) (r : State × Written) : State :=
  if r.2.ok then passWrite x b true r.1 else writeFailed w r.2 r.1

/-- A line-write whose tries are spent is relocated (R110). -/
def triesSpent (x : Slot) (b : Fin 128) (q : Tries) (w : LineWrite) (s : State) : State :=
  markResync x w.cline (afterLastTry x b w (relocate x w.cline (physOf (tryFailed s) x w.cline) q (tryFailed s)))

/-- A line-write may try again. -/
def tryAgain (x : Slot) (b : Fin 128) : State → State := modWrite x b fun w => { w with fired := false, held := false }

/-- What a trusted sense of a try comes to (R109, R110, R128). -/
def trusted (x : Slot) (b : Fin 128) (n : Nat) (q : Tries) (w : LineWrite) (s : State) : State :=
  if n = 0 then markResync x w.cline (passWrite x b false s) else if w.used < 8 then tryAgain x b s else triesSpent x b q w s

section
variable {s : State} {x : Slot} {b : Fin 128} {w : LineWrite} (hw : writeOn s x b = some w)
include hw

theorem writeOn_some : w.slot = x ∧ bankOf w.cline = b :=
  have h : (decide (w.slot = x) && decide (bankOf w.cline = b)) = true :=
    List.find?_some (p := fun w : LineWrite => decide (w.slot = x) && decide (bankOf w.cline = b)) hw
  ⟨of_decide_eq_true (Bool.and_elim_left h), of_decide_eq_true (Bool.and_elim_right h)⟩

theorem pulse_fires (hf : w.fired = false) (hh : w.held = false) (hi : inhibited s x = false) (hu : w.used < 8)
    (hr : writesRun s = true) : pulse x b s = modWrite x b (fun w => { w with fired := true, used := w.used + 1 }) s :=
  (congrArg (pulseOf x b s) hw).trans (if_neg (ne_true_of_eq_false (or_false_of (or_false_of (or_false_of (or_false_of hf hh) hi)
    (decide_eq_false (not_le.2 hu))) (congrArg not hr))))

theorem pulse_spent (hu : 8 ≤ w.used) : pulse x b s = s :=
  (congrArg (pulseOf x b s) hw).trans (if_pos (Bool.or_inl (Bool.or_inr (decide_eq_true hu))))

theorem senseResult_trusted (n : Nat) (q : Tries) (hf : w.fired = true) (hi : inhibited s x = false) (hr : writesRun s = true) :
    senseResult x b n q s = trusted x b n q w s :=
  (congrArg (fun o => match o with
    | none => s
    | some w => if inhibited s x || !(w.fired || w.held) || !writesRun s then s else trusted x b n q w s) hw).trans
    (if_neg (ne_true_of_eq_false (or_false_of (or_false_of hi (congrArg (fun f => !(f || w.held)) hf)) (congrArg not hr))))

end

theorem writeOn_endWrite {s t : State} {x : Slot} {b : Fin 128} (h : t.md.writes = (endWrite x b s).md.writes) :
    writeOn t x b = none :=
  List.find?_eq_none.2 fun w hw => ne_true_of_eq_false ((Bool.not_eq_true' _).mp (List.of_mem_filter (p := fun w : LineWrite =>
    !(decide (w.slot = x) && decide (bankOf w.cline = b))) (h ▸ hw : w ∈ (endWrite x b s).md.writes)))

/-! ### The last home of a hold slot (R24) -/

/-- A slot is freed, and the requests that waited for its verify are answered (R51). -/
def slotFreed (h : HoldSlot) (l : List HoldSlot) (q : List Nat) (s : State) : State :=
  q.foldl (fun s r => lineVerified r s)
    { s with pc := { s.pc with slots := l, relSlots := if h.direct then s.pc.relSlots else s.pc.relSlots.add s.now 1 } }

theorem find?_only {h : HoldSlot} {l : List HoldSlot} (hl : l = [h]) : l.find? (fun g => decide (g.id = h.id)) = some h := by
  rw [hl]
  exact List.find?_cons_of_pos (decide_eq_true rfl)

theorem filter_only {h : HoldSlot} {l : List HoldSlot} (hl : l = [h]) : l.filter (fun g => decide (g.id ≠ h.id)) = [] := by
  rw [hl]
  exact List.filter_cons_of_neg (fun h => of_decide_eq_true h rfl)

theorem slotDone_only {h : HoldSlot} {s : State} (hs : s.pc.slots = [h]) : slotDone h.id s = slotFreed h [] h.reqs s :=
  (congrArg (fun o => match o with
    | none => s
    | some g => slotFreed g (s.pc.slots.filter fun k => decide (k.id ≠ h.id)) g.reqs s) (find?_only hs)).trans
    (congrArg (fun l => slotFreed h l h.reqs s) (filter_only hs))

/-- A slot of the hold buffer without a home. -/
def dropHome (x : Slot) (n : Nat) (h : HoldSlot) : HoldSlot := { h with left := h.left.filter fun l => decide (l ≠ (x, n)) }

/-- The state with other slots in its hold buffer. -/
def withSlots (l : List HoldSlot) (s : State) : State := { s with pc := { s.pc with slots := l } }

theorem update_only (f : HoldSlot → HoldSlot) {h : HoldSlot} {l : List HoldSlot} (hl : l = [h]) :
    update (fun g => decide (g.id = h.id)) f l = [f h] := by
  rw [hl]
  exact congrArg (fun g => [g]) (if_pos (decide_eq_true (rfl : h.id = h.id)))

theorem dropHome_last {x : Slot} {n : Nat} {h : HoldSlot} (hl : h.left = [(x, n)]) : (dropHome x n h).left = [] :=
  (congrArg (List.filter fun k => decide (k ≠ (x, n))) hl).trans (List.filter_cons_of_neg fun h => of_decide_eq_true h rfl)

/-- The last home of the only dirty slot frees it. -/
theorem homeDone_last {x : Slot} {n : Nat} {h : HoldSlot} {s : State} (hs : s.pc.slots = [h]) (hl : h.left = [(x, n)]) :
    homeDone h.id x n s = slotFreed h [] h.reqs s :=
  (congrArg (fun l => match l.find? (fun g => decide (g.id = h.id)) with
    | some g => if g.left.isEmpty then slotDone h.id (withSlots l s) else withSlots l s
    | none => withSlots l s) (update_only (dropHome x n) hs)).trans
    ((congrArg (fun o => match o with
      | some g => if g.left.isEmpty then slotDone h.id (withSlots [dropHome x n h] s) else withSlots [dropHome x n h] s
      | none => withSlots [dropHome x n h] s) (find?_only (h := dropHome x n h) rfl)).trans
    ((if_pos (congrArg List.isEmpty (dropHome_last hl))).trans (slotDone_only (h := dropHome x n h) rfl)))

/-! ### A line-write that passes (R109) -/

/-- A line-write of some kind, first or second in its order, with or without a merge of poison. -/
def asWrite (w : LineWrite) (k : WriteKind) (a b : Bool) : LineWrite := { w with kind := k, second := a, poisonMerge := b }

theorem afterPass_hold {s : State} {w : LineWrite} {h : HoldSlot} (hk : w.kind = .hold h.id)
    (h2 : w.second = false) (hm : w.poisonMerge = false) (hs : s.pc.slots = [h]) :
    afterPass w false s = homeDone h.id w.slot w.cline s :=
  (congrArg (fun v => afterPass v false s) (congr (congr (congrArg (asWrite w) hk) h2) hm)).trans (congrArg (fun o => match o with
    | none => s
    | some _ => homeDone h.id w.slot w.cline s) (find?_only hs))

/-- A view whose line-write of a bank has ended. -/
def MediaView.ended (x : Slot) (b : Fin 128) (v : MediaView) : MediaView :=
  (v.1, v.2.1, v.2.2.1, v.2.2.2.1, v.2.2.2.2.1.filter fun w => !(decide (w.slot = x) && decide (bankOf w.cline = b)), v.2.2.2.2.2)

theorem mediaView_dropTag? (x : Slot) (d : Ctx) (tag : Option Nat) (s : State) : mediaView x d (dropTag? tag s) = mediaView x d s := by
  cases tag
  · rfl
  · rfl

/-- The state after a pass of a try: the line is stored, and the write has left its bank and its tag, and is counted (Table 4.17). -/
def tryPassed (x : Slot) (b : Fin 128) (w : LineWrite) (s : State) : State :=
  noteTries w.used (bumpGap x w.cline 1 (dropTag? w.tag (endWrite x b (storeLine x w.cline w.line s))))

theorem mediaView_tryPassed (x : Slot) (d : Ctx) (b : Fin 128) (w : LineWrite) (s : State) :
    mediaView x d (tryPassed x b w s) = ((mediaView x d s).onCart (withLine w.cline w.line)).ended x b :=
  (mediaView_noteTries x d w.used _).trans ((mediaView_dropTag? x d w.tag (endWrite x b (storeLine x w.cline w.line s))).trans
    (congrArg (MediaView.ended x b) (mediaView_modCart x d (withLine w.cline w.line) s)))

theorem tryPassed_lg (x : Slot) (b : Fin 128) (w : LineWrite) (s : State) : (tryPassed x b w s).lg = s.lg :=
  (noteTries_lg ..).trans ((dropTagOpt_lg (endWrite x b (storeLine x w.cline w.line s)) w.tag).trans (storeLine_lg s x w.cline w.line) :)

theorem passWrite_stores {s : State} {x : Slot} {b : Fin 128} {w : LineWrite} (hw : writeOn s x b = some w)
    (hj : s.md.injArmed = false) (hu : userLine s x w.cline = true) :
    passWrite x b false s = afterPass w false (tryPassed x b w s) :=
  (congrArg (fun o => match o with
    | none => s
    | some w => afterPass w false (noteTries w.used (bumpGap x w.cline 1 (dropTag? w.tag (endWrite x b
      (if userLine s x w.cline then writeLine x w.cline w.line s else s)))))) hw).trans
    (congrArg (fun v => afterPass w false (noteTries w.used (bumpGap x w.cline 1 (dropTag? w.tag (endWrite x b v)))))
      ((if_pos hu).trans (writeLine_unarmed hj ..)))

/-- The state once the hold buffer's only dirty slot is freed, with nothing left to write back (R24, R45). -/
def holdEmptied (h : HoldSlot) (s : State) : State :=
  let t := slotFreed h [] [] s
  { t with pc := { t.pc with writebackAll := false } }

theorem backAll_freed (h : HoldSlot) (s : State) : backAll (slotFreed h [] [] s) = holdEmptied h s := if_pos rfl

theorem markResync_kept {s : State} (h : s.duet.state ≠ .mirrorDegraded) (x : Slot) (n : Nat) : markResync x n s = s := if_neg h

section
variable {s : State} {x : Slot} {b : Fin 128} {w : LineWrite} {h : HoldSlot} {c : Cart}
  (hw : writeOn s x b = some w) (hk : w.kind = .hold h.id) (h2 : w.second = false) (hm : w.poisonMerge = false)
  (hj : s.md.injArmed = false) (hs : s.pc.slots = [h]) (hl : h.left = [(x, w.cline)]) (hq : h.reqs = [])
  (hc : (s.slot x).cart = some c) (hu : w.cline < userLines c.big)
include hw hk h2 hm hj hs hl hq hc hu

theorem passWrite_last : passWrite x b false s = slotFreed h [] [] (tryPassed x b w s) :=
  have hslots : (tryPassed x b w s).pc.slots = [h] := (congrArg (fun v : MediaView => v.1.1.slots) (mediaView_tryPassed x provider b w s)).trans hs
  (passWrite_stores hw hj ((congrArg (fun o : Option Cart => match o with
    | some c => decide (w.cline < userLines c.big)
    | none => false) hc).trans
    (decide_eq_true hu))).trans ((afterPass_hold hk h2 hm hslots).trans ((homeDone_last hslots (hl.trans
      (congrArg (fun y => [(y, w.cline)]) (writeOn_some hw).1.symm))).trans (congrArg (fun q => slotFreed h [] q (tryPassed x b w s)) hq)))

theorem trySense_last (q : Tries) (hf : w.fired = true) (hi : inhibited s x = false) (hr : writesRun s = true)
    (hd : s.duet.state ≠ .mirrorDegraded) : backAll (senseResult x b 0 q s) = holdEmptied h (tryPassed x b w s) :=
  (congrArg backAll ((senseResult_trusted hw 0 q hf hi hr).trans ((if_pos rfl).trans
    ((congrArg (markResync x w.cline) (passWrite_last hw hk h2 hm hj hs hl hq hc hu)).trans (markResync_kept (s := slotFreed h [] [] (tryPassed x b w s)) (fun he => hd
      ((congrArg (fun v : MediaView => v.1.2.2.state) (mediaView_tryPassed x provider b w s)).symm.trans he)) x w.cline))))).trans
    (backAll_freed ..)

end

/-- What that leaves: the line at its home and no other line changed, and the write off its bank. -/
theorem holdEmptied_effect {s : State} {x : Slot} (b : Fin 128) (w : LineWrite) (h : HoldSlot) (hc : (s.slot x).cart.isSome = true) :
    let t := holdEmptied h (tryPassed x b w s)
    lineOn t x w.cline = w.line ∧ (∀ n, n ≠ w.cline → lineOn t x n = lineOn s x n) ∧
    t.pc.slots = [] ∧ t.pc.writebackAll = false ∧ writeOn t x b = none ∧ t.tn = s.tn ∧ t.lg = s.lg :=
  have hv := mediaView_tryPassed x provider b w s
  have hl := lineOn_stored (t := holdEmptied h (tryPassed x b w s)) hc (congrArg (fun v => v.2.1) hv)
  ⟨hl.1, hl.2, rfl, rfl, writeOn_endWrite (s := s) (congrArg (fun v => v.2.2.2.2.1) hv), congrArg (fun v => v.1.2.1) hv, tryPassed_lg ..⟩

theorem backAll_dirty {s : State} (h : s.pc.slots ≠ []) : backAll s = s := if_neg (fun he => h (List.isEmpty_iff.1 he))

theorem trySense_goesOn {s : State} {x : Slot} {b : Fin 128} {w : LineWrite} {n : Nat} (q : Tries) (hw : writeOn s x b = some w)
    (hf : w.fired = true) (hi : inhibited s x = false) (hr : writesRun s = true) (hn : 0 < n) (hu : w.used < 8) (hs : s.pc.slots ≠ []) :
    backAll (senseResult x b n q s) = tryAgain x b s :=
  (congrArg backAll ((senseResult_trusted hw n q hf hi hr).trans ((if_neg hn.ne').trans (if_pos hu)))).trans (backAll_dirty hs)

/-- Settles O32: the sense of a trusted try passes, or the try goes on. -/
theorem triesPulseVerifyAndPass : Obligations.TriesPulseVerifyAndPass :=
  ⟨fun s _x _b _w hw hf hh hi hu hr => congrArg Host.Outcome.next (pulse_fires (s := noOut s) hw hf hh hi hu hr),
    fun s _x _b _w hw hu => congrArg Host.Outcome.next (pulse_spent (s := noOut s) hw hu),
    fun s _x _b _w _n p q hw hf hi hr hn hu hs => congrArg Host.Outcome.next (trySense_goesOn (s := noOut s) (p :: q) hw hf hi hr hn hu hs),
    fun s x b w h _c p q hw hf hi hr hk h2 hm hj hs hl hq hd hc hu => gives_of (fun s => backAll (senseResult x b 0 (p :: q) s)) rfl
      (trySense_last (s := noOut s) hw hk h2 hm hj hs hl hq hc hu (p :: q) hf hi hr hd)
      (holdEmptied_effect (s := noOut s) b w h (congrArg Option.isSome hc))⟩

end Sys2Proof.Machine

namespace Sys2Proof.Machine

/-! ### The relocation fails (R110) -/

/-- A view with one more failed try (Table 4.17). -/
def MediaView.failed (v : MediaView) : MediaView := (v.1, v.2.1, v.2.2.1, v.2.2.2.1, v.2.2.2.2.1, v.2.2.2.2.2.1, v.2.2.2.2.2.2.1 + 1, v.2.2.2.2.2.2.2)

/-- A cartridge with a spare retired. -/
def retired (b sp p : Nat) (c : Cart) : Cart := { c with relocs := c.relocs ++ [⟨b, sp, p, true⟩] }

/-- The spare of a bank whose write failed is retired (R110). -/
def spareRetired (x : Slot) (n p sp : Nat) (s : State) : State :=
  useSpare x (n % 128) sp p true (tryLine x n [none] (engineWrites x .lento 1 s)).1

/-- A relocation whose spare's write failed. -/
def relocFailed (x : Slot) (n p sp : Nat) (s : State) : State := noteRelocFail x (noteSpare x (n % 128) (spareRetired x n p sp s))

/-- What a relocation comes to whose spare, if there is one, fails its write (R110, R111). -/
def relocOutcome (x : Slot) (n p : Nat) (s : State) : Option Nat → State × Written
  | none => (noteRelocFail x s, ⟨false, false, [none]⟩)
  | some sp => (relocFailed x n p sp s, ⟨false, true, []⟩)

theorem relocate_spareFails {s : State} {x : Slot} {c : Cart} {n : Nat} (p : Nat) (hc : (s.slot x).cart = some c)
    (hn : sparesUsed c (n % 128) < 256) :
    relocate x n p [none] s = (relocFailed x n p (sparesUsed c (n % 128)) s, ⟨false, true, []⟩) :=
  (congrArg (fun o : Option Cart => match o with
    | none => (s, (⟨false, false, [none]⟩ : Written))
    | some c => relocOutcome x n p s (nextSpare c (n % 128))) hc).trans (congrArg (relocOutcome x n p s) (if_pos hn))

theorem mediaView_ev (x : Slot) (d : Ctx) (ev : Ev) (s : State) : mediaView x d { s with ev := ev } = mediaView x d s := rfl

theorem mediaView_raiseF (x : Slot) (d : Ctx) (u : BitVec 5) (k c : BitVec 8) (f : BitVec 4) (d0 d1 d2 : Word) (s : State) :
    mediaView x d (raiseF u k c f d0 d1 d2 s) = mediaView x d s := (congrArg (mediaView x d) (raiseF_shape ..)).trans (mediaView_ev ..)

/-- The warning that a bank's spares run out, if it is due (R111). -/
def spareNoted (y : Slot) (b : Nat) (s : State) : Option Cart → State
  | some c => if sparesUsed c b = 224 then raise uMD cSPARE_LOW noCtx (lo32 y.num) (lo32 b) 224 s else s
  | none => s

theorem mediaView_spareNoted (x y : Slot) (d : Ctx) (b : Nat) (s : State) : ∀ o, mediaView x d (spareNoted y b s o) = mediaView x d s
  | some _ => ite_related (r := fun s t => mediaView x d t = mediaView x d s) (mediaView_raiseF ..) rfl
  | none => rfl

theorem mediaView_noteRelocFail (x : Slot) (d : Ctx) (s : State) : mediaView x d (noteRelocFail x s) = mediaView x d s := by
  cases x
  · rfl
  · rfl

theorem mediaView_relocFailed (x : Slot) (d : Ctx) (n p sp : Nat) (s : State) :
    mediaView x d (relocFailed x n p sp s) = (mediaView x d s).failed.onCart (retired (n % 128) sp p) :=
  (mediaView_noteRelocFail ..).trans ((mediaView_spareNoted x x d (n % 128) (spareRetired x n p sp s) _).trans ((mediaView_modCart ..).trans
    (congrArg (fun v : MediaView => v.failed.onCart (retired (n % 128) sp p)) (mediaView_engineWrites x d .lento 1 s))))

/-! ### The line of the failed write (R112) -/

/-- A cartridge with one more quarantine entry. -/
def quarantined (q : Quarantine) (c : Cart) : Cart := { c with quarantine := c.quarantine ++ [q] }

/-- Where the next quarantine entry stands. -/
def quarPlace (c : Cart) : Nat := quarBase c.big + (c.quarantine.length + c.lostQuar) % (8 * mibLines)

/-- What the first pass of a quarantine entry comes to on a cartridge. -/
def quarTaken (x : Slot) (q : Quarantine) (s : State) : Option Cart → State × Tries
  | none => (s, [])
  | some c => (modCart x (quarantined q) (written x (quarPlace c) 0 s), [])

theorem quarantineEntry_passes {s : State} {x : Slot} {c : Cart} (q : Quarantine) (hc : (s.slot x).cart = some c) :
    quarantineEntry x q 1 [] s = (modCart x (quarantined q) (written x (quarPlace c) 0 s), []) :=
  (rfl : quarantineEntry x q 1 [] s = quarTaken x q s (s.slot x).cart).trans (congrArg (quarTaken x q s) hc)

theorem poisonLine_passes {s : State} (x : Slot) (n : Nat) (l : StoredLine) (hj : s.md.injArmed = false) :
    poisonLine x n l [] s = storeLine x n l (written x n 0 s) :=
  writeLine_unarmed ((congrArg (fun v : MediaView => v.2.2.2.2.2.2.2.1) (mediaView_written x provider n 0 s)).trans hj) x n l

/-- A line in quarantine, and its home poisoned (R112). -/
def homeQuarantined (x : Slot) (w : LineWrite) (h : HoldSlot) (c : Cart) (s : State) : State :=
  storeLine x w.cline (w.line.poisoned 0) (written x w.cline 0
    (modCart x (quarantined ⟨h.ctx, w.cline, w.line⟩) (written x (quarPlace c) 0 s)))

/-- A view with a line in quarantine and its home poisoned. -/
def MediaView.lost (w : LineWrite) (h : HoldSlot) (v : MediaView) : MediaView :=
  (v.onCart (quarantined ⟨h.ctx, w.cline, w.line⟩)).onCart (withLine w.cline (w.line.poisoned 0))

theorem mediaView_homeQuarantined (x : Slot) (d : Ctx) (w : LineWrite) (h : HoldSlot) (c : Cart) (s : State) :
    mediaView x d (homeQuarantined x w h c s) = (mediaView x d s).lost w h :=
  (mediaView_modCart ..).trans (congrArg (MediaView.onCart (withLine w.cline (w.line.poisoned 0)))
    ((mediaView_written ..).trans ((mediaView_modCart ..).trans
      (congrArg (MediaView.onCart (quarantined ⟨h.ctx, w.cline, w.line⟩)) (mediaView_written ..)))))

/-! ### The reports of a failed home write (R112, R237) -/

/-- A view without what the reports of a failure change, but for the context's ERR_HARD. -/
abbrev FailView := List HoldSlot × Option Cart × Ks × List Req × List LineWrite × List Rewrite × Nat × Bool × BitVec 32

def MediaView.fail (v : MediaView) : FailView := (v.1.1.slots, v.2)

def failView (x : Slot) (d : Ctx) (s : State) : FailView := (mediaView x d s).fail

/-- One more ERR_HARD (Table 6.1). -/
def FailView.hard (v : FailView) : FailView :=
  (v.1, v.2.1, v.2.2.1, v.2.2.2.1, v.2.2.2.2.1, v.2.2.2.2.2.1, v.2.2.2.2.2.2.1, v.2.2.2.2.2.2.2.1, v.2.2.2.2.2.2.2.2 + 1)

/-- The state with a media error in its register. -/
def withError (a : Word) (code ctx : BitVec 8) (w : BitVec 4) (s : State) : State :=
  { s with md := { s.md with errAddr := a, errValid := true, errCode := code, errCtx := ctx, errWeight := w } }

theorem failView_withError (x : Slot) (d : Ctx) (a : Word) (code ctx : BitVec 8) (w : BitVec 4) (s : State) :
    failView x d (withError a code ctx w s) = failView x d s := rfl

theorem failView_noteError (x y : Slot) (d : Ctx) (n : Nat) (code ctx : BitVec 8) (w : BitVec 4) (s : State) :
    failView x d (noteError y n code ctx w s) = failView x d s :=
  ite_related (r := fun s t => failView x d t = failView x d s) rfl (failView_withError ..)

theorem failView_mediaEvent (x : Slot) (d : Ctx) (n : Nat) (code : BitVec 8) (s : State) :
    failView x d (mediaEvent n code s) = failView x d s :=
  have h := @ite_related fun s t => failView x d t = failView x d s
  h rfl (h rfl rfl)

theorem failView_addHard (x : Slot) (d : Ctx) (s : State) : failView x d (count d addHard s) = (failView x d s).hard :=
  (congrArg (fun k : Counters => (viewOf s.pc s.tn s.duet (s.slot x).cart s.ks s.gl s.md k.errHard).fail) (count_live d addHard s) :)

/-- The reports of a failed home write. -/
def failureReported (x : Slot) (w : LineWrite) (h : HoldSlot) (tried : Bool) (s : State) : State :=
  mediaEvent (h.media * 64) cPWF (failureMessage h.ctx h.asn h.reqs (count h.ctx addHard
    (noteError x w.cline cPWF (ctxByte h.ctx) 0xF
      (raiseAddr uMD cPWF (ctxByte h.ctx) (if h.verified then 1 else 0) x w.cline h.off 8 w.tempo.bits tried s))))

theorem failView_failureReported (x : Slot) (w : LineWrite) (h : HoldSlot) (tried : Bool) (s : State) :
    failView x h.ctx (failureReported x w h tried s) = (failView x h.ctx s).hard :=
  (failView_mediaEvent ..).trans ((failView_addHard ..).trans (congrArg FailView.hard ((failView_noteError ..).trans
    (congrArg MediaView.fail (mediaView_raiseF ..)))))

/-- The channels that wait for the slot see its failure, and its home is done. -/
def homeGiven (x : Slot) (n : Nat) (h : HoldSlot) (l : List (Fin 32)) (s : State) : State :=
  homeDone h.id x n (l.foldl (fun s n => modCh n (fun c => { c with sawPwf := true }) s) s)

/-- The last home of the only dirty slot has failed, but for the slot. -/
def homeLost (x : Slot) (w : LineWrite) (h : HoldSlot) (c : Cart) (s : State) : State :=
  failureReported x w h true (homeQuarantined x w h c s)

theorem failView_homeLost (x : Slot) (w : LineWrite) (h : HoldSlot) (c : Cart) (s : State) :
    failView x h.ctx (homeLost x w h c s) = ((mediaView x h.ctx s).lost w h).fail.hard :=
  (failView_failureReported ..).trans (congrArg (fun v : MediaView => v.fail.hard) (mediaView_homeQuarantined ..))

/-- A line-write as one of a slot. -/
def atSlot (x : Slot) (w : LineWrite) : LineWrite := { w with slot := x }

section
variable {s : State} {x : Slot} {w : LineWrite} {h : HoldSlot} (hs : s.pc.slots = [h]) (hl : h.left = [(x, w.cline)]) (hq : h.reqs = [])
include hs hl hq

theorem homeGiven_last (hch : h.chans = []) : homeGiven x w.cline h h.chans s = slotFreed h [] [] s :=
  (congrArg (fun l => homeGiven x w.cline h l s) hch).trans ((homeDone_last hs hl).trans (congrArg (fun q => slotFreed h [] q s) hq))

theorem homeFailed_last {c : Cart} (hch : h.chans = []) (hc : (s.slot x).cart = some c) (hj : s.md.injArmed = false) :
    homeFailed (atSlot x w) h ⟨false, true, []⟩ s = slotFreed h [] [] (homeLost x w h c s) :=
  (congrArg (fun p : State × Tries => homeGiven x w.cline h h.chans (failureReported x w h true (poisonLine x w.cline (w.line.poisoned 0) p.2 p.1)))
    (quarantineEntry_passes ⟨h.ctx, w.cline, w.line⟩ hc)).trans
    ((congrArg (fun s => homeGiven x w.cline h h.chans (failureReported x w h true s)) (poisonLine_passes x w.cline (w.line.poisoned 0)
      ((congrArg Md.injArmed (modCart_md ..)).trans ((congrArg (fun v : MediaView => v.2.2.2.2.2.2.2.1)
        (mediaView_written x h.ctx (quarPlace c) 0 s)).trans hj)))).trans
      (homeGiven_last ((congrArg (fun v => v.1) (failView_homeLost x w h c s)).trans hs) hl hq hch))

end

/-! ### A line-write that fails all its tries and its relocation (R110, R112) -/

/-- A line-write off its bank, with its tag. -/
def offBank (x : Slot) (b : Fin 128) (w : LineWrite) (s : State) : State := dropTag? w.tag (endWrite x b s)

/-- What a failed write comes to by the slot of the hold buffer whose home it is. -/
def failedAt (w : LineWrite) (r : Written) (s : State) : Option HoldSlot → State
  | none => s
  | some h => homeFailed w h r s

theorem writeFailed_home {s : State} {x : Slot} {b : Fin 128} {w : LineWrite} {h : HoldSlot} (r : Written) (hx : w.slot = x)
    (hb : bankOf w.cline = b) (hk : w.kind = .hold h.id) (h2 : w.second = false) (hs : (offBank x b w s).pc.slots = [h]) :
    writeFailed w r s = homeFailed (atSlot x w) h r (offBank x b w s) := by
  subst hx hb
  exact (congrArg (fun v : Bool → LineWrite => writeFailed (v w.poisonMerge) r s) (congr (congrArg (asWrite w) hk) h2)).trans
    (congrArg (failedAt w r (offBank w.slot (bankOf w.cline) w s)) (find?_only hs))

/-- The state of a failed write but for the slot and the resync map. -/
def homeGone (x : Slot) (b : Fin 128) (w : LineWrite) (h : HoldSlot) (c : Cart) (s : State) : State :=
  homeLost x w h (retired (w.cline % 128) (sparesUsed c (w.cline % 128)) (physOf (tryFailed s) x w.cline) c)
    (offBank x b w (relocFailed x w.cline (physOf (tryFailed s) x w.cline) (sparesUsed c (w.cline % 128)) (tryFailed s)))

/-- A view whose line-write has left its bank, its relocation failed. -/
def MediaView.offBank (x : Slot) (b : Fin 128) (k p sp : Nat) (v : MediaView) : MediaView :=
  (v.failed.failed.onCart (retired k sp p)).ended x b

theorem mediaView_offBank (x : Slot) (d : Ctx) (b : Fin 128) (w : LineWrite) (p sp : Nat) (s : State) :
    mediaView x d (offBank x b w (relocFailed x w.cline p sp (tryFailed s))) = (mediaView x d s).offBank x b (w.cline % 128) p sp :=
  (mediaView_dropTag? ..).trans (congrArg (MediaView.ended x b) (mediaView_relocFailed x d w.cline p sp (tryFailed s)))

theorem failView_backAll (x : Slot) (d : Ctx) (s : State) : failView x d (backAll s) = failView x d s :=
  ite_related (r := fun s t => failView x d t = failView x d s) rfl rfl

section
variable {s : State} {x : Slot} {b : Fin 128} {w : LineWrite} {h : HoldSlot} {c : Cart} {n : Nat} (hw : writeOn s x b = some w)
  (hf : w.fired = true) (hi : inhibited s x = false) (hr : writesRun s = true) (hk : w.kind = .hold h.id)
  (hu : w.used = 8) (hn : 0 < n) (h2 : w.second = false) (hs : s.pc.slots = [h]) (hl : h.left = [(x, w.cline)])
  (hq : h.reqs = []) (hch : h.chans = []) (hc : (s.slot x).cart = some c) (hsp : sparesUsed c b.val < 256)
  (hj : s.md.injArmed = false)
include hw hf hi hr hk hu hn h2 hs hl hq hch hc hsp hj

theorem senseResult_fails : senseResult x b n [none] s = markResync x w.cline (slotFreed h [] [] (homeGone x b w h c s)) :=
  have hv := mediaView_offBank x h.ctx b w (physOf (tryFailed s) x w.cline) (sparesUsed c (w.cline % 128)) s
  (senseResult_trusted hw n [none] hf hi hr).trans ((if_neg hn.ne').trans ((if_neg hu.not_lt).trans (congrArg (markResync x w.cline)
    ((congrArg (afterLastTry x b w) (relocate_spareFails (s := tryFailed s) _ hc (lt_of_eq_of_lt (congrArg (fun b : Fin 128 => sparesUsed c b.val) (writeOn_some hw).2) hsp))).trans
      ((writeFailed_home ⟨false, true, []⟩ (writeOn_some hw).1 (writeOn_some hw).2 hk h2 ((congrArg (fun v => v.1.1.slots) hv).trans hs)).trans
        (homeFailed_last ((congrArg (fun v => v.1.1.slots) hv).trans hs) hl hq hch
          ((congrArg (fun v => v.2.1) hv).trans (congrArg (Option.map (retired (w.cline % 128) (sparesUsed c (w.cline % 128))
            (physOf (tryFailed s) x w.cline))) hc)) ((congrArg (fun v => v.2.2.2.2.2.2.2.1) hv).trans hj)))))))

end

/-- A view with another cartridge and no dirty slot. -/
def FailView.freed (f : Cart → Cart) (v : FailView) : FailView := ([], v.2.1.map f, v.2.2)

/-- The resync map alone is another (Table 3.7). -/
theorem failView_markResync (x : Slot) (d : Ctx) (n : Nat) (h : HoldSlot) (s : State) :
    ∃ f : Cart → Cart, (∀ c, (f c).lines = c.lines ∧ (f c).quarantine = c.quarantine) ∧
      failView x d (backAll (markResync x n (slotFreed h [] [] s))) = (failView x d s).freed f :=
  if h : s.duet.state = .mirrorDegraded then
    ⟨fun c => if c.resync.any (fun k => decide (k = n / 1024)) then c else { c with resync := c.resync ++ [n / 1024] },
      fun c => iteInduction (motive := fun t : Cart => t.lines = c.lines ∧ t.quarantine = c.quarantine) (fun _h => ⟨rfl, rfl⟩) fun _h => ⟨rfl, rfl⟩,
      (failView_backAll ..).trans ((congrArg (failView x d) (if_pos h)).trans (congrArg MediaView.fail (mediaView_modCart ..)))⟩
  else ⟨id, fun _c => ⟨rfl, rfl⟩, (failView_backAll ..).trans ((congrArg (failView x d) (if_neg h)).trans
    (congrArg (fun o => (([] : List HoldSlot), o, (failView x d s).2.2)) Option.map_id_apply.symm))⟩

theorem lineAt_congr {c d : Cart} (h : d.lines = c.lines) (n : Nat) : lineAt d n = lineAt c n :=
  congrArg (fun l => (look n l).getD ({} : StoredLine)) h

/-- The view of a failed write, with the cartridge's resync map that it leaves. -/
def MediaView.gone (x : Slot) (b : Fin 128) (w : LineWrite) (h : HoldSlot) (p sp : Nat) (f : Cart → Cart) (v : MediaView) : FailView :=
  (((v.offBank x b (w.cline % 128) p sp).lost w h).fail.hard).freed f

theorem failView_homeGone (x : Slot) (b : Fin 128) (w : LineWrite) (h : HoldSlot) (c : Cart) (s : State) :
    ∃ f : Cart → Cart, (∀ c, (f c).lines = c.lines ∧ (f c).quarantine = c.quarantine) ∧
      failView x h.ctx (backAll (markResync x w.cline (slotFreed h [] [] (homeGone x b w h c s)))) =
        (mediaView x h.ctx s).gone x b w h (physOf (tryFailed s) x w.cline) (sparesUsed c (w.cline % 128)) f :=
  (failView_markResync x h.ctx w.cline h (homeGone x b w h c s)).imp fun f k => ⟨k.1, k.2.trans (congrArg (FailView.freed f)
    ((failView_homeLost ..).trans (congrArg (fun v : MediaView => (v.lost w h).fail.hard) (mediaView_offBank ..))))⟩

/-- What a state leaves whose view is that of a failed write. -/
theorem failedWrite_effect {s t : State} {x : Slot} {b : Fin 128} {w : LineWrite} {h : HoldSlot} {c : Cart} {p sp : Nat} {f : Cart → Cart}
    (hc : (s.slot x).cart = some c) (hf : ∀ c, (f c).lines = c.lines ∧ (f c).quarantine = c.quarantine)
    (hv : failView x h.ctx t = (mediaView x h.ctx s).gone x b w h p sp f) :
    (∃ d, (t.slot x).cart = some d ∧ d.quarantine = c.quarantine ++ [⟨h.ctx, w.cline, w.line⟩] ∧
      (lineAt d w.cline).poison = true ∧ ∀ m, m ≠ w.cline → lineAt d m = lineAt c m) ∧
    t.pc.slots = [] ∧ writeOn t x b = none ∧ t.lg.live[h.ctx].errHard = s.lg.live[h.ctx].errHard + 1 ∧
    t.md.tFailed = s.md.tFailed + 2 ∧ t.ks = s.ks ∧ t.gl.ingress = s.gl.ingress :=
  have hl := hf (withLine w.cline (w.line.poisoned 0) (quarantined ⟨h.ctx, w.cline, w.line⟩ (retired (w.cline % 128) sp p c)))
  ⟨⟨_, (congrArg (fun v => v.2.1) hv).trans (congrArg (fun o : Option Cart =>
      ((((o.map (retired (w.cline % 128) sp p)).map (quarantined ⟨h.ctx, w.cline, w.line⟩)).map
        (withLine w.cline (w.line.poisoned 0))).map f)) hc), hl.2,
      (congrArg StoredLine.poison ((lineAt_congr hl.1 w.cline).trans (lineAt_stored c w.cline (w.line.poisoned 0))) :),
      fun m hm => (lineAt_congr hl.1 m).trans (lineAt_other c _ hm)⟩,
    congrArg (fun v => v.1) hv, writeOn_endWrite (s := s) (congrArg (fun v => v.2.2.2.2.1) hv),
    congrArg (fun v => v.2.2.2.2.2.2.2.2) hv, congrArg (fun v => v.2.2.2.2.2.2.1) hv,
    congrArg (fun v => v.2.2.1) hv, congrArg (fun v => v.2.2.2.1) hv⟩

/-- Settles O33: the spare's write fails, and the view of the slot and the context says what the failure leaves. -/
theorem failedWritesAreQuarantined : Obligations.FailedWritesAreQuarantined :=
  fun s x b w h c n hw hf hi hr hk hu hn h2 hs hl hq hch hc hsp hj => gives_of (fun s => backAll (senseResult x b n [none] s)) rfl
    (congrArg backAll (senseResult_fails (s := noOut s) hw hf hi hr hk hu hn h2 hs hl hq hch hc hsp hj))
    ((failView_homeGone x b w h c (noOut s)).elim fun _f k => failedWrite_effect (s := noOut s) hc k.1 k.2)

end Sys2Proof.Machine
